-- ==== Sys2Proof/Word.lean ====
section
/-! DEFINITION. The word types of the Caund: bytes, 32-bit register words and 64-bit double words (01 R13, R24). -/

namespace Sys2Proof

abbrev Byte := BitVec 8
abbrev Word := BitVec 32
abbrev Dword := BitVec 64

end Sys2Proof
end

