-- ==== Sys2Proof/Syntax.lean ====
section
/-! DEFINITION. The instruction set of the Caund as syntax: operands (02 R45, R46), the fields of the formats (R36 to R42,
R52), and one constructor of `Instr` for each row of opcode_table.json. A row of the table is an instruction form or a step
the device takes on its own; what a step acts on is in `StepArgs`, which State holds. -/

namespace Sys2Proof

/-- The shared type codes of 02 R43, in code order. -/
inductive Ty where
  | b32 | i32 | n32 | f32 | f16 | bf16 | b64 | i64
  | n64 | f64 | tf32 | b16 | b8 | i8 | n8 | b128
  | e4m3 | e5m2 | e3m2 | e2m3 | e2m1 | i4
  deriving DecidableEq, Repr

/-- What an operand specifier names (02 R45, R46). -/
inductive Opnd where
  | v (n : BitVec 8)      -- main-file register, 0 to 254
  | k (n : BitVec 8)      -- uniform register
  | o (n : BitVec 3)      -- operand-file register
  | y0 | y1               -- last-result file
  | zero                  -- the zero code
  | lit                   -- the literal, bits [63:0]
  | litLo | litHi         -- its halves (10-bit specifiers only)
  | imm (b : BitVec 8)    -- immediate, sign-extended (10-bit specifiers only)
  deriving DecidableEq, Repr

/-- Fields of the C3 format (02 R36), less opcode and length. -/
structure C3 where
  m : Bool
  b : Opnd
  a : Opnd
  d : Opnd
  deriving DecidableEq, Repr

/-- Fields of the CI format (02 R37). -/
structure CI where
  imm : BitVec 8
  a : Opnd
  d : Opnd
  deriving DecidableEq, Repr

/-- Fields of the CB format (02 R38). -/
structure CB where
  off : BitVec 22
  deriving DecidableEq, Repr

/-- Words 0 and 1 of the 96-bit form (02 R40), less opcode, form selector and length, with the trailing literal (R33). -/
structure Ops4 where
  g : BitVec 4
  d : Opnd
  a : Opnd
  b : Opnd
  c : Opnd
  mod8 : BitVec 8
  lit : Option Dword
  deriving DecidableEq, Repr

/-- The arithmetic form, F = 0b00 (02 R42). -/
structure Arith extends Ops4 where
  ext : BitVec 16
  sat : Bool
  rnd : BitVec 3
  ty : Ty
  deriving DecidableEq, Repr

/-- The memory form, F = 0b01 (02 R42). -/
structure Memf extends Ops4 where
  off : BitVec 20
  agent : BitVec 3
  store : BitVec 2
  ord : BitVec 2
  ty : Ty
  deriving DecidableEq, Repr

/-- The descriptor form, F = 0b10 (02 R42). -/
structure Desc extends Ops4 where
  w2 : BitVec 32
  deriving DecidableEq, Repr

/-- An "_96" row with a compact sibling: the 96-bit form, or the compact C3 form with a literal. -/
inductive AForm where
  | wide (x : Arith)
  | c3 (x : C3) (lit : Dword)
  deriving DecidableEq, Repr

/-- LD_96 and ST_96: the memory form, or the CI form with a literal. -/
inductive MForm where
  | wide (x : Memf)
  | ci (x : CI) (lit : Dword)
  deriving DecidableEq, Repr

/-- One half of the pair form (02 R52). -/
structure Half where
  ty : Ty
  g : BitVec 4
  c : Opnd
  b : Opnd
  a : Opnd
  d : Opnd
  sub : BitVec 7
  deriving DecidableEq, Repr

/-- The pair form (02 R52). -/
structure Pair where
  h0 : Half
  h1 : Half
  lit : Option Dword
  deriving DecidableEq, Repr

/-- A protected structure of 17 R382; numbers are the structure's position. -/
inductive Structure where
  | regBank (core quad bank : Nat)
  | spadBank (core bank : Nat)
  | l0 (core : Nat)
  | l1Slice (cluster slice : Nat)
  | dotUnits (core quad : Nat)
  | bstoreSlice (core col : Nat)
  | slcData (tile slice : Nat)
  | slcControl (tile slice : Nat)
  | lpddr (package row : Nat)
  | fabricPort (port : Nat)
  | mesh (a b : Nat)
  | hostLane (site lane : Nat)
  deriving DecidableEq, Repr

/-- Power states of 23 R438. -/
inductive Power where
  | run | idle | standby | off
  deriving DecidableEq, Repr

/-- A memory request of an external master (20 R408, R414): what it asks at a physical address. -/
inductive Request where
  | read (a n : Nat)
  | write (a : Nat) (data : List Byte) (relaxed : Bool)
  | atomic (a : Nat) (ty : Ty) (op : BitVec 5) (b c : Dword) (returns : Bool)
  | shoot (asid : BitVec 16) (page pages : Nat)          -- a shoot-down for a page-home move (18 R396)
  | other
  deriving DecidableEq, Repr

/-- One constructor per row of opcode_table.json; the comment names the row and its rule. -/
inductive Instr where
  | mov (x : C3)  -- MOV, R106
  | mov96 (x : AForm)  -- MOV_96, R106
  | sel (x : Arith)  -- SEL, R107
  | add (x : C3)  -- ADD, R98
  | add96 (x : AForm)  -- ADD_96, R98
  | sub (x : C3)  -- SUB, R98
  | sub96 (x : AForm)  -- SUB_96, R98
  | neg (x : C3)  -- NEG, R98
  | neg96 (x : AForm)  -- NEG_96, R98
  | abs (x : C3)  -- ABS, R98
  | abs96 (x : AForm)  -- ABS_96, R98
  | min (x : C3)  -- MIN, R98
  | min96 (x : AForm)  -- MIN_96, R98
  | max (x : C3)  -- MAX, R98
  | max96 (x : AForm)  -- MAX_96, R98
  | mul (x : C3)  -- MUL, R98
  | mul96 (x : AForm)  -- MUL_96, R98
  | mulhi (x : C3)  -- MULHI, R98
  | mulhi96 (x : AForm)  -- MULHI_96, R98
  | mad (x : C3)  -- MAD, R98
  | mad96 (x : AForm)  -- MAD_96, R98
  | madw (x : Arith)  -- MADW, R100
  | div (x : C3)  -- DIV, R99
  | div96 (x : AForm)  -- DIV_96, R99
  | rem (x : C3)  -- REM, R99
  | rem96 (x : AForm)  -- REM_96, R99
  | sad (x : Arith)  -- SAD, R98
  | and (x : C3)  -- AND, R102
  | and96 (x : AForm)  -- AND_96, R102
  | or (x : C3)  -- OR, R102
  | or96 (x : AForm)  -- OR_96, R102
  | xor (x : C3)  -- XOR, R102
  | xor96 (x : AForm)  -- XOR_96, R102
  | not (x : C3)  -- NOT, R102
  | not96 (x : AForm)  -- NOT_96, R102
  | andn (x : C3)  -- ANDN, R102
  | andn96 (x : AForm)  -- ANDN_96, R102
  | lop (x : Arith)  -- LOP, R103
  | shl (x : C3)  -- SHL, R104
  | shl96 (x : AForm)  -- SHL_96, R104
  | shr (x : C3)  -- SHR, R104
  | shr96 (x : AForm)  -- SHR_96, R104
  | sar (x : C3)  -- SAR, R104
  | sar96 (x : AForm)  -- SAR_96, R104
  | rol (x : C3)  -- ROL, R104
  | rol96 (x : AForm)  -- ROL_96, R104
  | ror (x : C3)  -- ROR, R104
  | ror96 (x : AForm)  -- ROR_96, R104
  | bfx (x : Arith)  -- BFX, R105
  | bfins (x : Arith)  -- BFINS, R105
  | popc (x : C3)  -- POPC, R102
  | popc96 (x : AForm)  -- POPC_96, R102
  | clz (x : C3)  -- CLZ, R102
  | clz96 (x : AForm)  -- CLZ_96, R102
  | ctz (x : C3)  -- CTZ, R102
  | ctz96 (x : AForm)  -- CTZ_96, R102
  | brev (x : C3)  -- BREV, R102
  | brev96 (x : AForm)  -- BREV_96, R102
  | revb (x : C3)  -- REVB, R102
  | revb96 (x : AForm)  -- REVB_96, R102
  | cmp (x : Arith)  -- CMP, R108
  | plop (x : Arith)  -- PLOP, R109
  | pmov (x : Arith)  -- PMOV, R110
  | lea (x : Arith)  -- LEA, R100
  | icvt (x : Arith)  -- ICVT, R101
  | clamp (x : Arith)  -- CLAMP, R98
  | fadd (x : C3)  -- FADD, R112
  | fadd96 (x : AForm)  -- FADD_96, R112
  | fsub (x : C3)  -- FSUB, R112
  | fsub96 (x : AForm)  -- FSUB_96, R112
  | fmul (x : C3)  -- FMUL, R112
  | fmul96 (x : AForm)  -- FMUL_96, R112
  | ffma (x : C3)  -- FFMA, R112
  | ffma96 (x : AForm)  -- FFMA_96, R112
  | fmin (x : C3)  -- FMIN, R113
  | fmin96 (x : AForm)  -- FMIN_96, R113
  | fmax (x : C3)  -- FMAX, R113
  | fmax96 (x : AForm)  -- FMAX_96, R113
  | fabs (x : C3)  -- FABS, R114
  | fabs96 (x : AForm)  -- FABS_96, R114
  | fneg (x : C3)  -- FNEG, R114
  | fneg96 (x : AForm)  -- FNEG_96, R114
  | fcmp (x : Arith)  -- FCMP, R115
  | fclass (x : Arith)  -- FCLASS, R114
  | fdiv (x : Arith)  -- FDIV, R116
  | fsqrt (x : Arith)  -- FSQRT, R116
  | cvt (x : Arith)  -- CVT, R117
  | cvtfi (x : Arith)  -- CVTFI, R117
  | cvtif (x : Arith)  -- CVTIF, R117
  | frnd (x : Arith)  -- FRND, R118
  | fscale (x : Arith)  -- FSCALE, R118
  | bra (x : CB)  -- BRA, R120
  | bra96 (x : Desc)  -- BRA_96, R120
  | call (x : CB)  -- CALL, R120
  | call96 (x : Desc)  -- CALL_96, R120
  | jmp (x : C3)  -- JMP, R121
  | jmp96 (x : AForm)  -- JMP_96, R121
  | calli (x : C3)  -- CALLI, R121
  | calli96 (x : AForm)  -- CALLI_96, R121
  | ret (x : C3)  -- RET, R121
  | ret96 (x : AForm)  -- RET_96, R121
  | exit (x : C3)  -- EXIT, R123
  | exit96 (x : Arith)  -- EXIT_96, R123
  | brk (x : Arith)  -- BRK, R124
  | svc (x : CI)  -- SVC, R125
  | svc96 (x : Arith)  -- SVC_96, R125
  | wait (x : Desc)  -- WAIT, R126
  | nop (x : C3)  -- NOP, R127
  | nop96 (x : Arith)  -- NOP_96, R127
  | ld (x : CI)  -- LD, R129
  | ld96 (x : MForm)  -- LD_96, R222
  | st (x : CI)  -- ST, R130
  | st96 (x : MForm)  -- ST_96, R222
  | movs (x : Desc)  -- MOVS, R131
  | sets (x : Desc)  -- SETS, R131
  | sxTimeWrite (x : Desc)  -- SX_TIME_WRITE, R32
  | pair (x : Pair)  -- PAIR, R55
  | join (x : Arith)  -- JOIN, R163
  | lead (x : Arith)  -- LEAD, R164
  | spawn (x : Arith)  -- SPAWN, R168
  | bar (x : Arith)  -- BAR, R165
  | xch (x : Arith)  -- XCH, R169
  | xlred (x : Arith)  -- XLRED, R171
  | xlscan (x : Arith)  -- XLSCAN, R171
  | ballot (x : Arith)  -- BALLOT, R172
  | quorum (x : Arith)  -- QUORUM, R173
  | peer (x : Arith)  -- PEER, R174
  | hadd (x : C3)  -- HADD, R175
  | hadd96 (x : AForm)  -- HADD_96, R175
  | hmul (x : C3)  -- HMUL, R175
  | hmul96 (x : AForm)  -- HMUL_96, R175
  | hfma (x : C3)  -- HFMA, R175
  | hfma96 (x : AForm)  -- HFMA_96, R175
  | hmin (x : Arith)  -- HMIN, R176
  | hmax (x : Arith)  -- HMAX, R176
  | dot (x : Arith)  -- DOT, R178
  | rcp (x : C3)  -- RCP, R180
  | rcp96 (x : AForm)  -- RCP_96, R180
  | rsq (x : C3)  -- RSQ, R180
  | rsq96 (x : AForm)  -- RSQ_96, R180
  | ex2 (x : C3)  -- EX2, R180
  | ex296 (x : AForm)  -- EX2_96, R180
  | lg2 (x : C3)  -- LG2, R180
  | lg296 (x : AForm)  -- LG2_96, R180
  | sin (x : C3)  -- SIN, R180
  | sin96 (x : AForm)  -- SIN_96, R180
  | cos (x : C3)  -- COS, R180
  | cos96 (x : AForm)  -- COS_96, R180
  | tanh (x : C3)  -- TANH, R180
  | tanh96 (x : AForm)  -- TANH_96, R180
  | pack (x : Arith)  -- PACK, R181
  | unpk (x : Arith)  -- UNPK, R182
  | qblk (x : Arith)  -- QBLK, R183
  | edge (x : Arith)  -- EDGE, R184
  | ldmx (x : Memf)  -- LDMX, R225
  | atom (x : Memf)  -- ATOM, R227
  | red (x : Memf)  -- RED, R232
  | fence (x : Memf)  -- FENCE, R235
  | ifence (x : Arith)  -- IFENCE, R236
  | cwb (x : Memf)  -- CWB, R237
  | cinval (x : Memf)  -- CINVAL, R237
  | pref (x : Memf)  -- PREF, R238
  | cpy (x : Desc)  -- CPY, R257
  | cpyt (x : Desc)  -- CPYT, R261
  | slotarm (x : Desc)  -- SLOTARM, R252
  | sarrive (x : Desc)  -- SARRIVE, R252
  | sacq (x : Desc)  -- SACQ, R253
  | swait (x : Desc)  -- SWAIT, R253
  | sfirst (x : Desc)  -- SFIRST, R253
  | sreset (x : Desc)  -- SRESET, R254
  | ondone (x : Desc)  -- ONDONE, R255
  | give (x : Desc)  -- GIVE, R263
  | take (x : Desc)  -- TAKE, R264
  | qinit (x : Desc)  -- QINIT, R267
  | qpush (x : Desc)  -- QPUSH, R268
  | qpop (x : Desc)  -- QPOP, R268
  | qtryPush (x : Desc)  -- QTRY_PUSH, R268
  | qtryPop (x : Desc)  -- QTRY_POP, R268
  | hitch (x : Desc)  -- HITCH, R284
  | unhitch (x : Desc)  -- UNHITCH, R285
  | bload (x : Desc)  -- BLOAD, R286
  | bswap (x : Desc)  -- BSWAP, R288
  | mma (x : Desc)  -- MMA, R301
  | accz (x : Desc)  -- ACCZ, R310
  | accld (x : Desc)  -- ACCLD, R310
  | accst (x : Desc)  -- ACCST, R311
  | trace (x : Desc)  -- TRACE, R331
  | pairs (x : Desc)  -- PAIRS, R340
  | isload (x : Desc)  -- ISLOAD, R335
  | isray (x : Desc)  -- ISRAY, R334
  | iscand (x : Desc)  -- ISCAND, R334
  | isacc (x : Desc)  -- ISACC, R334
  | isrej (x : Desc)  -- ISREJ, R334
  | isend (x : Desc)  -- ISEND, R334
  | sgfork (x : Desc)  -- SGFORK, R345
  | sgpost (x : Desc)  -- SGPOST, R348
  | sgcancel (x : Desc)  -- SGCANCEL, R348
  | sgcancelAll (x : Desc)  -- SGCANCEL_ALL, R348
  | sgstat (x : Desc)  -- SGSTAT, R347
  | rte (x : Desc)  -- RTE, R366
  | movix (x : Desc)  -- MOVIX, R367
  | setix (x : Desc)  -- SETIX, R368
  | regionOpen (x : Desc)  -- REGION_OPEN, R379
  | regionClose (x : Desc)  -- REGION_CLOSE, R379
  | yield (x : Desc)  -- YIELD, R378
  | qwait (x : Desc)  -- QWAIT, R423
  | launchStart (x : Desc)  -- LAUNCH_START, R424
  | launchReply (x : Desc)  -- LAUNCH_REPLY, R424
  | launchPreempt (x : Desc)  -- LAUNCH_PREEMPT, R424
  | launchResume (x : Desc)  -- LAUNCH_RESUME, R424
  | launchEnd (x : Desc)  -- LAUNCH_END, R425
  | launchBind (x : Desc)  -- LAUNCH_BIND, R424
  | illegalOpcode (ws : List Word)  -- ILLEGAL_OPCODE, R58
  | threadEnd  -- THREAD_END, R123
  | loadComplete  -- LOAD_COMPLETE, R28
  | storeComplete  -- STORE_COMPLETE, R28
  | releaseWritePerform  -- RELEASE_WRITE_PERFORM, R204
  | writePerform  -- WRITE_PERFORM, R206
  | keyReadyTimeout  -- KEY_READY_TIMEOUT, R145
  | keyAgeExpiry  -- KEY_AGE_EXPIRY, R146
  | spawnPoolRoom  -- SPAWN_POOL_ROOM, R150
  | poolInsertDeferred  -- POOL_INSERT_DEFERRED, R154
  | binTimerExpiry  -- BIN_TIMER_EXPIRY, R151
  | spawnedGroupStart  -- SPAWNED_GROUP_START, R153
  | flagwordOr  -- FLAGWORD_OR, R229
  | copyProgress  -- COPY_PROGRESS, R256
  | copyRetire  -- COPY_RETIRE, R256
  | copyFault  -- COPY_FAULT, R258
  | sresetDone  -- SRESET_DONE, R254
  | takeDone  -- TAKE_DONE, R264
  | queueWaitServed  -- QUEUE_WAIT_SERVED, R268
  | unhitchComplete  -- UNHITCH_COMPLETE, R285
  | bloadRetire  -- BLOAD_RETIRE, R286
  | bloadFault  -- BLOAD_FAULT, R287
  | gridOpRetire  -- GRID_OP_RETIRE, R305
  | gridOpFault  -- GRID_OP_FAULT, R306
  | accCmdRetire  -- ACC_CMD_RETIRE, R309
  | harnessDrain  -- HARNESS_DRAIN, R291
  | harnessRestore  -- HARNESS_RESTORE, R293
  | traversalRoom  -- TRAVERSAL_ROOM, R331
  | intersectionProgramStart  -- INTERSECTION_PROGRAM_START, R333
  | programBudgetExpiry  -- PROGRAM_BUDGET_EXPIRY, R333
  | rayWalkEnd  -- RAY_WALK_END, R331
  | pairEmit  -- PAIR_EMIT, R339
  | pairWalkEnd  -- PAIR_WALK_END, R340
  | isloadApply  -- ISLOAD_APPLY, R335
  | sgOpen  -- SG_OPEN, R345
  | sgEvent  -- SG_EVENT, R348
  | sgTimerExpiry  -- SG_TIMER_EXPIRY, R352
  | sgCloseDone  -- SG_CLOSE_DONE, R351
  | sgElapsedWrite  -- SG_ELAPSED_WRITE, R352
  | gangPlace  -- GANG_PLACE, R428
  | gangWaitExpiry  -- GANG_WAIT_EXPIRY, R429
  | groupFree  -- GROUP_FREE, R138
  | launchComplete  -- LAUNCH_COMPLETE, R155
  | groupEvict  -- GROUP_EVICT, R159
  | groupReplace  -- GROUP_REPLACE, R159
  | deferredFault  -- DEFERRED_FAULT, R359
  | takePendingTrap  -- TAKE_PENDING_TRAP, R359
  | haltRecordTimeout  -- HALT_RECORD_TIMEOUT, R370
  | yieldExpiry  -- YIELD_EXPIRY, R378
  | preemptHalt  -- PREEMPT_HALT, R374
  | groupRestore  -- GROUP_RESTORE, R376
  | correctedError  -- CORRECTED_ERROR, R382
  | spareMove  -- SPARE_MOVE, R383
  | lastingContainment  -- LASTING_CONTAINMENT, R433
  | uncorrectableError  -- UNCORRECTABLE_ERROR, R384
  | pageRequestRoom  -- PAGE_REQUEST_ROOM, R407
  | pageReply  -- PAGE_REPLY, R393
  | shootdown  -- SHOOTDOWN, R394
  | shootdownAck  -- SHOOTDOWN_ACK, R394
  | pageHomeMove  -- PAGE_HOME_MOVE, R396
  | hostWrite  -- HOST_WRITE, R215
  | hostRead  -- HOST_READ, R406
  | hostSnoop  -- HOST_SNOOP, R406
  | pcieInbound  -- PCIE_INBOUND, R408
  | fabricRequest  -- FABRIC_REQUEST, R414
  | fabricResponse  -- FABRIC_RESPONSE, R414
  | sendWindowRoom  -- SEND_WINDOW_ROOM, R415
  | fabricTimeout  -- FABRIC_TIMEOUT, R417
  | fabricPathLoss  -- FABRIC_PATH_LOSS, R417
  | arrivalWindowWrite  -- ARRIVAL_WINDOW_WRITE, R412
  | notifyWrite  -- NOTIFY_WRITE, R421
  | launchIdFree  -- LAUNCH_ID_FREE, R424
  | launchEndDone  -- LAUNCH_END_DONE, R425
  | doneRingRecheck  -- DONE_RING_RECHECK, R426
  | moduleReset  -- MODULE_RESET, R435
  | attestationRequest  -- ATTESTATION_REQUEST, R437
  | powerStateRequest  -- POWER_STATE_REQUEST, R438
  | powerLoss  -- POWER_LOSS, R438
  | fetchFault  -- FETCH_FAULT, R188
  | lostHostLink  -- LOST_HOST_LINK, R406
  | gridPassEnd  -- GRID_PASS_END, R290
  deriving DecidableEq, Repr

end Sys2Proof
end

