-- ==== Sys2Proof/WellFormed.lean ====
section
/-! DEFINITION. Which terms of `Instr` stand for an encoding (02 R36 to R52): operand numbers that their specifier can hold,
and the modifier bits that tell rows of one opcode apart. What an instruction accepts beyond that (02 R44, R58) is
`Instr.legal` in Decode.lean. -/

namespace Sys2Proof

/-- An operand that a 10-bit specifier can name (02 R46): code 0x0FF is the zero code, not v255. -/
def Opnd.wf10 : Opnd → Bool
  | .v n => n != 255#8
  | _ => true

/-- An operand that a 7-bit specifier can name (02 R45). -/
def Opnd.wf7 : Opnd → Bool
  | .v n => n.ult 96#8
  | .k n => n.ult 16#8
  | .litLo | .litHi | .imm _ => false
  | _ => true

def C3.wf (x : C3) : Bool := x.d.wf7 && x.a.wf7 && x.b.wf7
def CI.wf (x : CI) : Bool := x.d.wf7 && x.a.wf7
def Ops4.wf (x : Ops4) : Bool := x.d.wf10 && x.a.wf10 && x.b.wf10 && x.c.wf10

def AForm.wf : AForm → Bool
  | .wide x => x.toOps4.wf
  | .c3 x _ => x.wf

def MForm.wf : MForm → Bool
  | .wide x => x.toOps4.wf
  | .ci x _ => x.wf

/-- The type code of 02 R43. -/
def Ty.code : Ty → BitVec 5
  | .b32 => 0x00 | .i32 => 0x01 | .n32 => 0x02 | .f32 => 0x03 | .f16 => 0x04 | .bf16 => 0x05
  | .b64 => 0x06 | .i64 => 0x07 | .n64 => 0x08 | .f64 => 0x09 | .tf32 => 0x0A | .b16 => 0x0B
  | .b8 => 0x0C | .i8 => 0x0D | .n8 => 0x0E | .b128 => 0x0F | .e4m3 => 0x10 | .e5m2 => 0x11
  | .e3m2 => 0x12 | .e2m3 => 0x13 | .e2m1 => 0x14 | .i4 => 0x15

def Half.wf (h : Half) : Bool :=
  h.d.wf7 && h.a.wf7 && h.b.wf7 && h.c.wf7 && h.ty.code.ult 16#5

def Pair.wf (x : Pair) : Bool := x.h0.wf && x.h1.wf

/-- Reserved major opcodes of 02 R56, the Merhal extensions and 0x00 and 0xFF among them. -/
def reservedOp (op : BitVec 8) : Bool :=
  let n := op.toNat
  n == 0 || (0x28 ≤ n && n < 0x40) || (0x51 ≤ n && n < 0x60) || (0x6A ≤ n && n < 0x70) || (0x7A ≤ n && n < 0x80)
    || (0x9A ≤ n && n < 0xB0) || n == 0xBF || (0xC8 ≤ n && n < 0xD0) || (0xDC ≤ n && n < 0xE0)
    || (0xE9 ≤ n && n < 0xFC) || 0xFD ≤ n

/-- Number of 32-bit words of an encoding, the literal included, by bits [1:0] of word 0 (02 R34). -/
def lengthWords (w0 : Word) : Nat :=
  match w0 &&& 3#32 with
  | 0#32 => 1
  | 3#32 => 5
  | _ => 3

/-- The device's own steps: constructors that no encoding names. -/
def Instr.isStep : Instr → Bool
  | .threadEnd => true
  | .loadComplete => true
  | .storeComplete => true
  | .releaseWritePerform => true
  | .writePerform => true
  | .keyReadyTimeout => true
  | .keyAgeExpiry => true
  | .spawnPoolRoom => true
  | .poolInsertDeferred => true
  | .binTimerExpiry => true
  | .spawnedGroupStart => true
  | .flagwordOr => true
  | .copyProgress => true
  | .copyRetire => true
  | .copyFault => true
  | .sresetDone => true
  | .takeDone => true
  | .queueWaitServed => true
  | .unhitchComplete => true
  | .bloadRetire => true
  | .bloadFault => true
  | .gridOpRetire => true
  | .gridOpFault => true
  | .accCmdRetire => true
  | .harnessDrain => true
  | .harnessRestore => true
  | .traversalRoom => true
  | .intersectionProgramStart => true
  | .programBudgetExpiry => true
  | .rayWalkEnd => true
  | .pairEmit => true
  | .pairWalkEnd => true
  | .isloadApply => true
  | .sgOpen => true
  | .sgEvent => true
  | .sgTimerExpiry => true
  | .sgCloseDone => true
  | .sgElapsedWrite => true
  | .gangPlace => true
  | .gangWaitExpiry => true
  | .groupFree => true
  | .launchComplete => true
  | .groupEvict => true
  | .groupReplace => true
  | .deferredFault => true
  | .takePendingTrap => true
  | .haltRecordTimeout => true
  | .yieldExpiry => true
  | .preemptHalt => true
  | .groupRestore => true
  | .correctedError => true
  | .spareMove => true
  | .lastingContainment => true
  | .uncorrectableError => true
  | .pageRequestRoom => true
  | .pageReply => true
  | .shootdown => true
  | .shootdownAck => true
  | .pageHomeMove => true
  | .hostWrite => true
  | .hostRead => true
  | .hostSnoop => true
  | .pcieInbound => true
  | .fabricRequest => true
  | .fabricResponse => true
  | .sendWindowRoom => true
  | .fabricTimeout => true
  | .fabricPathLoss => true
  | .arrivalWindowWrite => true
  | .notifyWrite => true
  | .launchIdFree => true
  | .launchEndDone => true
  | .doneRingRecheck => true
  | .moduleReset => true
  | .attestationRequest => true
  | .powerStateRequest => true
  | .powerLoss => true
  | .fetchFault => true
  | .lostHostLink => true
  | .gridPassEnd => true
  | _ => false

/-- A term that stands for an encoding. -/
def Instr.wf : Instr → Bool
  | .mov x => x.wf
  | .mov96 x => x.wf
  | .sel x => x.toOps4.wf
  | .add x => x.wf
  | .add96 x => x.wf
  | .sub x => x.wf
  | .sub96 x => x.wf
  | .neg x => x.wf
  | .neg96 x => x.wf
  | .abs x => x.wf
  | .abs96 x => x.wf
  | .min x => x.wf
  | .min96 x => x.wf
  | .max x => x.wf
  | .max96 x => x.wf
  | .mul x => x.wf
  | .mul96 x => x.wf
  | .mulhi x => x.wf
  | .mulhi96 x => x.wf
  | .mad x => x.wf
  | .mad96 x => x.wf
  | .madw x => x.toOps4.wf
  | .div x => x.wf
  | .div96 x => x.wf
  | .rem x => x.wf
  | .rem96 x => x.wf
  | .sad x => x.toOps4.wf
  | .and x => x.wf
  | .and96 x => x.wf
  | .or x => x.wf
  | .or96 x => x.wf
  | .xor x => x.wf
  | .xor96 x => x.wf
  | .not x => x.wf
  | .not96 x => x.wf
  | .andn x => x.wf
  | .andn96 x => x.wf
  | .lop x => x.toOps4.wf
  | .shl x => x.wf
  | .shl96 x => x.wf
  | .shr x => x.wf
  | .shr96 x => x.wf
  | .sar x => x.wf
  | .sar96 x => x.wf
  | .rol x => x.wf
  | .rol96 x => x.wf
  | .ror x => x.wf
  | .ror96 x => x.wf
  | .bfx x => x.toOps4.wf
  | .bfins x => x.toOps4.wf
  | .popc x => x.wf
  | .popc96 x => x.wf
  | .clz x => x.wf
  | .clz96 x => x.wf
  | .ctz x => x.wf
  | .ctz96 x => x.wf
  | .brev x => x.wf
  | .brev96 x => x.wf
  | .revb x => x.wf
  | .revb96 x => x.wf
  | .cmp x => x.toOps4.wf
  | .plop x => x.toOps4.wf
  | .pmov x => x.toOps4.wf
  | .lea x => x.toOps4.wf
  | .icvt x => x.toOps4.wf
  | .clamp x => x.toOps4.wf
  | .fadd x => x.wf
  | .fadd96 x => x.wf
  | .fsub x => x.wf
  | .fsub96 x => x.wf
  | .fmul x => x.wf
  | .fmul96 x => x.wf
  | .ffma x => x.wf
  | .ffma96 x => x.wf
  | .fmin x => x.wf
  | .fmin96 x => x.wf
  | .fmax x => x.wf
  | .fmax96 x => x.wf
  | .fabs x => x.wf
  | .fabs96 x => x.wf
  | .fneg x => x.wf
  | .fneg96 x => x.wf
  | .fcmp x => x.toOps4.wf
  | .fclass x => x.toOps4.wf
  | .fdiv x => x.toOps4.wf
  | .fsqrt x => x.toOps4.wf
  | .cvt x => x.toOps4.wf
  | .cvtfi x => x.toOps4.wf
  | .cvtif x => x.toOps4.wf
  | .frnd x => x.toOps4.wf
  | .fscale x => x.toOps4.wf
  | .bra _ => true
  | .bra96 x => x.toOps4.wf
  | .call _ => true
  | .call96 x => x.toOps4.wf
  | .jmp x => x.wf
  | .jmp96 x => x.wf
  | .calli x => x.wf
  | .calli96 x => x.wf
  | .ret x => x.wf
  | .ret96 x => x.wf
  | .exit x => x.wf
  | .exit96 x => x.toOps4.wf
  | .threadEnd => true
  | .brk x => x.toOps4.wf
  | .svc x => x.wf
  | .svc96 x => x.toOps4.wf
  | .wait x => x.toOps4.wf
  | .nop x => x.wf
  | .nop96 x => x.toOps4.wf
  | .ld x => x.wf
  | .ld96 x => x.wf
  | .st x => x.wf
  | .st96 x => x.wf
  | .loadComplete => true
  | .storeComplete => true
  | .releaseWritePerform => true
  | .writePerform => true
  | .movs x => x.toOps4.wf
  | .sets x => x.toOps4.wf && x.w2.extractLsb' 0 12 != 0x011#12
  | .sxTimeWrite x => x.toOps4.wf && x.w2.extractLsb' 0 12 == 0x011#12
  | .pair x => x.wf
  | .keyReadyTimeout => true
  | .keyAgeExpiry => true
  | .join x => x.toOps4.wf
  | .lead x => x.toOps4.wf
  | .spawn x => x.toOps4.wf
  | .spawnPoolRoom => true
  | .poolInsertDeferred => true
  | .binTimerExpiry => true
  | .spawnedGroupStart => true
  | .bar x => x.toOps4.wf
  | .xch x => x.toOps4.wf
  | .xlred x => x.toOps4.wf
  | .xlscan x => x.toOps4.wf
  | .ballot x => x.toOps4.wf
  | .quorum x => x.toOps4.wf
  | .peer x => x.toOps4.wf
  | .hadd x => x.wf
  | .hadd96 x => x.wf
  | .hmul x => x.wf
  | .hmul96 x => x.wf
  | .hfma x => x.wf
  | .hfma96 x => x.wf
  | .hmin x => x.toOps4.wf && x.mod8 == 0#8
  | .hmax x => x.toOps4.wf && x.mod8 == 1#8
  | .dot x => x.toOps4.wf
  | .rcp x => x.wf
  | .rcp96 x => x.wf
  | .rsq x => x.wf
  | .rsq96 x => x.wf
  | .ex2 x => x.wf
  | .ex296 x => x.wf
  | .lg2 x => x.wf
  | .lg296 x => x.wf
  | .sin x => x.wf
  | .sin96 x => x.wf
  | .cos x => x.wf
  | .cos96 x => x.wf
  | .tanh x => x.wf
  | .tanh96 x => x.wf
  | .pack x => x.toOps4.wf
  | .unpk x => x.toOps4.wf
  | .qblk x => x.toOps4.wf
  | .edge x => x.toOps4.wf
  | .ldmx x => x.toOps4.wf
  | .atom x => x.toOps4.wf
  | .red x => x.toOps4.wf
  | .flagwordOr => true
  | .fence x => x.toOps4.wf
  | .ifence x => x.toOps4.wf
  | .cwb x => x.toOps4.wf
  | .cinval x => x.toOps4.wf
  | .pref x => x.toOps4.wf
  | .cpy x => x.toOps4.wf
  | .cpyt x => x.toOps4.wf
  | .copyProgress => true
  | .copyRetire => true
  | .copyFault => true
  | .slotarm x => x.toOps4.wf
  | .sarrive x => x.toOps4.wf
  | .sacq x => x.toOps4.wf
  | .swait x => x.toOps4.wf
  | .sfirst x => x.toOps4.wf
  | .sreset x => x.toOps4.wf
  | .sresetDone => true
  | .ondone x => x.toOps4.wf
  | .give x => x.toOps4.wf
  | .take x => x.toOps4.wf
  | .takeDone => true
  | .qinit x => x.toOps4.wf
  | .qpush x => x.toOps4.wf
  | .qpop x => x.toOps4.wf
  | .qtryPush x => x.toOps4.wf && !x.w2.getLsbD 3
  | .qtryPop x => x.toOps4.wf && x.w2.getLsbD 3
  | .queueWaitServed => true
  | .hitch x => x.toOps4.wf
  | .unhitch x => x.toOps4.wf
  | .unhitchComplete => true
  | .bload x => x.toOps4.wf
  | .bloadRetire => true
  | .bloadFault => true
  | .bswap x => x.toOps4.wf
  | .mma x => x.toOps4.wf
  | .gridOpRetire => true
  | .gridOpFault => true
  | .accz x => x.toOps4.wf
  | .accld x => x.toOps4.wf
  | .accst x => x.toOps4.wf
  | .accCmdRetire => true
  | .harnessDrain => true
  | .harnessRestore => true
  | .trace x => x.toOps4.wf
  | .pairs x => x.toOps4.wf
  | .traversalRoom => true
  | .intersectionProgramStart => true
  | .programBudgetExpiry => true
  | .rayWalkEnd => true
  | .pairEmit => true
  | .pairWalkEnd => true
  | .isload x => x.toOps4.wf
  | .isloadApply => true
  | .isray x => x.toOps4.wf
  | .iscand x => x.toOps4.wf
  | .isacc x => x.toOps4.wf
  | .isrej x => x.toOps4.wf
  | .isend x => x.toOps4.wf
  | .sgfork x => x.toOps4.wf
  | .sgOpen => true
  | .sgpost x => x.toOps4.wf
  | .sgcancel x => x.toOps4.wf && !x.w2.getLsbD 0
  | .sgcancelAll x => x.toOps4.wf && x.w2.getLsbD 0
  | .sgstat x => x.toOps4.wf
  | .sgEvent => true
  | .sgTimerExpiry => true
  | .sgCloseDone => true
  | .sgElapsedWrite => true
  | .gangPlace => true
  | .gangWaitExpiry => true
  | .groupFree => true
  | .launchComplete => true
  | .groupEvict => true
  | .groupReplace => true
  | .deferredFault => true
  | .takePendingTrap => true
  | .haltRecordTimeout => true
  | .rte x => x.toOps4.wf
  | .movix x => x.toOps4.wf
  | .setix x => x.toOps4.wf
  | .regionOpen x => x.toOps4.wf && !x.w2.getLsbD 0
  | .regionClose x => x.toOps4.wf && x.w2.getLsbD 0
  | .yield x => x.toOps4.wf
  | .yieldExpiry => true
  | .preemptHalt => true
  | .groupRestore => true
  | .correctedError => true
  | .spareMove => true
  | .lastingContainment => true
  | .uncorrectableError => true
  | .pageRequestRoom => true
  | .pageReply => true
  | .shootdown => true
  | .shootdownAck => true
  | .pageHomeMove => true
  | .hostWrite => true
  | .hostRead => true
  | .hostSnoop => true
  | .pcieInbound => true
  | .fabricRequest => true
  | .fabricResponse => true
  | .sendWindowRoom => true
  | .fabricTimeout => true
  | .fabricPathLoss => true
  | .arrivalWindowWrite => true
  | .notifyWrite => true
  | .qwait x => x.toOps4.wf
  | .launchStart x => x.toOps4.wf && x.w2.extractLsb' 0 3 == 0#3
  | .launchReply x => x.toOps4.wf && x.w2.extractLsb' 0 3 == 1#3
  | .launchPreempt x => x.toOps4.wf && x.w2.extractLsb' 0 3 == 2#3
  | .launchResume x => x.toOps4.wf && x.w2.extractLsb' 0 3 == 3#3
  | .launchEnd x => x.toOps4.wf && x.w2.extractLsb' 0 3 == 4#3
  | .launchBind x => x.toOps4.wf && x.w2.extractLsb' 0 3 == 5#3
  | .launchIdFree => true
  | .launchEndDone => true
  | .doneRingRecheck => true
  | .moduleReset => true
  | .attestationRequest => true
  | .powerStateRequest => true
  | .powerLoss => true
  | .illegalOpcode ws => match ws with
    | w0 :: _ => ws.length == lengthWords w0 && reservedOp (w0.extractLsb' 2 8)
    | [] => false
  | .fetchFault => true
  | .lostHostLink => true
  | .gridPassEnd => true

end Sys2Proof
end

