-- ==== Sys2Proof/Decode.lean ====
section
/-! DEFINITION. Decoding and encoding (02 R33 to R59). `parse` reads the fields of an encoding, `Instr.legal` makes the checks of
R44, R48, R49, R54 and R58 that depend on the words alone, `decode` is both; `encode` writes the words back. `Instr.uses`
says what each operand specifier of an instruction is, at which width: the static checks, the run-time checks of R15,
R14 and R51 and the stall of 01 R29 all read it. -/

namespace Sys2Proof

/-- Why an encoding raises ILLEGAL at decode (02 R58). -/
inductive Illegal where
  | short          -- fewer words than the length bits ask for
  | noCompact      -- a compact encoding of an opcode that has none, or a literal on a CB word
  | field          -- a reserved specifier, selector or type, or a non-zero field the layout fixes
  | check          -- a value that the instruction does not accept (R44, R48, R49, R54)
  deriving DecidableEq, Repr

/-- Bits hi..lo of a word as a bit vector of n = hi - lo + 1 bits. -/
def bits (w : Word) (lo n : Nat) : BitVec n := w.extractLsb' lo n

def spec7 (c : BitVec 7) : Option Opnd :=
  let n := c.toNat
  if n < 96 then some (.v (BitVec.ofNat 8 n))
  else if n < 112 then some (.k (BitVec.ofNat 8 (n - 96)))
  else if n < 120 then some (.o (BitVec.ofNat 3 (n - 112)))
  else if n == 120 then some .y0
  else if n == 121 then some .y1
  else if n == 122 then some .zero
  else if n == 123 then some .lit
  else none

def enc7 : Opnd → BitVec 7
  | .v n => n.setWidth 7
  | .k n => BitVec.ofNat 7 (96 + n.toNat)
  | .o n => BitVec.ofNat 7 (112 + n.toNat)
  | .y0 => 120 | .y1 => 121 | .zero => 122 | .lit => 123
  | .litLo | .litHi | .imm _ => 127

def spec10 (c : BitVec 10) : Option Opnd :=
  let n := c.toNat
  if n == 0xFF then some .zero
  else if n < 0x100 then some (.v (c.setWidth 8))
  else if n < 0x200 then some (.k (c.setWidth 8))
  else if n < 0x208 then some (.o (c.setWidth 3))
  else if n == 0x208 then some .y0
  else if n == 0x209 then some .y1
  else if n == 0x210 then some .litLo
  else if n == 0x211 then some .lit
  else if n == 0x212 then some .litHi
  else if n < 0x300 then none
  else some (.imm (c.setWidth 8))

def enc10 : Opnd → BitVec 10
  | .zero => 0x0FF
  | .v n => n.setWidth 10
  | .k n => 0x100 + n.setWidth 10
  | .o n => 0x200 + n.setWidth 10
  | .y0 => 0x208 | .y1 => 0x209
  | .litLo => 0x210 | .lit => 0x211 | .litHi => 0x212
  | .imm b => 0x300 + b.setWidth 10

/-- The type of a code of 02 R43. -/
def Ty.ofCode (c : BitVec 5) : Option Ty :=
  match c.toNat with
  | 0x00 => some .b32 | 0x01 => some .i32 | 0x02 => some .n32 | 0x03 => some .f32 | 0x04 => some .f16 | 0x05 => some .bf16
  | 0x06 => some .b64 | 0x07 => some .i64 | 0x08 => some .n64 | 0x09 => some .f64 | 0x0A => some .tf32 | 0x0B => some .b16
  | 0x0C => some .b8 | 0x0D => some .i8 | 0x0E => some .n8 | 0x0F => some .b128 | 0x10 => some .e4m3 | 0x11 => some .e5m2
  | 0x12 => some .e3m2 | 0x13 => some .e2m3 | 0x14 => some .e2m1 | 0x15 => some .i4 | _ => none

/-- An encoding's format with its fields: what `parse` reads and `encode` writes. -/
inductive Fields where
  | c3 (x : C3) (lit : Option Dword)
  | ci (x : CI) (lit : Option Dword)
  | cb (x : CB)
  | arith (x : Arith)
  | mem (x : Memf)
  | desc (x : Desc)
  | pair (x : Pair)
  deriving DecidableEq, Repr

/-- The row of a compact C3 encoding (02 R39, R56), with or without a literal. -/
def ofC3 (op : Nat) (x : C3) (lit : Option Dword) : Option Instr :=
  match op, lit with
  | 0x01, none => some (.mov x)
  | 0x01, some l => some (.mov96 (.c3 x l))
  | 0x03, none => some (.add x)
  | 0x03, some l => some (.add96 (.c3 x l))
  | 0x04, none => some (.sub x)
  | 0x04, some l => some (.sub96 (.c3 x l))
  | 0x05, none => some (.neg x)
  | 0x05, some l => some (.neg96 (.c3 x l))
  | 0x06, none => some (.abs x)
  | 0x06, some l => some (.abs96 (.c3 x l))
  | 0x07, none => some (.min x)
  | 0x07, some l => some (.min96 (.c3 x l))
  | 0x08, none => some (.max x)
  | 0x08, some l => some (.max96 (.c3 x l))
  | 0x09, none => some (.mul x)
  | 0x09, some l => some (.mul96 (.c3 x l))
  | 0x0A, none => some (.mulhi x)
  | 0x0A, some l => some (.mulhi96 (.c3 x l))
  | 0x0B, none => some (.mad x)
  | 0x0B, some l => some (.mad96 (.c3 x l))
  | 0x0D, none => some (.div x)
  | 0x0D, some l => some (.div96 (.c3 x l))
  | 0x0E, none => some (.rem x)
  | 0x0E, some l => some (.rem96 (.c3 x l))
  | 0x10, none => some (.and x)
  | 0x10, some l => some (.and96 (.c3 x l))
  | 0x11, none => some (.or x)
  | 0x11, some l => some (.or96 (.c3 x l))
  | 0x12, none => some (.xor x)
  | 0x12, some l => some (.xor96 (.c3 x l))
  | 0x13, none => some (.not x)
  | 0x13, some l => some (.not96 (.c3 x l))
  | 0x14, none => some (.andn x)
  | 0x14, some l => some (.andn96 (.c3 x l))
  | 0x16, none => some (.shl x)
  | 0x16, some l => some (.shl96 (.c3 x l))
  | 0x17, none => some (.shr x)
  | 0x17, some l => some (.shr96 (.c3 x l))
  | 0x18, none => some (.sar x)
  | 0x18, some l => some (.sar96 (.c3 x l))
  | 0x19, none => some (.rol x)
  | 0x19, some l => some (.rol96 (.c3 x l))
  | 0x1A, none => some (.ror x)
  | 0x1A, some l => some (.ror96 (.c3 x l))
  | 0x1D, none => some (.popc x)
  | 0x1D, some l => some (.popc96 (.c3 x l))
  | 0x1E, none => some (.clz x)
  | 0x1E, some l => some (.clz96 (.c3 x l))
  | 0x1F, none => some (.ctz x)
  | 0x1F, some l => some (.ctz96 (.c3 x l))
  | 0x20, none => some (.brev x)
  | 0x20, some l => some (.brev96 (.c3 x l))
  | 0x21, none => some (.revb x)
  | 0x21, some l => some (.revb96 (.c3 x l))
  | 0x40, none => some (.fadd x)
  | 0x40, some l => some (.fadd96 (.c3 x l))
  | 0x41, none => some (.fsub x)
  | 0x41, some l => some (.fsub96 (.c3 x l))
  | 0x42, none => some (.fmul x)
  | 0x42, some l => some (.fmul96 (.c3 x l))
  | 0x43, none => some (.ffma x)
  | 0x43, some l => some (.ffma96 (.c3 x l))
  | 0x44, none => some (.fmin x)
  | 0x44, some l => some (.fmin96 (.c3 x l))
  | 0x45, none => some (.fmax x)
  | 0x45, some l => some (.fmax96 (.c3 x l))
  | 0x46, none => some (.fabs x)
  | 0x46, some l => some (.fabs96 (.c3 x l))
  | 0x47, none => some (.fneg x)
  | 0x47, some l => some (.fneg96 (.c3 x l))
  | 0x62, none => some (.jmp x)
  | 0x62, some l => some (.jmp96 (.c3 x l))
  | 0x63, none => some (.calli x)
  | 0x63, some l => some (.calli96 (.c3 x l))
  | 0x64, none => some (.ret x)
  | 0x64, some l => some (.ret96 (.c3 x l))
  | 0x65, none => some (.exit x)
  | 0x69, none => some (.nop x)
  | 0x80, none => some (.hadd x)
  | 0x80, some l => some (.hadd96 (.c3 x l))
  | 0x81, none => some (.hmul x)
  | 0x81, some l => some (.hmul96 (.c3 x l))
  | 0x82, none => some (.hfma x)
  | 0x82, some l => some (.hfma96 (.c3 x l))
  | 0x85, none => some (.rcp x)
  | 0x85, some l => some (.rcp96 (.c3 x l))
  | 0x86, none => some (.rsq x)
  | 0x86, some l => some (.rsq96 (.c3 x l))
  | 0x87, none => some (.ex2 x)
  | 0x87, some l => some (.ex296 (.c3 x l))
  | 0x88, none => some (.lg2 x)
  | 0x88, some l => some (.lg296 (.c3 x l))
  | 0x89, none => some (.sin x)
  | 0x89, some l => some (.sin96 (.c3 x l))
  | 0x8A, none => some (.cos x)
  | 0x8A, some l => some (.cos96 (.c3 x l))
  | 0x8B, none => some (.tanh x)
  | 0x8B, some l => some (.tanh96 (.c3 x l))
  | _, _ => none

def ofCI (op : Nat) (x : CI) (lit : Option Dword) : Option Instr :=
  match op, lit with
  | 0x90, none => some (.ld x)
  | 0x90, some l => some (.ld96 (.ci x l))
  | 0x91, none => some (.st x)
  | 0x91, some l => some (.st96 (.ci x l))
  | 0x67, none => some (.svc x)
  | _, _ => none

def ofCB (op : Nat) (x : CB) : Option Instr :=
  match op with
  | 0x60 => some (.bra x)
  | 0x61 => some (.call x)
  | _ => none

/-- The row of an arithmetic-form encoding (02 R44: the form selector follows the class). -/
def ofArith (op : Nat) (x : Arith) : Option Instr :=
  match op with
  | 0x01 => some (.mov96 (.wide x))
  | 0x02 => some (.sel x)
  | 0x03 => some (.add96 (.wide x))
  | 0x04 => some (.sub96 (.wide x))
  | 0x05 => some (.neg96 (.wide x))
  | 0x06 => some (.abs96 (.wide x))
  | 0x07 => some (.min96 (.wide x))
  | 0x08 => some (.max96 (.wide x))
  | 0x09 => some (.mul96 (.wide x))
  | 0x0A => some (.mulhi96 (.wide x))
  | 0x0B => some (.mad96 (.wide x))
  | 0x0C => some (.madw x)
  | 0x0D => some (.div96 (.wide x))
  | 0x0E => some (.rem96 (.wide x))
  | 0x0F => some (.sad x)
  | 0x10 => some (.and96 (.wide x))
  | 0x11 => some (.or96 (.wide x))
  | 0x12 => some (.xor96 (.wide x))
  | 0x13 => some (.not96 (.wide x))
  | 0x14 => some (.andn96 (.wide x))
  | 0x15 => some (.lop x)
  | 0x16 => some (.shl96 (.wide x))
  | 0x17 => some (.shr96 (.wide x))
  | 0x18 => some (.sar96 (.wide x))
  | 0x19 => some (.rol96 (.wide x))
  | 0x1A => some (.ror96 (.wide x))
  | 0x1B => some (.bfx x)
  | 0x1C => some (.bfins x)
  | 0x1D => some (.popc96 (.wide x))
  | 0x1E => some (.clz96 (.wide x))
  | 0x1F => some (.ctz96 (.wide x))
  | 0x20 => some (.brev96 (.wide x))
  | 0x21 => some (.revb96 (.wide x))
  | 0x22 => some (.cmp x)
  | 0x23 => some (.plop x)
  | 0x24 => some (.pmov x)
  | 0x25 => some (.lea x)
  | 0x26 => some (.icvt x)
  | 0x27 => some (.clamp x)
  | 0x40 => some (.fadd96 (.wide x))
  | 0x41 => some (.fsub96 (.wide x))
  | 0x42 => some (.fmul96 (.wide x))
  | 0x43 => some (.ffma96 (.wide x))
  | 0x44 => some (.fmin96 (.wide x))
  | 0x45 => some (.fmax96 (.wide x))
  | 0x46 => some (.fabs96 (.wide x))
  | 0x47 => some (.fneg96 (.wide x))
  | 0x48 => some (.fcmp x)
  | 0x49 => some (.fclass x)
  | 0x4A => some (.fdiv x)
  | 0x4B => some (.fsqrt x)
  | 0x4C => some (.cvt x)
  | 0x4D => some (.cvtfi x)
  | 0x4E => some (.cvtif x)
  | 0x4F => some (.frnd x)
  | 0x50 => some (.fscale x)
  | 0x62 => some (.jmp96 (.wide x))
  | 0x63 => some (.calli96 (.wide x))
  | 0x64 => some (.ret96 (.wide x))
  | 0x65 => some (.exit96 x)
  | 0x66 => some (.brk x)
  | 0x67 => some (.svc96 x)
  | 0x69 => some (.nop96 x)
  | 0x70 => some (.join x)
  | 0x71 => some (.lead x)
  | 0x72 => some (.spawn x)
  | 0x73 => some (.bar x)
  | 0x74 => some (.xch x)
  | 0x75 => some (.xlred x)
  | 0x76 => some (.xlscan x)
  | 0x77 => some (.ballot x)
  | 0x78 => some (.quorum x)
  | 0x79 => some (.peer x)
  | 0x80 => some (.hadd96 (.wide x))
  | 0x81 => some (.hmul96 (.wide x))
  | 0x82 => some (.hfma96 (.wide x))
  | 0x83 => if x.mod8 == 0#8 then some (.hmin x) else if x.mod8 == 1#8 then some (.hmax x) else none
  | 0x84 => some (.dot x)
  | 0x85 => some (.rcp96 (.wide x))
  | 0x86 => some (.rsq96 (.wide x))
  | 0x87 => some (.ex296 (.wide x))
  | 0x88 => some (.lg296 (.wide x))
  | 0x89 => some (.sin96 (.wide x))
  | 0x8A => some (.cos96 (.wide x))
  | 0x8B => some (.tanh96 (.wide x))
  | 0x8C => some (.pack x)
  | 0x8D => some (.unpk x)
  | 0x8E => some (.qblk x)
  | 0x8F => some (.edge x)
  | 0x96 => some (.ifence x)
  | _ => none

/-- The row of a memory-form encoding. -/
def ofMem (op : Nat) (x : Memf) : Option Instr :=
  match op with
  | 0x90 => some (.ld96 (.wide x))
  | 0x91 => some (.st96 (.wide x))
  | 0x92 => some (.ldmx x)
  | 0x93 => some (.atom x)
  | 0x94 => some (.red x)
  | 0x95 => some (.fence x)
  | 0x97 => some (.cwb x)
  | 0x98 => some (.cinval x)
  | 0x99 => some (.pref x)
  | _ => none

/-- The row of a descriptor-form encoding; rows that share an opcode are told apart by word 2. -/
def ofDesc (op : Nat) (x : Desc) : Option Instr :=
  match op with
  | 0x60 => some (.bra96 x)
  | 0x61 => some (.call96 x)
  | 0x68 => some (.wait x)
  | 0xE0 => some (.movs x)
  | 0xE1 => if x.w2.extractLsb' 0 12 == 0x011#12 then some (.sxTimeWrite x) else some (.sets x)
  | 0xB0 => some (.cpy x)
  | 0xB1 => some (.cpyt x)
  | 0xB2 => some (.slotarm x)
  | 0xB3 => some (.sarrive x)
  | 0xB4 => some (.sacq x)
  | 0xB5 => some (.swait x)
  | 0xB6 => some (.sfirst x)
  | 0xB7 => some (.sreset x)
  | 0xB8 => some (.ondone x)
  | 0xB9 => some (.give x)
  | 0xBA => some (.take x)
  | 0xBB => some (.qinit x)
  | 0xBC => some (.qpush x)
  | 0xBD => some (.qpop x)
  | 0xBE => if x.w2.getLsbD 3 then some (.qtryPop x) else some (.qtryPush x)
  | 0xC0 => some (.hitch x)
  | 0xC1 => some (.unhitch x)
  | 0xC2 => some (.bload x)
  | 0xC3 => some (.bswap x)
  | 0xC4 => some (.mma x)
  | 0xC5 => some (.accz x)
  | 0xC6 => some (.accld x)
  | 0xC7 => some (.accst x)
  | 0xD0 => some (.trace x)
  | 0xD1 => some (.pairs x)
  | 0xD2 => some (.isload x)
  | 0xD3 => some (.isray x)
  | 0xD4 => some (.iscand x)
  | 0xD5 => some (.isacc x)
  | 0xD6 => some (.isrej x)
  | 0xD7 => some (.isend x)
  | 0xD8 => some (.sgfork x)
  | 0xD9 => some (.sgpost x)
  | 0xDA => if x.w2.getLsbD 0 then some (.sgcancelAll x) else some (.sgcancel x)
  | 0xDB => some (.sgstat x)
  | 0xE2 => some (.rte x)
  | 0xE3 => some (.movix x)
  | 0xE4 => some (.setix x)
  | 0xE5 => if x.w2.getLsbD 0 then some (.regionClose x) else some (.regionOpen x)
  | 0xE6 => some (.yield x)
  | 0xE8 => some (.qwait x)
  | 0xE7 => match x.w2.extractLsb' 0 3 with
    | 0#3 => some (.launchStart x) | 1#3 => some (.launchReply x) | 2#3 => some (.launchPreempt x)
    | 3#3 => some (.launchResume x) | 4#3 => some (.launchEnd x) | 5#3 => some (.launchBind x) | _ => none
  | _ => none

/-- The major opcode and the fields of an encoded instruction; none for a step and for reserved opcodes. -/
def Instr.fields : Instr → Option (Nat × Fields)
  | .mov x => some (0x01, .c3 x none)
  | .mov96 (.wide x) => some (0x01, .arith x)
  | .mov96 (.c3 x l) => some (0x01, .c3 x (some l))
  | .sel x => some (0x02, .arith x)
  | .add x => some (0x03, .c3 x none)
  | .add96 (.wide x) => some (0x03, .arith x)
  | .add96 (.c3 x l) => some (0x03, .c3 x (some l))
  | .sub x => some (0x04, .c3 x none)
  | .sub96 (.wide x) => some (0x04, .arith x)
  | .sub96 (.c3 x l) => some (0x04, .c3 x (some l))
  | .neg x => some (0x05, .c3 x none)
  | .neg96 (.wide x) => some (0x05, .arith x)
  | .neg96 (.c3 x l) => some (0x05, .c3 x (some l))
  | .abs x => some (0x06, .c3 x none)
  | .abs96 (.wide x) => some (0x06, .arith x)
  | .abs96 (.c3 x l) => some (0x06, .c3 x (some l))
  | .min x => some (0x07, .c3 x none)
  | .min96 (.wide x) => some (0x07, .arith x)
  | .min96 (.c3 x l) => some (0x07, .c3 x (some l))
  | .max x => some (0x08, .c3 x none)
  | .max96 (.wide x) => some (0x08, .arith x)
  | .max96 (.c3 x l) => some (0x08, .c3 x (some l))
  | .mul x => some (0x09, .c3 x none)
  | .mul96 (.wide x) => some (0x09, .arith x)
  | .mul96 (.c3 x l) => some (0x09, .c3 x (some l))
  | .mulhi x => some (0x0A, .c3 x none)
  | .mulhi96 (.wide x) => some (0x0A, .arith x)
  | .mulhi96 (.c3 x l) => some (0x0A, .c3 x (some l))
  | .mad x => some (0x0B, .c3 x none)
  | .mad96 (.wide x) => some (0x0B, .arith x)
  | .mad96 (.c3 x l) => some (0x0B, .c3 x (some l))
  | .madw x => some (0x0C, .arith x)
  | .div x => some (0x0D, .c3 x none)
  | .div96 (.wide x) => some (0x0D, .arith x)
  | .div96 (.c3 x l) => some (0x0D, .c3 x (some l))
  | .rem x => some (0x0E, .c3 x none)
  | .rem96 (.wide x) => some (0x0E, .arith x)
  | .rem96 (.c3 x l) => some (0x0E, .c3 x (some l))
  | .sad x => some (0x0F, .arith x)
  | .and x => some (0x10, .c3 x none)
  | .and96 (.wide x) => some (0x10, .arith x)
  | .and96 (.c3 x l) => some (0x10, .c3 x (some l))
  | .or x => some (0x11, .c3 x none)
  | .or96 (.wide x) => some (0x11, .arith x)
  | .or96 (.c3 x l) => some (0x11, .c3 x (some l))
  | .xor x => some (0x12, .c3 x none)
  | .xor96 (.wide x) => some (0x12, .arith x)
  | .xor96 (.c3 x l) => some (0x12, .c3 x (some l))
  | .not x => some (0x13, .c3 x none)
  | .not96 (.wide x) => some (0x13, .arith x)
  | .not96 (.c3 x l) => some (0x13, .c3 x (some l))
  | .andn x => some (0x14, .c3 x none)
  | .andn96 (.wide x) => some (0x14, .arith x)
  | .andn96 (.c3 x l) => some (0x14, .c3 x (some l))
  | .lop x => some (0x15, .arith x)
  | .shl x => some (0x16, .c3 x none)
  | .shl96 (.wide x) => some (0x16, .arith x)
  | .shl96 (.c3 x l) => some (0x16, .c3 x (some l))
  | .shr x => some (0x17, .c3 x none)
  | .shr96 (.wide x) => some (0x17, .arith x)
  | .shr96 (.c3 x l) => some (0x17, .c3 x (some l))
  | .sar x => some (0x18, .c3 x none)
  | .sar96 (.wide x) => some (0x18, .arith x)
  | .sar96 (.c3 x l) => some (0x18, .c3 x (some l))
  | .rol x => some (0x19, .c3 x none)
  | .rol96 (.wide x) => some (0x19, .arith x)
  | .rol96 (.c3 x l) => some (0x19, .c3 x (some l))
  | .ror x => some (0x1A, .c3 x none)
  | .ror96 (.wide x) => some (0x1A, .arith x)
  | .ror96 (.c3 x l) => some (0x1A, .c3 x (some l))
  | .bfx x => some (0x1B, .arith x)
  | .bfins x => some (0x1C, .arith x)
  | .popc x => some (0x1D, .c3 x none)
  | .popc96 (.wide x) => some (0x1D, .arith x)
  | .popc96 (.c3 x l) => some (0x1D, .c3 x (some l))
  | .clz x => some (0x1E, .c3 x none)
  | .clz96 (.wide x) => some (0x1E, .arith x)
  | .clz96 (.c3 x l) => some (0x1E, .c3 x (some l))
  | .ctz x => some (0x1F, .c3 x none)
  | .ctz96 (.wide x) => some (0x1F, .arith x)
  | .ctz96 (.c3 x l) => some (0x1F, .c3 x (some l))
  | .brev x => some (0x20, .c3 x none)
  | .brev96 (.wide x) => some (0x20, .arith x)
  | .brev96 (.c3 x l) => some (0x20, .c3 x (some l))
  | .revb x => some (0x21, .c3 x none)
  | .revb96 (.wide x) => some (0x21, .arith x)
  | .revb96 (.c3 x l) => some (0x21, .c3 x (some l))
  | .cmp x => some (0x22, .arith x)
  | .plop x => some (0x23, .arith x)
  | .pmov x => some (0x24, .arith x)
  | .lea x => some (0x25, .arith x)
  | .icvt x => some (0x26, .arith x)
  | .clamp x => some (0x27, .arith x)
  | .fadd x => some (0x40, .c3 x none)
  | .fadd96 (.wide x) => some (0x40, .arith x)
  | .fadd96 (.c3 x l) => some (0x40, .c3 x (some l))
  | .fsub x => some (0x41, .c3 x none)
  | .fsub96 (.wide x) => some (0x41, .arith x)
  | .fsub96 (.c3 x l) => some (0x41, .c3 x (some l))
  | .fmul x => some (0x42, .c3 x none)
  | .fmul96 (.wide x) => some (0x42, .arith x)
  | .fmul96 (.c3 x l) => some (0x42, .c3 x (some l))
  | .ffma x => some (0x43, .c3 x none)
  | .ffma96 (.wide x) => some (0x43, .arith x)
  | .ffma96 (.c3 x l) => some (0x43, .c3 x (some l))
  | .fmin x => some (0x44, .c3 x none)
  | .fmin96 (.wide x) => some (0x44, .arith x)
  | .fmin96 (.c3 x l) => some (0x44, .c3 x (some l))
  | .fmax x => some (0x45, .c3 x none)
  | .fmax96 (.wide x) => some (0x45, .arith x)
  | .fmax96 (.c3 x l) => some (0x45, .c3 x (some l))
  | .fabs x => some (0x46, .c3 x none)
  | .fabs96 (.wide x) => some (0x46, .arith x)
  | .fabs96 (.c3 x l) => some (0x46, .c3 x (some l))
  | .fneg x => some (0x47, .c3 x none)
  | .fneg96 (.wide x) => some (0x47, .arith x)
  | .fneg96 (.c3 x l) => some (0x47, .c3 x (some l))
  | .fcmp x => some (0x48, .arith x)
  | .fclass x => some (0x49, .arith x)
  | .fdiv x => some (0x4A, .arith x)
  | .fsqrt x => some (0x4B, .arith x)
  | .cvt x => some (0x4C, .arith x)
  | .cvtfi x => some (0x4D, .arith x)
  | .cvtif x => some (0x4E, .arith x)
  | .frnd x => some (0x4F, .arith x)
  | .fscale x => some (0x50, .arith x)
  | .bra x => some (0x60, .cb x)
  | .bra96 x => some (0x60, .desc x)
  | .call x => some (0x61, .cb x)
  | .call96 x => some (0x61, .desc x)
  | .jmp x => some (0x62, .c3 x none)
  | .jmp96 (.wide x) => some (0x62, .arith x)
  | .jmp96 (.c3 x l) => some (0x62, .c3 x (some l))
  | .calli x => some (0x63, .c3 x none)
  | .calli96 (.wide x) => some (0x63, .arith x)
  | .calli96 (.c3 x l) => some (0x63, .c3 x (some l))
  | .ret x => some (0x64, .c3 x none)
  | .ret96 (.wide x) => some (0x64, .arith x)
  | .ret96 (.c3 x l) => some (0x64, .c3 x (some l))
  | .exit x => some (0x65, .c3 x none)
  | .exit96 x => some (0x65, .arith x)
  | .brk x => some (0x66, .arith x)
  | .svc x => some (0x67, .ci x none)
  | .svc96 x => some (0x67, .arith x)
  | .wait x => some (0x68, .desc x)
  | .nop x => some (0x69, .c3 x none)
  | .nop96 x => some (0x69, .arith x)
  | .ld x => some (0x90, .ci x none)
  | .ld96 (.wide x) => some (0x90, .mem x)
  | .ld96 (.ci x l) => some (0x90, .ci x (some l))
  | .st x => some (0x91, .ci x none)
  | .st96 (.wide x) => some (0x91, .mem x)
  | .st96 (.ci x l) => some (0x91, .ci x (some l))
  | .movs x => some (0xE0, .desc x)
  | .sets x => some (0xE1, .desc x)
  | .sxTimeWrite x => some (0xE1, .desc x)
  | .pair x => some (0xFC, .pair x)
  | .join x => some (0x70, .arith x)
  | .lead x => some (0x71, .arith x)
  | .spawn x => some (0x72, .arith x)
  | .bar x => some (0x73, .arith x)
  | .xch x => some (0x74, .arith x)
  | .xlred x => some (0x75, .arith x)
  | .xlscan x => some (0x76, .arith x)
  | .ballot x => some (0x77, .arith x)
  | .quorum x => some (0x78, .arith x)
  | .peer x => some (0x79, .arith x)
  | .hadd x => some (0x80, .c3 x none)
  | .hadd96 (.wide x) => some (0x80, .arith x)
  | .hadd96 (.c3 x l) => some (0x80, .c3 x (some l))
  | .hmul x => some (0x81, .c3 x none)
  | .hmul96 (.wide x) => some (0x81, .arith x)
  | .hmul96 (.c3 x l) => some (0x81, .c3 x (some l))
  | .hfma x => some (0x82, .c3 x none)
  | .hfma96 (.wide x) => some (0x82, .arith x)
  | .hfma96 (.c3 x l) => some (0x82, .c3 x (some l))
  | .hmin x => some (0x83, .arith x)
  | .hmax x => some (0x83, .arith x)
  | .dot x => some (0x84, .arith x)
  | .rcp x => some (0x85, .c3 x none)
  | .rcp96 (.wide x) => some (0x85, .arith x)
  | .rcp96 (.c3 x l) => some (0x85, .c3 x (some l))
  | .rsq x => some (0x86, .c3 x none)
  | .rsq96 (.wide x) => some (0x86, .arith x)
  | .rsq96 (.c3 x l) => some (0x86, .c3 x (some l))
  | .ex2 x => some (0x87, .c3 x none)
  | .ex296 (.wide x) => some (0x87, .arith x)
  | .ex296 (.c3 x l) => some (0x87, .c3 x (some l))
  | .lg2 x => some (0x88, .c3 x none)
  | .lg296 (.wide x) => some (0x88, .arith x)
  | .lg296 (.c3 x l) => some (0x88, .c3 x (some l))
  | .sin x => some (0x89, .c3 x none)
  | .sin96 (.wide x) => some (0x89, .arith x)
  | .sin96 (.c3 x l) => some (0x89, .c3 x (some l))
  | .cos x => some (0x8A, .c3 x none)
  | .cos96 (.wide x) => some (0x8A, .arith x)
  | .cos96 (.c3 x l) => some (0x8A, .c3 x (some l))
  | .tanh x => some (0x8B, .c3 x none)
  | .tanh96 (.wide x) => some (0x8B, .arith x)
  | .tanh96 (.c3 x l) => some (0x8B, .c3 x (some l))
  | .pack x => some (0x8C, .arith x)
  | .unpk x => some (0x8D, .arith x)
  | .qblk x => some (0x8E, .arith x)
  | .edge x => some (0x8F, .arith x)
  | .ldmx x => some (0x92, .mem x)
  | .atom x => some (0x93, .mem x)
  | .red x => some (0x94, .mem x)
  | .fence x => some (0x95, .mem x)
  | .ifence x => some (0x96, .arith x)
  | .cwb x => some (0x97, .mem x)
  | .cinval x => some (0x98, .mem x)
  | .pref x => some (0x99, .mem x)
  | .cpy x => some (0xB0, .desc x)
  | .cpyt x => some (0xB1, .desc x)
  | .slotarm x => some (0xB2, .desc x)
  | .sarrive x => some (0xB3, .desc x)
  | .sacq x => some (0xB4, .desc x)
  | .swait x => some (0xB5, .desc x)
  | .sfirst x => some (0xB6, .desc x)
  | .sreset x => some (0xB7, .desc x)
  | .ondone x => some (0xB8, .desc x)
  | .give x => some (0xB9, .desc x)
  | .take x => some (0xBA, .desc x)
  | .qinit x => some (0xBB, .desc x)
  | .qpush x => some (0xBC, .desc x)
  | .qpop x => some (0xBD, .desc x)
  | .qtryPush x => some (0xBE, .desc x)
  | .qtryPop x => some (0xBE, .desc x)
  | .hitch x => some (0xC0, .desc x)
  | .unhitch x => some (0xC1, .desc x)
  | .bload x => some (0xC2, .desc x)
  | .bswap x => some (0xC3, .desc x)
  | .mma x => some (0xC4, .desc x)
  | .accz x => some (0xC5, .desc x)
  | .accld x => some (0xC6, .desc x)
  | .accst x => some (0xC7, .desc x)
  | .trace x => some (0xD0, .desc x)
  | .pairs x => some (0xD1, .desc x)
  | .isload x => some (0xD2, .desc x)
  | .isray x => some (0xD3, .desc x)
  | .iscand x => some (0xD4, .desc x)
  | .isacc x => some (0xD5, .desc x)
  | .isrej x => some (0xD6, .desc x)
  | .isend x => some (0xD7, .desc x)
  | .sgfork x => some (0xD8, .desc x)
  | .sgpost x => some (0xD9, .desc x)
  | .sgcancel x => some (0xDA, .desc x)
  | .sgcancelAll x => some (0xDA, .desc x)
  | .sgstat x => some (0xDB, .desc x)
  | .rte x => some (0xE2, .desc x)
  | .movix x => some (0xE3, .desc x)
  | .setix x => some (0xE4, .desc x)
  | .regionOpen x => some (0xE5, .desc x)
  | .regionClose x => some (0xE5, .desc x)
  | .yield x => some (0xE6, .desc x)
  | .qwait x => some (0xE8, .desc x)
  | .launchStart x => some (0xE7, .desc x)
  | .launchReply x => some (0xE7, .desc x)
  | .launchPreempt x => some (0xE7, .desc x)
  | .launchResume x => some (0xE7, .desc x)
  | .launchEnd x => some (0xE7, .desc x)
  | .launchBind x => some (0xE7, .desc x)
  | _ => none

/-- Opcodes whose compact format is C3 (02 R39, R56). -/
def isC3 (op : Nat) : Bool :=
  [0x01, 0x03, 0x04, 0x05, 0x06, 0x07, 0x08, 0x09, 0x0A, 0x0B, 0x0D, 0x0E, 0x10, 0x11, 0x12, 0x13, 0x14, 0x16, 0x17, 0x18, 0x19, 0x1A, 0x1D, 0x1E, 0x1F, 0x20, 0x21, 0x40, 0x41, 0x42, 0x43, 0x44, 0x45, 0x46, 0x47, 0x62, 0x63, 0x64, 0x65, 0x69, 0x80, 0x81, 0x82, 0x85, 0x86, 0x87, 0x88, 0x89, 0x8A, 0x8B].contains op

/-- Words 0 and 1 of the 96-bit form (02 R40), with the literal if the length has one. -/
def parseOps4 (w0 w1 : Word) (lit : Option Dword) : Option Ops4 :=
  match spec10 (bits w0 10 10), spec10 (bits w0 20 10), spec10 (bits w1 0 10), spec10 (bits w1 10 10) with
  | some d, some a, some b, some c =>
    some { g := bits w1 20 4, d := d, a := a, b := b, c := c, mod8 := bits w1 24 8, lit := lit }
  | _, _, _, _ => none

/-- Word 2 of the arithmetic form (02 R42); bits [15:9] are zero. -/
def parseArith (x : Ops4) (w2 : Word) : Option Arith :=
  if bits w2 9 7 != 0#7 then none
  else match Ty.ofCode (bits w2 0 5) with
    | some ty => some { toOps4 := x, ext := bits w2 16 16, sat := w2.getLsbD 8, rnd := bits w2 5 3, ty := ty }
    | none => none

/-- Word 2 of the memory form (02 R42). -/
def parseMem (x : Ops4) (w2 : Word) : Option Memf :=
  match Ty.ofCode (bits w2 0 5) with
  | some ty =>
    some { toOps4 := x, off := bits w2 12 20, agent := bits w2 9 3, store := bits w2 7 2, ord := bits w2 5 2, ty := ty }
  | none => none

/-- The 43 bits of a half (02 R52), the sub-opcode lowest. -/
def parseHalf (h : BitVec 43) : Option Half :=
  match spec7 (h.extractLsb' 7 7), spec7 (h.extractLsb' 14 7), spec7 (h.extractLsb' 21 7), spec7 (h.extractLsb' 28 7),
      Ty.ofCode ((h.extractLsb' 39 4).setWidth 5) with
  | some d, some a, some b, some c, some ty =>
    some { ty := ty, g := h.extractLsb' 35 4, c := c, b := b, a := a, d := d, sub := h.extractLsb' 0 7 }
  | _, _, _, _, _ => none

def parsePair (w0 w1 w2 : Word) (lit : Option Dword) : Option Pair :=
  let u : BitVec 96 := w2 ++ w1 ++ w0
  match parseHalf (u.extractLsb' 10 43), parseHalf (u.extractLsb' 53 43) with
  | some h0, some h1 => some { h0 := h0, h1 := h1, lit := lit }
  | _, _ => none

def orElse (x : Option Instr) (r : Illegal) : Except Illegal Instr :=
  match x with
  | some i => .ok i
  | none => .error r

/-- An encoding of one instruction word: C3, CI or CB by its opcode (02 R35, R39). -/
def parseCompact (op : Nat) (w0 : Word) (lit : Option Dword) : Except Illegal Instr :=
  if isC3 op then
    match spec7 (bits w0 10 7), spec7 (bits w0 17 7), spec7 (bits w0 24 7) with
    | some d, some a, some b => orElse (ofC3 op { m := w0.getLsbD 31, b := b, a := a, d := d } lit) .noCompact
    | _, _, _ => .error .field
  else if op == 0x90 || op == 0x91 || op == 0x67 then
    match spec7 (bits w0 10 7), spec7 (bits w0 17 7) with
    | some d, some a => orElse (ofCI op { imm := bits w0 24 8, a := a, d := d } lit) .noCompact
    | _, _ => .error .field
  else if lit.isNone then orElse (ofCB op { off := bits w0 10 22 }) .noCompact
  else .error .noCompact

/-- An encoding of three instruction words: the pair form or one of the forms of 02 R42. -/
def parseWide (op : Nat) (w0 w1 w2 : Word) (lit : Option Dword) : Except Illegal Instr :=
  if op == 0xFC then orElse ((parsePair w0 w1 w2 lit).map .pair) .field
  else match parseOps4 w0 w1 lit with
    | none => .error .field
    | some x =>
      match bits w0 30 2 with
      | 0#2 => match parseArith x w2 with
        | some y => orElse (ofArith op y) .check
        | none => .error .field
      | 1#2 => match parseMem x w2 with
        | some y => orElse (ofMem op y) .check
        | none => .error .field
      | 2#2 => orElse (ofDesc op { toOps4 := x, w2 := w2 }) .check
      | _ => .error .field

/-- The fields of an encoding (02 R33 to R42), read from its words; further words are ignored. -/
def parse (ws : List Word) : Except Illegal Instr :=
  match ws with
  | [] => .error .short
  | w0 :: rest =>
    if reservedOp (bits w0 2 8) then
      if rest.length + 1 < lengthWords w0 then .error .short
      else .ok (.illegalOpcode (w0 :: rest.take (lengthWords w0 - 1)))
    else
      let op := (bits w0 2 8).toNat
      match bits w0 0 2, rest with
      | 0#2, _ => parseCompact op w0 none
      | 1#2, w1 :: w2 :: _ => parseWide op w0 w1 w2 none
      | 2#2, l0 :: l1 :: _ => parseCompact op w0 (some (l1 ++ l0))
      | 3#2, w1 :: w2 :: l0 :: l1 :: _ => parseWide op w0 w1 w2 (some (l1 ++ l0))
      | _, _ => .error .short

/-! ### Encoding -/

/-- Bits [9:2] and [1:0] of word 0. -/
def head (op : Nat) (len : BitVec 2) : BitVec 10 := BitVec.ofNat 8 op ++ len

def litWords : Option Dword → List Word
  | none => []
  | some l => [l.extractLsb' 0 32, l.extractLsb' 32 32]

def encOps4 (f : BitVec 2) (op : Nat) (x : Ops4) : List Word :=
  let len : BitVec 2 := if x.lit.isSome then 3 else 1
  [f ++ enc10 x.a ++ enc10 x.d ++ head op len, x.mod8 ++ x.g ++ enc10 x.c ++ enc10 x.b]

def encHalf (h : Half) : BitVec 43 :=
  (h.ty.code.setWidth 4 : BitVec 4) ++ h.g ++ enc7 h.c ++ enc7 h.b ++ enc7 h.a ++ enc7 h.d ++ h.sub

/-- The words of a format's fields (02 R36 to R42, R52). -/
def Fields.encode (op : Nat) : Fields → List Word
  | .c3 x lit =>
    let len : BitVec 2 := if lit.isSome then 2 else 0
    (BitVec.ofBool x.m ++ enc7 x.b ++ enc7 x.a ++ enc7 x.d ++ head op len) :: litWords lit
  | .ci x lit =>
    let len : BitVec 2 := if lit.isSome then 2 else 0
    (x.imm ++ enc7 x.a ++ enc7 x.d ++ head op len) :: litWords lit
  | .cb x => [x.off ++ head op 0]
  | .arith x =>
    encOps4 0 op x.toOps4 ++ ((x.ext ++ 0#7 ++ BitVec.ofBool x.sat ++ x.rnd ++ x.ty.code) :: litWords x.lit)
  | .mem x => encOps4 1 op x.toOps4 ++ ((x.off ++ x.agent ++ x.store ++ x.ord ++ x.ty.code) :: litWords x.lit)
  | .desc x => encOps4 2 op x.toOps4 ++ (x.w2 :: litWords x.lit)
  | .pair x =>
    let len : BitVec 2 := if x.lit.isSome then 3 else 1
    let u : BitVec 96 := encHalf x.h1 ++ encHalf x.h0 ++ head op len
    u.extractLsb' 0 32 :: u.extractLsb' 32 32 :: u.extractLsb' 64 32 :: litWords x.lit

/-- The words of a well-formed instruction; none for the device's own steps. -/
def encode (i : Instr) : List Word :=
  match i with
  | .illegalOpcode ws => ws
  | i => match i.fields with
    | some (op, f) => f.encode op
    | none => []

/-! ### Operands -/

/-- Bits of an operand of a type, as R47 reads it: 8- and 16-bit values live in 32-bit registers. -/
def Ty.regWidth : Ty → Nat
  | .b64 | .i64 | .n64 | .f64 => 64
  | .b128 => 128
  | _ => 32

/-- Bits of a value of the type (02 R10). -/
def Ty.width : Ty → Nat
  | .b64 | .i64 | .n64 | .f64 => 64
  | .b128 => 128
  | .f16 | .bf16 | .b16 => 16
  | .b8 | .i8 | .n8 | .e4m3 | .e5m2 => 8
  | .e3m2 | .e2m3 => 6
  | .e2m1 | .i4 => 4
  | _ => 32

/-- The narrow types, whose operands refuse an immediate (02 R50). -/
def Ty.narrow : Ty → Bool
  | .e4m3 | .e5m2 | .e3m2 | .e2m3 | .e2m1 | .i4 => true
  | _ => false

def Ty.signed : Ty → Bool
  | .i4 | .i8 | .i32 | .i64 => true
  | _ => false

/-- What one operand specifier of an instruction is. -/
inductive Use where
  | src (o : Opnd) (w : Nat)                  -- a source of w bits: 32, 64 or 128
  | srcNarrow (o : Opnd)                      -- a 32-bit source of a narrow type: no immediate
  | dst (o : Opnd) (w : Nat)                  -- a register result (02 R48)
  | ldst (o : Opnd) (w : Nat)                 -- a load destination: v, o or the zero code (04 R129)
  | span (o : Opnd) (n align : Nat) (out : Bool)  -- n v registers from a base that is a multiple of align
  | kspan (o : Opnd)                          -- eight k registers from a multiple of 8 (13 R300)
  | vreg (n : BitVec 8)                       -- a v register named outside the specifiers (06 R177)
  | none (o : Opnd)                           -- unused: must hold the zero code (02 R44)
  deriving DecidableEq, Repr

def Use.opnd : Use → Opnd
  | .src o _ | .srcNarrow o | .dst o _ | .ldst o _ | .span o _ _ _ | .kspan o | .none o => o
  | .vreg n => .v n

/-- A pair or quad base (01 R15, 02 R47), as far as the number alone decides. -/
def Opnd.aligned (o : Opnd) (w : Nat) : Bool :=
  match o with
  | .v n =>
    if w == 64 then n.toNat % 2 == 0 && n.toNat < 254
    else if w == 128 then n.toNat % 4 == 0 && n.toNat < 252
    else true
  | .o n => if w == 64 then n.toNat % 2 == 0 else w != 128
  | .zero => true
  | _ => w != 128

/-- The checks of an operand that its words alone decide (02 R47, R48, R50). -/
def Use.ok : Use → Bool
  | .src o w => o.aligned w
  | .srcNarrow o => match o with | .imm _ => false | _ => true
  | .dst o w =>
    match o with
    | .y1 | .lit | .litLo | .litHi | .imm _ => false
    | _ => o.aligned w
  | .ldst o w =>
    match o with
    | .v _ | .o _ | .zero => o.aligned w
    | _ => false
  | .span o _ al _ =>
    match o with
    | .v n => n.toNat % al == 0
    | _ => false
  | .kspan o =>
    match o with
    | .k n => n.toNat % 8 == 0
    | _ => false
  | .vreg n => n != 255#8
  | .none o => o == .zero

/-- True when the use reads the literal (02 R49). -/
def Use.literal (u : Use) : Bool :=
  match u.opnd with
  | .lit | .litLo | .litHi => true
  | _ => false

/-- A compact C3 word as the 96-bit form it abbreviates (02 R39): M gives type and rounding, D is also C for the
three-source operations. -/
def C3.toArith (op : Nat) (x : C3) (lit : Option Dword) : Arith :=
  let fp := 0x40 ≤ op && op < 0x60
  let h := 0x80 ≤ op && op ≤ 0x82
  let ty : Ty := if 0x60 ≤ op && op < 0x70 then .b32
    else if fp || (0x85 ≤ op && op ≤ 0x8B) then .f32
    else if h then (if x.m then .bf16 else .f16)
    else if x.m then .i64 else .i32
  { g := 7, d := x.d, a := x.a, b := x.b
    c := if op == 0x0B || op == 0x43 || op == 0x82 then x.d else .zero
    mod8 := 0, lit := lit, ext := 0, sat := false, rnd := if fp && x.m then 4 else 0, ty := ty }

/-- Opcodes whose compact form raises ILLEGAL for M = 1 (02 R39, 04 R111). -/
def c3NoM (op : Nat) : Bool := (0x44 ≤ op && op ≤ 0x47) || (0x60 ≤ op && op < 0x70) || (0x85 ≤ op && op ≤ 0x8B)

def AForm.toArith (op : Nat) : AForm → Arith
  | .wide x => x
  | .c3 x l => x.toArith op (some l)

/-- A CI load or store as the memory form it abbreviates (02 R39, 04 R128). -/
def CI.toMemf (op : Nat) (x : CI) (lit : Option Dword) : Memf :=
  { g := 7, d := if op == 0x90 then x.d else .zero, a := x.a, b := if op == 0x90 then .zero else x.d, c := .zero
    mod8 := 0, lit := lit, off := (x.imm.signExtend 20) <<< 2, agent := 0, store := 0, ord := 0, ty := .b32 }

def MForm.toMemf (op : Nat) : MForm → Memf
  | .wide x => x
  | .ci x l => x.toMemf op (some l)

/-- An instruction's fields with the compact formats widened: what its checks and its meaning read. -/
inductive View where
  | arith (op : Nat) (x : Arith) (compactM : Bool)   -- compactM: a compact M bit of 1 that is illegal
  | mem (op : Nat) (x : Memf)
  | desc (op : Nat) (x : Desc)
  | svc (imm : BitVec 8) (d a : Opnd)                -- compact SVC
  | cb (op : Nat) (x : CB)
  | pair (x : Pair)
  deriving DecidableEq, Repr

def Instr.view (i : Instr) : Option View :=
  match i.fields with
  | some (op, .c3 x lit) => some (.arith op (x.toArith op lit) (x.m && c3NoM op))
  | some (op, .ci x lit) => if op == 0x67 then some (.svc x.imm x.d x.a) else some (.mem op (x.toMemf op lit))
  | some (op, .cb x) => some (.cb op x)
  | some (op, .arith x) => some (.arith op x false)
  | some (op, .mem x) => some (.mem op x)
  | some (op, .desc x) => some (.desc op x)
  | some (_, .pair x) => some (.pair x)
  | none => none

/-- Field lo..lo+n-1 of word 2's bits [31:16], numbered as the manual numbers word 2. -/
def Arith.fld (x : Arith) (lo n : Nat) : BitVec n := x.ext.extractLsb' (lo - 16) n
def Desc.fld (x : Desc) (lo n : Nat) : BitVec n := x.w2.extractLsb' lo n

/-- The span of a DOT operand (06 R177): six registers for FP6, otherwise eight. -/
def Ty.dotSpan : Ty → Nat
  | .e3m2 | .e2m3 => 6
  | _ => 8

/-- A source of a type that may be narrow: an immediate raises ILLEGAL there (02 R50). UNPK's A counts as an operand of its element
type (log 57). -/
def useTy (o : Opnd) (ty : Ty) : Use := if ty.narrow then .srcNarrow o else .src o ty.regWidth

/-- Operands of the arithmetic form (04 R96 to R119, 06 R162, 09 R220). -/
def usesArith (op : Nat) (x : Arith) : List Use :=
  let w := x.ty.regWidth
  let u2 (d a : Use) : List Use := [d, a, .none x.b, .none x.c]
  let u3 (d a b : Use) : List Use := [d, a, b, .none x.c]
  let st : Ty := (Ty.ofCode (x.fld 16 5)).getD .b32
  if [0x01, 0x05, 0x06, 0x13, 0x20, 0x21, 0x46, 0x47, 0x4F].contains op then u2 (.dst x.d w) (.src x.a w)
  else if [0x02, 0x03, 0x04, 0x07, 0x08, 0x09, 0x0A, 0x0D, 0x0E, 0x10, 0x11, 0x12, 0x14, 0x40, 0x41, 0x42, 0x44, 0x45,
      0x4A].contains op then u3 (.dst x.d w) (.src x.a w) (.src x.b w)
  else if [0x0B, 0x0F, 0x15, 0x27, 0x43].contains op then [.dst x.d w, .src x.a w, .src x.b w, .src x.c w]
  else if [0x16, 0x17, 0x18, 0x19, 0x1A, 0x1B, 0x50].contains op then u3 (.dst x.d w) (.src x.a w) (.src x.b 32)
  else if [0x1D, 0x1E, 0x1F, 0x49].contains op then u2 (.dst x.d 32) (.src x.a w)
  else match op with
  | 0x0C => [.dst x.d 64, .src x.a 32, .src x.b 32, .src x.c 64]
  | 0x1C => [.dst x.d w, .src x.a w, .src x.b 32, .src x.c w]
  | 0x22 | 0x48 => u3 (.dst x.d 32) (.src x.a w) (.src x.b w)
  | 0x24 => if x.fld 16 1 == 0#1 then u2 (.dst x.d 32) (.none x.a) else u2 (.none x.d) (.src x.a 32)
  | 0x25 => u3 (.dst x.d 64) (.src x.a 64) (.src x.b 32)
  | 0x26 | 0x4C | 0x4D | 0x4E => u2 (.dst x.d w) (useTy x.a st)
  | 0x4B => u2 (.dst x.d w) (.src x.a w)
  | 0x62 | 0x64 => u2 (.none x.d) (.src x.a 64)
  | 0x63 | 0x67 => u2 (.dst x.d 64) (.src x.a 64)
  | 0x70 => if x.fld 16 2 == 2#2 then u2 (.none x.d) (.src x.a 32) else u2 (.none x.d) (.none x.a)
  | 0x71 | 0x78 => u2 (.dst x.d 32) (.none x.a)
  | 0x72 => u3 (.none x.d) (.src x.a 64) (.src x.b 64)
  | 0x73 => if x.fld 18 4 == 0#4 then u2 (.none x.d) (.none x.a) else u2 (.dst x.d 32) (.src x.a 32)
  | 0x74 => if x.fld 16 3 == 0#3 then u3 (.dst x.d w) (.src x.a w) (.src x.b 32) else u2 (.dst x.d w) (.src x.a w)
  | 0x75 | 0x76 => u2 (.dst x.d w) (.src x.a w)
  | 0x77 => u2 (.dst x.d w) (.none x.a)
  | 0x79 => u2 (.dst x.d 32) (.src x.a w)
  | 0x80 | 0x81 | 0x83 => u3 (.dst x.d 32) (.src x.a 32) (.src x.b 32)
  | 0x82 => [.dst x.d 32, .src x.a 32, .src x.b 32, .src x.c 32]
  | 0x84 =>
    [.dst x.d 32, .span x.a x.ty.dotSpan 2 false, .span x.b st.dotSpan 2 false, .src x.c 32]
      ++ (if x.mod8 == 1#8 then [.vreg (x.fld 24 8)] else [])
  | 0x85 | 0x86 | 0x87 | 0x88 | 0x89 | 0x8A | 0x8B => u2 (.dst x.d 32) (.src x.a 32)
  | 0x8C => u3 (.dst x.d 32) (.src x.a 32) (.src x.b 32)
  | 0x8D => u2 (.dst x.d 32) (useTy x.a x.ty)
  | 0x8E => u2 (.dst x.d 32) (.src x.a 32)
  | 0x8F => [.dst x.d 32, .src x.a 128, .src x.b 64, .src x.c 32]
  | _ => u2 (.none x.d) (.none x.a)

/-- Registers of an LDMX destination (09 R224). -/
def ldmxSpan (x : Memf) : Nat :=
  let n := 8 * 2 ^ (x.mod8.extractLsb' 4 2).toNat
  if x.mod8.extractLsb' 2 2 == 0#2 then n else n / 2

/-- Operands of the memory form (09 R220). -/
def usesMem (op : Nat) (x : Memf) : List Use :=
  let w := x.ty.regWidth
  let base := Use.src x.a 64
  match op with
  | 0x90 => [.ldst x.d w, base, .none x.b, .none x.c]
  | 0x91 => [.none x.d, base, .src x.b w, .none x.c]
  | 0x92 => [.span x.d (ldmxSpan x) 4 true, base, .src x.b 32, .none x.c]
  | 0x93 => [.ldst x.d w, base, .src x.b w, if x.mod8.extractLsb' 0 5 == 7#5 then .src x.c w else .none x.c]
  | 0x94 => [.none x.d, base, .src x.b w, if x.mod8.getLsbD 5 then .src x.c 32 else .none x.c]
  | 0x95 => [.none x.d, .none x.a, .none x.b, .none x.c]
  | _ => [.none x.d, base, .none x.b, .none x.c]

/-- Operands of the descriptor form (04 R119, R131, 11 R250, 12 R283, 13 R300, R308, 14 R330, 15 R353, 17 R365, 21 R422). The
index B of MOVS and SETS is read at 32 bits whatever the access width: the model's choice (log 75). -/
def usesDesc (op : Nat) (x : Desc) : List Use :=
  let s (o : Opnd) (w : Nat) : Use := .src o w
  let n (o : Opnd) : Use := .none o
  let slot : Use := if x.w2.getLsbD 0 then .src x.d 32 else .none x.d
  let sw := if x.w2.getLsbD 15 then 64 else 32
  match op with
  | 0x61 => [.dst x.d 64, n x.a, n x.b, n x.c]
  | 0xB0 => [slot, s x.a 64, s x.b 64, s x.c 32]
  | 0xB1 => [slot, s x.a 64, s x.b 64, .span x.c 5 1 false]
  | 0xB2 => [s x.d 32, s x.a 32, s x.b 32, n x.c]
  | 0xB3 => [s x.d 32, s x.a 32, n x.b, n x.c]
  | 0xB4 | 0xB7 => [s x.d 32, n x.a, n x.b, n x.c]
  | 0xB5 => [.dst x.d 64, s x.a 64, n x.b, n x.c]
  | 0xB6 => [.dst x.d 32, s x.a 64, n x.b, n x.c]
  | 0xB8 => [s x.d 32, s x.a 64, s x.b 64, n x.c]
  | 0xB9 | 0xBB => [n x.d, s x.a 64, s x.b 32, n x.c]
  | 0xBA => if x.w2.getLsbD 0 then [n x.d, n x.a, n x.b, n x.c] else [n x.d, s x.a 64, s x.b 32, n x.c]
  | 0xBC => [n x.d, s x.a 64, n x.b, n x.c]
  | 0xBD => [.dst x.d 64, n x.a, n x.b, n x.c]
  | 0xBE => if x.w2.getLsbD 3 then [.dst x.d 64, n x.a, n x.b, n x.c] else [n x.d, s x.a 64, n x.b, n x.c]
  | 0xC2 => [slot, s x.a 64, s x.b 32, n x.c]
  | 0xC3 => [n x.d, s x.a 32, s x.b 32, n x.c]
  | 0xC4 => [slot, .kspan x.a, n x.b, n x.c]
  | 0xC5 => [n x.d, n x.a, s x.b 32, s x.c 32]
  | 0xC6 | 0xC7 => [slot, s x.a 64, s x.b 32, s x.c 32]
  | 0xD0 | 0xD1 => [n x.d, s x.a 64, n x.b, n x.c]
  | 0xD2 => [n x.d, s x.a 64, s x.b 32, n x.c]
  | 0xD3 | 0xD4 => [.span x.d 8 4 true, n x.a, n x.b, n x.c]
  | 0xD5 | 0xD7 => [n x.d, s x.a 32, s x.b 32, n x.c]
  | 0xD8 => [n x.d, s x.a 64, s x.b 32, s x.c 64]
  | 0xD9 => [.ldst x.d 32, s x.a 64, s x.b 32, n x.c]
  | 0xDA => [.ldst x.d 32, s x.a 64, n x.b, n x.c]
  | 0xDB => [.ldst x.d 64, s x.a 64, n x.b, n x.c]
  | 0xE0 => [.dst x.d sw, n x.a, s x.b 32, n x.c]
  | 0xE1 => [n x.d, s x.a sw, s x.b 32, n x.c]
  | 0xE3 => [.dst x.d 64, s x.a 32, n x.b, n x.c]
  | 0xE4 => [n x.d, s x.a 32, s x.b 64, n x.c]
  | 0xE6 => [n x.d, s x.a 32, n x.b, n x.c]
  | 0xE7 => [.dst x.d 32, s x.a 64, s x.b 32, n x.c]
  | 0xE8 => [.span x.d 4 4 true, s x.a 32, n x.b, n x.c]
  | _ => [n x.d, n x.a, n x.b, n x.c]

/-- Operands of one half of a pair, which has the operands of the instruction it acts as (02 R53). -/
def usesHalf (h : Half) : List Use :=
  let s (o : Opnd) : Use := .src o 32
  match h.sub.toNat with
  | 0x00 | 0x06 | 0x43 => [.dst h.d 32, s h.a, s h.b, s h.c]
  | 0x4B => [.dst h.d 32, s h.a, .none h.b, .none h.c]
  | _ => [.dst h.d 32, s h.a, s h.b, .none h.c]

def View.uses : View → List Use
  | .arith op x _ => usesArith op x
  | .mem op x => usesMem op x
  | .desc op x => usesDesc op x
  | .svc _ d a => [.none d, .none a]
  | .cb op _ => if op == 0x61 then [.dst .y0 64] else []
  | .pair x => usesHalf x.h0 ++ usesHalf x.h1

/-- The operands of an instruction. -/
def Instr.uses (i : Instr) : List Use :=
  match i.view with
  | some v => v.uses
  | none => []

/-- The guard field (02 R41); compact encodings execute as if guarded by p7, and the halves of a pair carry their own. -/
def Instr.guard (i : Instr) : BitVec 4 :=
  match i.view with
  | some (.arith _ x _) => x.g
  | some (.mem _ x) => x.g
  | some (.desc _ x) => x.g
  | _ => 7

/-- The trailing literal, or 0 where there is none. -/
def Instr.lit (i : Instr) : Dword :=
  match i.view with
  | some (.arith _ x _) => x.lit.getD 0
  | some (.mem _ x) => x.lit.getD 0
  | some (.desc _ x) => x.lit.getD 0
  | some (.pair x) => x.lit.getD 0
  | _ => 0

/-- Bytes of the encoding (02 R34). -/
def Instr.len (i : Instr) : Nat := 4 * (encode i).length

/-! ### What each instruction accepts (02 R44) -/

def tyI : List Ty := [.b32, .i32, .n32, .b64, .i64, .n64]
def tyS : List Ty := [.i32, .n32, .i64, .n64]
def tyF : List Ty := [.f64, .f32, .f16, .bf16]
def tyB : List Ty := [.b32, .b64]
def tyH : List Ty := [.f16, .bf16]
def tyNarrow : List Ty := [.e4m3, .e5m2, .e3m2, .e2m3, .e2m1]
def tyInt : List Ty := [.i4, .i8, .n8, .i32, .n32, .i64, .n64]
def tyCvtInt : List Ty := [.i8, .n8, .i32, .n32, .i64, .n64]
def tyCvt : List Ty := tyF ++ [.tf32] ++ tyNarrow
def tyRed : List Ty := [.i32, .n32, .i64, .n64, .f32]
def tyAtom : List Ty := [.i32, .n32, .i64, .n64, .f16, .bf16, .f32, .f64]
def tyLd : List Ty :=
  [.i8, .b8, .n8, .b16, .f16, .bf16, .b32, .i32, .n32, .f32, .b64, .i64, .n64, .f64, .b128]

/-- What an arithmetic-form opcode accepts: types, saturation, rounding codes, the bits of word 2 [31:16] it defines, and
the values of Mod8. -/
structure Accepts where
  tys : List Ty
  sat : Bool := false
  rnd : Bool := false
  ext : BitVec 16 := 0
  mod8 : List (BitVec 8) := [0]
  deriving DecidableEq, Repr

def accepts (op : Nat) (x : Arith) : Accepts :=
  let signedOrN := !([Ty.b32, .b64].contains x.ty)
  if [0x03, 0x04, 0x09, 0x0B].contains op then { tys := tyI, sat := signedOrN }
  else if [0x10, 0x11, 0x12, 0x13, 0x14, 0x16, 0x17, 0x18, 0x19, 0x1A, 0x1D, 0x1E, 0x1F, 0x20, 0x21].contains op then
    { tys := tyI }
  else if [0x40, 0x41, 0x42, 0x43, 0x4F, 0x50].contains op then { tys := tyF, rnd := true }
  else if [0x44, 0x45, 0x46, 0x47, 0x49].contains op then { tys := tyF }
  else match op with
  | 0x01 => { tys := tyI ++ tyF ++ [.b128] }
  | 0x02 => { tys := tyB, ext := 0x000F }
  | 0x05 | 0x06 => { tys := [.i32, .i64], sat := true }
  | 0x07 | 0x08 | 0x0A | 0x0D | 0x0E | 0x1B | 0x27 => { tys := tyS }
  | 0x0C => { tys := [.i32, .n32], sat := true }
  | 0x0F => { tys := [.i32, .n32], sat := true }
  | 0x15 => { tys := tyI, ext := 0x00FF }
  | 0x1C => { tys := tyB }
  | 0x22 => { tys := tyS, ext := 0x007F }
  | 0x23 => { tys := [.b32], ext := 0x0FFF, mod8 := [x.mod8] }
  | 0x24 => { tys := [.b32], ext := 0x0001 }
  | 0x25 => { tys := [.b64], ext := 0x000F }
  | 0x26 => { tys := tyInt, sat := true, ext := 0x001F }
  | 0x48 => { tys := tyF, ext := 0x007F }
  | 0x4A | 0x4B => { tys := [.f32, .f64], rnd := true }
  | 0x4C => { tys := tyCvt, sat := true, rnd := true, ext := 0x001F }
  | 0x4D => { tys := tyCvtInt, sat := true, rnd := true, ext := 0x001F }
  | 0x4E => { tys := tyCvt, sat := true, rnd := true, ext := 0x001F }
  | 0x66 => { tys := [.b32], ext := 0xFFFF }
  | 0x67 => { tys := [.b32], ext := 0x00FF }
  | 0x70 => { tys := [.b32], ext := 0x0003 }
  | 0x71 => { tys := [.b32], ext := 0x00FF }
  | 0x73 => { tys := [.b32, .i32, .n32, .f32], ext := 0x073F }
  | 0x74 => { tys := tyB, ext := 0x0777 }
  | 0x75 => { tys := tyRed ++ tyB, ext := 0x000F }
  | 0x76 => { tys := tyRed ++ tyB, ext := 0x001F }
  | 0x77 => { tys := tyB, ext := 0x000F }
  | 0x78 => { tys := [.b32], ext := 0xFFFF }
  | 0x79 => { tys := tyB, ext := 0x0073 }
  | 0x80 | 0x81 | 0x82 => { tys := tyH }
  | 0x83 => { tys := tyH, mod8 := [0, 1] }
  | 0x84 => { tys := tyH ++ tyNarrow ++ [.i8, .i4], sat := x.ty == .i8 || x.ty == .i4, ext := 0xFF1F, mod8 := [0, 1] }
  | 0x85 | 0x86 | 0x87 | 0x88 | 0x89 | 0x8A | 0x8B => { tys := [.f32, .f16, .bf16] }
  | 0x8C =>
    let fl := tyH.contains x.ty || x.ty == .e4m3 || x.ty == .e5m2
    { tys := tyH ++ [.e4m3, .e5m2, .e2m1, .i8, .i4], sat := fl, rnd := fl || x.ty == .e2m1, ext := 0x00FF }
  | 0x8D => { tys := tyH ++ tyNarrow ++ [.i8, .i4], ext := 0x001F }
  | 0x8E => { tys := tyNarrow }
  | 0x8F => { tys := [.f32] }
  | _ => { tys := [.b32] }

/-- The row of DOT's format table (06 R177). -/
def dotRow : Ty → Nat
  | .f16 | .bf16 => 1
  | .e4m3 | .e5m2 | .e3m2 | .e2m3 => 2
  | .e2m1 => 3
  | .i8 => 4
  | .i4 => 5
  | _ => 0

/-- Values of an arithmetic form's fields that lie inside `accepts` and are still refused. -/
def arithOk (op : Nat) (x : Arith) : Bool :=
  let st := Ty.ofCode (x.fld 16 5)
  let stIn (l : List Ty) : Bool := match st with | some t => l.contains t | none => false
  let j := (x.fld 16 5).toNat
  match op with
  | 0x22 => (x.fld 19 4).toNat < 6
  | 0x48 => (x.fld 19 4).toNat < 8
  | 0x26 => stIn tyInt
  | 0x4C | 0x4D => stIn tyCvt
  | 0x4E => stIn tyCvtInt
  | 0x70 => x.fld 16 2 != 3#2
  | 0x73 =>
    (x.fld 16 2).toNat < 2 &&
    (match (x.fld 18 4).toNat with
      | 0 => x.ty == .b32
      | 1 | 2 | 3 => x.ty != .b32
      | 4 | 5 | 6 => x.ty == .b32
      | _ => false)
  | 0x74 => (x.fld 16 3).toNat < 5 && x.fld 20 3 != 7#3 && (x.fld 16 3 != 0#3 || x.fld 20 3 == 0#3)
  | 0x75 | 0x76 =>
    (match (x.fld 16 4).toNat with
      | 1 | 2 | 3 => tyRed.contains x.ty
      | 4 | 5 | 6 => tyB.contains x.ty
      | _ => false)
  | 0x78 => (x.fld 23 3).toNat < 6 && (x.fld 23 3 == 4#3 || x.fld 26 6 == 0#6)
  | 0x79 => x.fld 16 2 != 3#2
  | 0x84 =>
    let row := dotRow x.ty
    (match st with | some t => dotRow t == row && row != 0 | none => false)
      && (if x.mod8 == 1#8 then row == 2 || row == 3 else x.fld 24 8 == 0#8)
  | 0x8C =>
    let src := x.fld 21 3
    (match x.ty with
      | .f16 | .bf16 => src == 0#3 && j == 0
      | .e4m3 | .e5m2 => src == 0#3 && (j == 0 || j == 2)
      | .e2m1 => src == 0#3 && (j == 0 || j == 2 || j == 4 || j == 6)
      | .i8 => src == 1#3 && (j == 0 || j == 2)
      | .i4 => src == 1#3 && (j == 0 || j == 2 || j == 4 || j == 6)
      | _ => false)
  | 0x8D => x.ty.width * j + x.ty.width ≤ 32
  | _ => true

def legalArith (op : Nat) (x : Arith) (badM : Bool) : Bool :=
  let r := accepts op x
  !badM && r.tys.contains x.ty && (!x.sat || r.sat) && (x.rnd == 0#3 || (r.rnd && x.rnd.toNat ≤ 4))
    && (x.ext &&& ~~~r.ext) == 0#16 && r.mod8.contains x.mod8 && arithOk op x

/-- The memory form (09 R220, R221, R224, R226, R232, R237, R238). -/
def legalMem (op : Nat) (x : Memf) : Bool :=
  let ordOk := (x.ord != 0#2 || (x.agent == 0#3 && x.store == 0#2)) && x.agent != 7#3
  let hint := x.mod8.extractLsb' 0 2
  let up6 := x.mod8.extractLsb' 2 6
  let aop := (x.mod8.extractLsb' 0 5).toNat
  let opTy : Bool := match aop with
    | 0 | 1 | 2 => tyAtom.contains x.ty
    | 3 | 4 | 5 | 6 | 7 => tyB.contains x.ty
    | _ => false
  ordOk && (match op with
  | 0x90 => tyLd.contains x.ty && (x.ord == 0#2 || x.ord == 1#2) && hint != 3#2 && up6 == 0#6
  | 0x91 => tyLd.contains x.ty && (x.ord == 0#2 || x.ord == 2#2) && (hint == 0#2 || hint == 1#2) && up6 == 0#6
  | 0x92 =>
    let n := x.mod8.extractLsb' 4 2
    (x.ord == 0#2 || x.ord == 1#2) && hint != 3#2 && x.mod8.extractLsb' 6 2 == 0#2 && x.mod8.extractLsb' 2 2 != 3#2
      && (match x.ty with
        | .e4m3 | .e5m2 => n == 0#2 || n == 1#2
        | .e3m2 | .e2m3 => n == 1#2
        | .e2m1 => n == 1#2 || n == 2#2
        | _ => false)
  | 0x93 => opTy && x.mod8.extractLsb' 5 3 == 0#3
  | 0x94 => opTy && aop < 6 && (x.ord == 0#2 || x.ord == 2#2) && x.mod8.extractLsb' 6 2 == 0#2
  | 0x95 => x.ord != 0#2 && x.off == 0#20 && x.ty == .b32 && x.mod8 == 0#8
  | 0x97 => x.ord == 0#2 && x.ty == .b32 && up6 == 0#6 && hint.toNat < 2
  | 0x98 | 0x99 => x.ord == 0#2 && x.ty == .b32 && up6 == 0#6 && hint.toNat < 3
  | _ => false)

/-- System register numbers that a chapter defines (04 R131), with true for an indexed family. -/
def sysRegs : List (Nat × Bool) :=
  [(0x001, false), (0x002, false), (0x003, false), (0x004, false), (0x005, false), (0x006, false), (0x007, false),
   (0x010, false), (0x011, false), (0x020, false), (0x021, false), (0x022, false), (0x023, false), (0x024, false),
   (0x025, false), (0x026, false), (0x027, false), (0x028, false), (0x029, false), (0x02A, false), (0x02B, false),
   (0x02C, false), (0x030, false), (0x031, false), (0x032, false), (0x033, false), (0x040, false), (0x041, false),
   (0x042, false), (0x043, true), (0x044, true), (0x050, false), (0x051, true), (0x052, false), (0x060, false),
   (0x061, false), (0x062, false), (0x063, false), (0x070, false), (0x080, false), (0x081, false), (0x090, true),
   (0x091, false)]

/-- Element width and accepted modifiers of ACCST (13 R311); `none` for a code that is not a format it drains to. -/
def accstRowBytes (dt : Ty) : Option Nat :=
  match dt with
  | .b32 => some 64
  | .f16 | .bf16 => some 32
  | .e4m3 | .e5m2 | .i8 => some 16
  | .e3m2 | .e2m3 => some 12
  | .e2m1 | .i4 => some 8
  | _ => none

def legalAccst (w2 : BitVec 32) : Bool :=
  let sat := w2.getLsbD 2
  let mx := w2.getLsbD 1
  let g := w2.extractLsb' 4 2
  let pitch := (w2.extractLsb' 16 16).toNat
  (w2 &&& 0x0000E0C8#32) == 0#32 &&
  match Ty.ofCode (w2.extractLsb' 8 5) with
  | none => false
  | some dt =>
    match accstRowBytes dt with
    | none => false
    | some rb =>
      (pitch == 0 || (pitch % 4 == 0 && rb ≤ pitch)) && g != 3#2 &&
      (match dt with
        | .b32 => !sat && !mx && g == 0#2
        | .f16 | .bf16 => !mx && g == 0#2
        | .e4m3 | .e5m2 => !(sat && mx) && g == 0#2
        | .e3m2 | .e2m3 | .e2m1 => !sat && g == 0#2
        | _ => !sat && !mx)

/-- The descriptor form: Mod8 is zero, and word 2 holds only the bits the description defines. -/
def legalDesc (op : Nat) (x : Desc) : Bool :=
  let only (mask : BitVec 32) : Bool := (x.w2 &&& ~~~mask) == 0#32
  x.mod8 == 0#8 && (match op with
  | 0x60 | 0x61 => true
  | 0x68 => only 0x3F3F3F3F#32
  | 0xB0 | 0xBA | 0xC4 | 0xC6 | 0xD2 | 0xDA | 0xE2 | 0xE3 | 0xE4 | 0xE5 => only 1#32
  | 0xB1 => only 3#32
  | 0xB4 | 0xB6 | 0xBB | 0xBC | 0xBD | 0xE7 => only 7#32
  | 0xB5 => only 0xF#32
  | 0xBE => only 0x7F#32
  | 0xC0 => only 0x37#32 && (x.fld 4 2) != 3#2 && (x.fld 0 3).toNat < 6
  | 0xC2 => only 7#32
  | 0xC7 => legalAccst x.w2
  | 0xE0 | 0xE1 =>
    only 0x8FFF#32 && (match sysRegs.find? (fun p => p.1 == (x.fld 0 12).toNat) with
      | some (_, true) => true
      | some (_, false) => x.b == .zero
      | none => false)
  | _ => only 0#32)

/-- True for a sub-opcode and type that 02 R53 lists. -/
def legalHalf (h : Half) : Bool :=
  match h.sub.toNat with
  | 0x00 | 0x01 | 0x02 | 0x03 | 0x04 | 0x05 => h.ty == .f32
  | 0x06 | 0x07 | 0x08 => h.ty == .f16 || h.ty == .bf16
  | 0x40 | 0x41 | 0x42 | 0x43 => h.ty == .b32 || h.ty == .i32 || h.ty == .n32
  | 0x44 | 0x45 | 0x46 | 0x47 | 0x48 | 0x49 | 0x4A | 0x4B => h.ty == .b32
  | 0x4C | 0x4D => h.ty == .i32 || h.ty == .n32
  | _ => false

/-- The v registers that a list of uses reads. -/
def vSources (us : List Use) : List (BitVec 8) :=
  us.filterMap fun u => match u with
    | .src (.v n) _ => some n
    | _ => none

/-- 02 R54: classes, destination banks, shared o or k destinations, and the limit of three v sources. -/
def pairOk (x : Pair) : Bool :=
  x.h0.sub.getLsbD 6 != x.h1.sub.getLsbD 6
  && (match x.h0.d, x.h1.d with
    | .v m, .v n => m.toNat % 4 != n.toNat % 4
    | .k m, .k n => m != n
    | .o m, .o n => m != n
    | _, _ => true)
  && (vSources (usesHalf x.h0) ++ vSources (usesHalf x.h1)).eraseDups.length ≤ 3

def View.legal : View → Bool
  | .arith op x badM => legalArith op x badM
  | .mem op x => legalMem op x
  | .desc op x => legalDesc op x
  | .svc _ _ _ => true
  | .cb _ _ => true
  | .pair x => legalHalf x.h0 && legalHalf x.h1 && pairOk x

def View.hasLit : View → Bool
  | .arith _ x _ => x.lit.isSome
  | .mem _ x => x.lit.isSome
  | .desc _ x => x.lit.isSome
  | .pair x => x.lit.isSome
  | _ => false

/-- The ILLEGAL checks that the words alone decide (02 R44, R48, R49, R54, R58). -/
def Instr.legal (i : Instr) : Bool :=
  match i.view with
  | some v => v.legal && v.uses.all Use.ok && (v.hasLit == v.uses.any Use.literal)
  | none => true

/-- Decoding, total on any words: the instruction, or why the encoding raises ILLEGAL (02 R58). -/
def decode (ws : List Word) : Except Illegal Instr :=
  match parse ws with
  | .ok i => if i.legal then .ok i else .error .check
  | .error r => .error r

/-- Word i of an instruction whose bits, numbered from bit 0 of word 0, are w (02 R52). -/
def wordsOfNat (n w : Nat) : List Word :=
  (List.range n).map fun i => BitVec.ofNat 32 (w >>> (32 * i))

/-- What the decoder reads from an instruction given as a number of nbits bits, the bits above them zero. -/
def decodeTableWord (nbits w : Nat) : Option Instr :=
  match decode (wordsOfNat 5 (w % 2 ^ nbits)) with
  | .ok i => some i
  | .error _ => none

end Sys2Proof
end

