-- ==== Sys2Proof/Config.lean ====
section
/-! DEFINITION. Values that the manual leaves to the implementation or leaves undefined: opaque constants, or functions of them. Nothing in
Lean can evaluate it, so a claim holds whatever it is. -/

namespace Sys2Proof.Config

/-- Byte n of the undefined contents of a stack window at thread start (07 R187; log 9). -/
opaque stackByte : Nat → Nat → BitVec 8

/-- SHAKE256 of a list of bytes (23 R435, R437; log 4). -/
opaque shake256 : List (BitVec 8) → List (BitVec 8)

/-- Whether a signature (the third argument, which begins there) of a digest verifies against a public key: XMSS-SHAKE256_20_256
(23 R435; log 4). -/
opaque xmssVerify : List (BitVec 8) → List (BitVec 8) → List (BitVec 8) → Bool

/-- The Merhal public key held in the mask ROM (23 R435; log 4). -/
opaque romKey : List (BitVec 8)

/-- The physically unclonable seed, and the fixed label that the identity key is derived with (23 R437; log 4). -/
opaque seed : List (BitVec 8)
opaque keyLabel : List (BitVec 8)

/-- The XMSS public key of a private key (23 R437; log 4). -/
opaque xmssPublic : List (BitVec 8) → List (BitVec 8)

/-- The XMSS signature of a private key at a leaf index over a list of bytes (23 R437; log 4). -/
opaque xmssSign : List (BitVec 8) → Nat → List (BitVec 8) → List (BitVec 8)

/-- The identity key: SHAKE256 of the seed and the label (23 R437). -/
def identityKey : List (BitVec 8) := shake256 (seed ++ keyLabel)

/-- The identity public key (23 R437). -/
def publicKey : List (BitVec 8) := xmssPublic identityKey

/-- The image's signature, at SIGOFF, verifies over the digest of the bytes before it, against the ROM's key (23 R435 step 3). -/
def imageVerifies (sigoff : Nat) (img : List (BitVec 8)) : Bool := xmssVerify romKey (shake256 (img.take sigoff)) (img.drop sigoff)

/-- The configuration block of a verified image: the manual gives the fields it must hold and not where each lies
(23 R435; log 4). `loadImage` says which field each number is. -/
opaque imageField : List (BitVec 8) → Nat → Nat

/-- Read of a group's register (number, index) by a thread that belongs to no group, for which the manual states no value
(log 10). -/
opaque sysReg : Nat → Nat → Nat → BitVec 64

/-- A field of a ray's result record for which the manual states no value in the walk's outcome: ray and field (log 11). -/
opaque rayField : Nat → Nat → BitVec 64

end Sys2Proof.Config
end

