-- ==== Sys2Proof/Machine/State.lean ====
section
/-! DEFINITION. The state of the module as plain data: threads, groups, launches, memory, engines, units, queues and the
outside's pending inputs. INVENTORY.md, "## State", lists every piece with its rule. -/

namespace Sys2Proof.Machine

/-! ### Traps -/

/-- Synchronous trap causes (17 R357). -/
inductive Cause where
  | illegal | unimpl | priv | misalign | range | page | prot | owner | shape | desc | scale | slot | harness | brk
  | stack | fabric | machine | svc
  deriving DecidableEq, Repr

/-- A failed access: its cause, and for FABRIC the DETAIL field of the frame (20 R417). -/
structure Fail where
  cause : Cause
  detail : Word := 0
  deriving DecidableEq, Repr

/-- What a frame or a record says of a trap (17 R362, R372). -/
structure Trap where
  cause : Cause
  pc : Dword
  words : List Word := []
  addr : Dword := 0
  detail : Word := 0
  defer : Bool := false
  order : Nat := 0           -- program order of the instruction that raised it
  dst : Opnd := .zero        -- destination of a faulted load (R359)
  wide : Nat := 0            -- its width in bits
  deriving DecidableEq, Repr

/-! ### Memory -/

/-- Bytes by address, addresses rising, zero bytes not listed. -/
abbrev Memory := List Host.Cell

/-- Ordering fields of a memory instruction (08 R202). -/
structure Order where
  acq : Bool := false
  rel : Bool := false
  agent : Nat := 0
  store : Nat := 0
  deriving DecidableEq, Repr

/-- Where the bytes of an access lie (07 R185, 08 R200, 20 R402). -/
inductive Place where
  | spad (off : Nat)
  | stack (off : Nat)
  | dram (pa : Nat) (cache : Nat)                -- local LPDDR, with the leaf's CACHE field
  | host (site pa cache : Nat)                   -- host memory through a host site
  | pcie (port pa : Nat)
  | remote (dev pa : Nat) (cache : Nat)          -- another device of the fabric
  | window (w : Nat)                             -- an arrival window of this device
  | table (pa : Nat)                             -- the access table
  | waiting (tag : Nat)                          -- a page request is outstanding (18 R391)
  | failed (f : Fail) (at_ : Dword)              -- abandoned; its deferred trap is due (17 R359)
  | nowhere                                      -- completes with no effect (09 R237)
  deriving DecidableEq, Repr

/-- What an outstanding access does (04 R128, 09, 15 R347). -/
inductive MemOp where
  | ld (ty : Ty)
  | ldmx (dt : Nat) (n : Nat) (fmt : Ty) (scale : BitVec 8)
  | atom (ty : Ty) (op : Nat) (b c : Dword)
  | sg (kind : Nat) (index : Nat) (reward : Word)   -- kind: 0 SGPOST, 1 SGCANCEL, 2 SGCANCEL.all, 3 SGSTAT
  | st (data : List Byte)
  | red (ty : Ty) (op : Nat) (b : Dword) (slot : Option Nat)
  | cwb (level : Nat)
  | cinval (level : Nat)
  deriving DecidableEq, Repr

/-- An operation a thread has issued and not completed (01 R28). `id` is its place in program order. -/
structure Access where
  id : Nat
  issue : Nat               -- shared by the members of one issue (07 R193)
  pc : Dword
  words : List Word
  va : Dword
  size : Nat
  sup : Bool                -- issued in supervisor mode
  place : Place
  level : Nat := 1          -- level of the leaf that its first byte is reached through (18 R388)
  tail : Option (Nat × Place) := none   -- where the bytes after the first few lie, when it crosses a page
  tailLevel : Nat := 1      -- level of the leaf that those bytes are reached through
  op : MemOp
  dst : Opnd := .zero       -- destination of a load
  order : Order := {}
  waits : List Nat := []    -- accesses that must complete to scope before this write performs (08 R204)
  fixed : Bool := false     -- the read's value is fixed, or the write has performed
  half : Nat := 0           -- which halves of a 16-byte remote access are done: bit 0 the low one, bit 1 the high one (08 R211)
  hint : Nat := 0           -- 0 none, 1 `.ef`, 2 `.nl0` (09 R221)
  sent : Bool := false      -- its request has left for the fabric or port (20 R414)
  counted : Bool := true    -- it counts in its thread's counter (01 R28)
  vis : Bool := false       -- an unperformed write that threads of its core read (08 R205, R206)
  queued : Nat := 0         -- when it entered the queues of its banks; 0 while it is held before them (07 R192)
  value : List Byte := []   -- the bytes read, or the result of an event
  deps : List Nat := []     -- writes that a release at group scope put before this write (08 R207, R208)
  after : List Nat := []    -- earlier writes that a window write follows whatever its ORD (20 R412)
  bufs : List (Nat × List Byte) := []   -- buffered bytes of its thread that a far read returns, by address (17 R380)
  flags : BitVec 5 := 0
  buffered : Bool := false  -- in the release buffer of an OPEN region (17 R380)
  uncovered : Option Fail := none   -- how a write has failed that the release half of a `.cas`, or a release that waits for its page, covers (08 R205)
  born : Nat := 0           -- cycle of issue
  deriving DecidableEq, Repr

/-- A release fence that holds later writes (09 R235). -/
structure Fence where
  id : Nat
  pc : Dword
  words : List Word
  order : Order
  waits : List Nat
  deriving DecidableEq, Repr

/-! ### Threads -/

/-- What executes the sequential machine (00 R3): SX.UNIT 0, 1, 2. -/
inductive UnitKind where
  | device | intersection | service
  deriving DecidableEq, Repr

/-- SX.ORIGIN (05 R143). -/
inductive Origin where
  | launch | spawn | slot | engine
  deriving DecidableEq, Repr

/-- The set a JOIN names (05 R148). -/
inductive JoinSet where
  | stage | group | mask (m : Word)
  deriving DecidableEq, Repr

/-- The payload of a BAR (06 R165). -/
structure BarPay where
  op : Nat
  ty : Ty
  value : Word
  d : Opnd
  deriving DecidableEq, Repr

/-- Reads, or for a full fence accesses, that hold later accesses of a storage (08 R204, R209). `all`: an acquire LD holds
every later access (09 R222). -/
structure Acq where
  waits : List Nat
  upto : Order := {}        -- the scope to which they must complete
  order : Order             -- the storage that is held
  all : Bool := false
  at_ : Nat := 0            -- its place in program order
  fence : Nat := 0          -- the full fence whose acquire half it is; 0 none (08 R209)
  deriving DecidableEq, Repr

/-- Why a thread is held at its instruction, with the operands it read (05 R144, R158). -/
inductive Hold where
  | none
  | join (set : JoinSet)
  | bar (n : Nat) (grp : Bool) (pay : Option BarPay)
  | svc (tag : Nat) (d : Opnd)
  | spawn (issue : Nat) (entry arg : Dword)
  | swait (mask : Dword) (all : Bool) (pd : Nat) (d : Opnd)
  | sacq (slot : Nat) (pd : Nat)
  | qpush (q : Nat) (value : Dword)
  | qpop (q : Nat) (d : Opnd)
  | sreset (slot : Nat)
  | take (blocks : List Nat) (cmds : List Nat)
  | takeWin (cmds : List Nat)
  | yield_ (left : Nat)
  | exit_
  | trace (ray : List Byte) (addr : Dword)
  | pairs (desc : List Byte) (addr : Dword)
  | isload (addr : Dword) (n : Nat) (lock : Bool)
  | sgfork (desc : Dword) (pa cache : Nat) (n : Nat) (entry : Dword) (sent : Bool)
  | hitch (w dp : Nat)                       -- logarithms of W and Dp
  | unhitch
  | mma (block : List Byte) (slot : Option Nat)
  | parked (tag : Nat) (va : Dword)          -- the instruction retries when the page request is answered
  | window (dev : Nat)                       -- the send window has no room (20 R415)
  | trap (tr : Trap)                         -- a precise trap that waits for the registers of its frame (log 70)
  | qwait (mask : Word)
  deriving DecidableEq, Repr

/-- Region state of 17 R379. -/
inductive Region where
  | none
  | opened (start : Dword) (since : Nat)   -- since: identifiers of its accesses are not below this
  | committed
  deriving DecidableEq, Repr

/-- The four counters of 01 R28. -/
structure Counters where
  loads : Nat := 0
  stores : Nat := 0
  copies : Nat := 0
  tiles : Nat := 0
  deriving DecidableEq, Repr

/-- The state of one thread (01 R13) with where it runs. -/
structure Thread where
  id : Nat
  unit : UnitKind
  group : Nat := 0               -- its group; for an intersection core, its ray
  pc : Dword
  alloc : Nat                    -- v allocation in words (01 R14)
  v : Vector Word 256 := Vector.replicate 256 0
  o : Vector Word 8 := Vector.replicate 8 0
  y0 : Dword := 0
  y1 : Dword := 0
  p : BitVec 7 := 0
  status : Word := 0
  cnt : Counters := {}
  sup : Bool := false            -- mode: true in supervisor mode
  tstate : Word := 0
  tframe : Dword := 0            -- SX.TFRAME of a service-processor thread
  tvec : Dword := 0              -- SX.TVEC of a service-processor thread
  stage : Nat := 0
  tid : Nat := 0
  lane : Nat := 0
  count : Nat := 0               -- threads of a spawned group, 0 otherwise
  origin : Origin := .launch
  stk : List Host.Cell := []     -- written bytes of the stack window
  ops : List Access := []
  fences : List Fence := []
  acqs : List Acq := []          -- acquires that hold its later accesses (08 R204)
  relAt : Option Fence := none   -- a release side at whose instruction it waits (08 R205, R213)
  saw : List Nat := []           -- unperformed writes of others that happen before what it does next (08 R204, R208)
  heard : List Nat := []         -- such writes behind a release that it has read and not acquired (08 R207)
  relDeps : List Nat := []       -- writes behind its latest release fences at group scope (08 R207)
  pend : List Trap := []         -- pending deferred traps (17 R359)
  must : Bool := false           -- they are taken at the next boundary (17 R359, R376)
  park : Bool := false           -- parked behind an access of its own that waits for a page (18 R391)
  hold : Hold := .none
  holdWords : List Word := []    -- the instruction it is held at
  holdSeq : Nat := 0             -- when it began to wait, in the module's order
  holdAt : Nat := 0              -- cycle
  region : Region := .none
  halted : Option Trap := none
  nested : Bool := false
  haltAt : Nat := 0
  recorded : Bool := false       -- its fault record is written
  exited : Bool := false
  fresh : Nat := 0               -- length of the code-write log at its last IFENCE
  ready : Option Nat := none     -- since when it is ready at a key that is not whole and has not issued (05 R145)
  issued : Nat := 0              -- instructions of an intersection program (14 R333)
  budget : Nat := 0              -- how many it may issue
  fetchTag : Option Nat := none  -- the page request of its fetch (18 R391)
  deriving DecidableEq, Repr

/-! ### Launches, groups -/

/-- An entry header (02 R66). -/
structure Header where
  threads : List Nat := [0, 0, 0, 0]
  regs : List Nat := [0, 0, 0, 0]
  uniforms : Nat := 0
  scratch : Nat := 0
  slots : Nat := 0
  accwin : Nat := 0
  awin : Nat := 0
  tvec : Word := 0
  deriving DecidableEq, Repr

/-- An address space (18 R385). -/
structure Space where
  asid : BitVec 16 := 0
  root : Nat := 0
  five : Bool := false
  site : Nat := 0
  deriving DecidableEq, Repr

/-- A registered continuation (11 R246). -/
structure Cont where
  entry : Dword
  arg : Dword
  deriving DecidableEq, Repr

/-- An event of a source held until its turn (11 R248); `bad`: it breaks 20 R412. -/
structure HeldEvent where
  seq : BitVec 16
  a : Nat
  x : Nat
  b : Nat
  bad : Bool := false
  deriving DecidableEq, Repr

/-- What one source has numbered on a slot (11 R248). -/
structure SlotSource where
  source : Word
  next : BitVec 16 := 0
  held : List HeldEvent := []
  deriving DecidableEq, Repr

/-- A completion slot (11 R242). -/
structure Slot where
  armed : Bool := false
  target : BitVec 16 := 0
  remain : BitVec 16 := 0
  pending : BitVec 28 := 0
  phase : Bool := false
  ready : Bool := false
  fault : Bool := false
  cont : Option Cont := none
  sources : List SlotSource := []
  deriving DecidableEq, Repr

/-- A tile queue (11 R266). -/
structure TQueue where
  init : Bool := false
  cap : Nat := 0
  head : Nat := 0
  count : Nat := 0
  ring : Nat := 0              -- scratchpad offset of the ring
  deriving DecidableEq, Repr

/-- State of a B-store copy (12 R280). -/
inductive CopyState where
  | empty | loading | valid | broken
  deriving DecidableEq, Repr

/-- Kind of a B-store copy (12 R280). -/
inductive CopyKind where
  | dense | values | meta_
  deriving DecidableEq, Repr

/-- Where a BLOAD read a copy (12 R282), and the thread, PC and words of that BLOAD. -/
structure CopySource where
  src : Dword := 0              -- its address, or its scratchpad offset
  spad : Bool := false
  thread : Nat := 0
  pc : Dword := 0
  words : List Word := []
  deriving DecidableEq, Repr

/-- One copy of a frame: 4,096 bytes in one plane (12 R278). -/
structure FrameCopy where
  st : CopyState := .empty
  kind : CopyKind := .dense
  pair : Nat := 0               -- the BLOAD that wrote it, shared by a `.sp` pair
  source : CopySource := {}     -- of the BLOAD that has taken it
  old : Option CopySource := none   -- of the bytes that stand in it, until that BLOAD replaces them
  due : Bool := false           -- its reload is still to come (12 R293)
  tag : Option Nat := none      -- the page request of its reload
  data : Memory := []
  deriving DecidableEq, Repr

/-- A frame index with its two planes (12 R278). -/
structure Frame where
  index : Nat
  live : Bool := false          -- LIVE: the plane whose copy is live
  fresh : Bool := false
  plane0 : FrameCopy := {}
  plane1 : FrameCopy := {}
  deriving DecidableEq, Repr

/-- A hitched group's place (12 R273). -/
structure Hitched where
  w : Nat                       -- log2 W
  dp : Nat                      -- log2 Dp
  deriving DecidableEq, Repr

/-- What an engine command does (11 R256 to R261, 12 R286, 13 R302, R308). -/
inductive CmdKind where
  | copy (dst src : Dword) (n : Nat)
  | copyt (load : Bool) (a : Nat) (shape : List Byte) (c : List Word)   -- a: scratchpad offset
  | bload (frame : Nat) (sp hold : Bool) (src : Dword) (spad : Bool) (planes : List Bool)
  | grid (op : Nat) (block : List Byte) (dp x z : Nat)      -- z of dp along K, x along N (12 R273)
  | accz (r0 n : Nat)
  | accld (a r0 n : Nat)
  | accst (a r0 n : Nat) (w2 : Word)
  deriving DecidableEq, Repr

/-- An engine command issued and not retired (11 R265). -/
structure Cmd where
  id : Nat                      -- its place in the module's issue order
  seq : Nat := 0                -- its place in its group's issue order
  thread : Nat
  pc : Dword
  words : List Word
  kind : CmdKind
  slot : Option Nat := none
  left : List (Nat × Nat) := [] -- bytes of a copy or BLOAD not yet written: offset and length of each run
  started : Bool := false       -- it has begun to access its words (13 R314)
  sent : Nat := 0               -- bytes its slot events have carried
  fault : Option (Fail × Dword) := none
  tag : Option (Nat × Dword) := none   -- a page request it waits for, and the address that needs the page
  before : List Nat := []       -- accesses of its thread to the same bytes, which come first (01 R25)
  flags : BitVec 5 := 0
  deriving DecidableEq, Repr

/-- A drain record's contents (12 R292). -/
structure Drain where
  op : Nat
  bytes : List Byte
  deriving DecidableEq, Repr

/-- Where a group is (17 R375, 05 R159). `restoring`: placed again, its harness not yet restored (12 R293). `retained`: freed, but
for slots with a registered continuation (11 R247). -/
inductive Residency where
  | running | saved | evicted | restoring | ended | retained
  deriving DecidableEq, Repr

/-- A group (05 R135). -/
structure Group where
  id : Nat
  launch : Nat
  gang : Nat                    -- identifier of its gang
  gangIdx : Nat := 0            -- the gang's index in the launch
  idx : Nat := 0                -- index in the gang
  spawned : Nat := 0            -- threads of a spawned group, 0 otherwise
  quad : Nat := 0
  core : Nat := 0               -- core position: cluster * 32 + core
  res : Residency := .running
  hdr : Header := {}
  entry : Dword := 0
  k : Vector Dword 256 := Vector.replicate 256 0
  kdeps : List (Nat × List Nat) := []    -- unperformed writes behind the release fences that preceded writes of k registers (08 R214)
  spad : Memory := []
  engine : List Nat := []       -- engine-owned blocks (11 R262), rising
  taking : List Nat := []       -- blocks under a pending TAKE (11 R264)
  slots : List Slot := []
  queues : List TQueue := []
  acc : Memory := []            -- accumulator window, 4 bytes a word: word 128*i + lane
  awin : Memory := []
  hitched : Option Hitched := none
  frames : List Frame := []
  cmds : List Cmd := []
  seq : Nat := 0                -- commands issued
  tvec : Dword := 0
  tileFlags : BitVec 5 := 0
  drains : List Drain := []
  mail : List (Nat × Dword) := []    -- replies for a saved group (17 R377)
  deriving DecidableEq, Repr

/-- Fields of a launch record (05 R140). -/
structure LaunchRec where
  addr : Dword := 0
  cls : Nat := 0
  entry : Dword := 0
  lx : Nat := 1
  ly : Nat := 1
  lz : Nat := 1
  gx : Nat := 1
  gy : Nat := 1
  gz : Nat := 1
  shape : List (Nat × Nat × Nat) := []
  poolAddr : Dword := 0
  poolCap : Nat := 0
  binTimer : Nat := 0
  faultq : Dword := 0
  flagWord : Dword := 0
  stack : Nat := 0
  hints : List Byte := []
  deriving DecidableEq, Repr

/-- A pending thread of a spawn pool (05 R149). `index` is its record's place in the pool area. -/
structure PendThread where
  entry : Dword
  arg : Dword
  origin : Origin
  index : Nat := 0
  stored : Bool := true         -- its record is written
  lost : Bool := false          -- the write of its record failed
  src : Nat := 0                -- the walk or sample group whose end inserts it
  deriving DecidableEq, Repr

/-- A spawn bin (05 R149 to R151). -/
structure Bin where
  entry : Dword
  threads : List PendThread
  opened : Nat                 -- order of opening
  timer : Nat := 0             -- cycle from which its timer counts
  deriving DecidableEq, Repr

/-- A gang waiting for placement, with the groups to place: new, spawned or saved (21 R428). -/
structure Gang where
  id : Nat
  launch : Nat
  index : Nat := 0
  size : Nat := 1
  entry : Dword := 0                    -- of a spawned group: its bin's entry
  spawned : List PendThread := []       -- of a spawned group
  saved : List Nat := []                -- groups to restore
  reserve : Option Nat := none          -- the reserved cluster
  cores : List Nat := []                -- cores of it already reserved
  since : Nat := 0                      -- cycle of its first reservation
  aged : Bool := false                  -- it has waited 1,400,000 cycles (21 R429)
  at_ : Option Nat := none              -- the core position it returns to on a spare (17 R383)
  tag : Option Nat := none              -- page request of a spawned group's header read
  deriving DecidableEq, Repr

/-- Where a launch stands: `ending` after `.end`, `done` when DONE has been queued. -/
inductive LaunchState where
  | live | saving | saved | ending | done
  deriving DecidableEq, Repr

/-- A launch (05 R140, 21 R424). -/
structure Launch where
  id : Nat
  queue : Nat
  lr : LaunchRec
  hdr : Header
  uniforms : List Dword := []
  space : Space := {}
  state : LaunchState := .live
  accepted : Nat := 0
  bins : List Bin := []
  waiting : List PendThread := []       -- event insertions waiting for room (05 R154)
  flagOrs : List (BitVec 5) := []       -- ORs of the sticky flag word not yet performed (09 R229)
  flagTag : Option Nat := none          -- the page request of the first of them
  records : List (List Byte) := []      -- fault records waiting for a page of the fault queue (17 R371)
  tag : Option Nat := none              -- the page request of the oldest of those
  poolTag : Option Nat := none          -- the page request of a pool record not yet written (05 R149)
  notify : Nat := 0                     -- PREEMPTED events owed
  pausedAt : Option Nat := none         -- since when its groups are saved by `.preempt` (05 R151)
  deriving DecidableEq, Repr

/-! ### Engines and units -/

/-- A grid operation of a gang (13 R302). -/
structure GridOp where
  id : Nat
  gang : Nat
  members : List (Nat × Nat)            -- group, command
  blocks : List (Nat × List Byte)       -- each group's parameter block
  planes : List (Nat × Nat × Bool)      -- resolved copies: group, frame, plane
  pass : Nat := 0                       -- passes finished
  rows : Nat := 0                       -- rows of the current pass admitted
  flags : BitVec 5 := 0
  fault : Option (Fail × Dword) := none
  deriving DecidableEq, Repr

/-- What a program, or its end, said of one candidate (14 R333, R334). -/
inductive Verdict where
  | acc (t attr : Word) (last : Bool)                -- ISACC; ISEND when `last`
  | rej
  | budget                                           -- stopped at its budget
  | fault (reason : Nat) (at_ : Dword)
  deriving DecidableEq, Repr

/-- A candidate for which a program runs (14 R334). -/
structure Cand where
  leaf : Dword
  entry : Nat
  prim : Word
  user : Word := 0
  t : Word := 0
  u : Word := 0
  v : Word := 0
  tc : Word                             -- the limit at which it runs
  prog : Nat
  proc : Bool
  back : Bool := false
  leafId : Word
  deriving DecidableEq, Repr

/-- A ray in a traversal unit (14 R324, R331). -/
structure Ray where
  id : Nat
  cluster : Nat
  launch : Nat
  record : List Byte                    -- the 64-byte ray record
  seen : List (List Byte) := []         -- records the walk has read, in order
  verdicts : List Verdict := []         -- of candidates that needed a program, in walk order
  cand : Option Cand := none            -- the candidate whose program runs
  prog : Option Nat := none             -- the intersection core running for it (a thread)
  ended : Bool := false                 -- its insertion waits for room
  deny : Option (Dword × Fail) := none  -- a page of it that its host has refused, or whose table cannot be read (18 R393, 20 R417)
  tag : Option Nat := none
  deriving DecidableEq, Repr

/-- Why a pair walk has stopped: status, cause, address, and the path that CURSOR names (14 R336 to R340). -/
structure PairStop where
  status : Nat
  reason : Nat := 0
  addr : Dword := 0
  path : List Nat := []
  deriving DecidableEq, Repr

/-- A PAIRS walk (14 R336 to R340). -/
structure PairWalk where
  id : Nat
  cluster : Nat
  launch : Nat
  desc : List Byte
  addr : Dword
  seen : List (List Byte) := []         -- records the walk has read, in order
  placed : Nat := 0                     -- pairs of the walk's order already placed
  emitted : Word
  seq : Word
  spill : Word
  stop : Option PairStop := none
  ended : Bool := false                 -- its insertion waits for room
  deny : Option (Dword × Fail) := none  -- a page of it that its host has refused, or whose table cannot be read (18 R393, 20 R417)
  tag : Option Nat := none
  deriving DecidableEq, Repr

/-- An entry of a base tile's timer table: an open sample group (15 R346, R352). -/
structure SgEntry where
  id : Nat
  pa : Nat
  va : Dword
  launch : Nat
  timer : Nat                           -- cycle from which its timer counts
  limit : Nat
  cache : Nat := 0                      -- CACHE of the leaf through which it lies (18 R387)
  stale : Bool := false                 -- a shoot-down has covered its translation (18 R394)
  written : Nat := 0                    -- the count that ELAPSED was last given
  closing : Bool := false               -- closed; its writes and its continuation are still to come
  status : Nat := 0                     -- STATUS to write at the end of the close
  ok : Bool := true                     -- every write of the close so far has succeeded
  adv : List (Dword × Word) := []       -- advantage words still to write
  ended : Bool := false                 -- its insertion waits for room
  deny : Option (Dword × Fail) := none  -- a page of it that its host has refused, or whose table cannot be read (18 R393, 20 R417)
  tag : Option Nat := none
  deriving DecidableEq, Repr

/-! ### Queues, page requests, host -/

/-- An event of a service-processor thread's list (21 R423). -/
structure Event where
  kind : Nat
  code : Nat := 0
  eid : Nat := 0
  tag : Word := 0
  datum : Dword := 0
  deriving DecidableEq, Repr

/-- A launch queue as the service processor keeps it (21 R423, R426). -/
structure Queue where
  events : List Event := []
  room : Bool := false                  -- a ROOM event is owed (21 R424)
  done : List (List Byte) := []         -- completion records waiting for the ring (21 R426)
  tag : Option Nat := none              -- the page request that firmware's thread waits for
  failed : Bool := false                -- that request was answered with a failure
  start : Option Dword := none          -- the launch record that firmware is starting (21 R427)
  urgent : List Nat := []               -- URGENT launches with gangs still to be placed (21 R427)
  paused : List (Nat × Nat) := []       -- an URGENT launch, 0 when it is complete, and one that was pre-empted for it
  deriving DecidableEq, Repr

/-- Kinds of access a page request names (18 R388). -/
inductive Kind where
  | read | write | fetch
  deriving DecidableEq, Repr

/-- An outstanding or waiting page request (18 R392), or a walk's read of a table that its host has not answered (20 R417). -/
structure PageReq where
  tag : Nat
  va : Dword
  asid : BitVec 16
  site : Nat
  src : Nat
  kinds : BitVec 3
  sent : Bool := false
  table : Option Nat := none            -- no request to the host's software: the read, in that cycle, of a table in host memory (20 R417)
  deriving DecidableEq, Repr

/-- A host site's control block (20 R407). -/
structure Control where
  prqBase : Nat := 0
  prqCap : Nat := 0
  prqHead : Word := 0
  prqTail : Word := 0
  sdDone : Dword := 0
  deriving DecidableEq, Repr

/-- A shoot-down not yet acknowledged (18 R394). -/
structure Shoot where
  id : Nat                              -- accesses of lower identifiers come before it
  site : Nat
  asid : BitVec 16
  base : Nat := 0
  pages : Nat := 0
  all : Bool := false
  deriving DecidableEq, Repr

/-- A cached translation (18 R390). -/
structure Tlb where
  asid : BitVec 16
  page : Nat                            -- 4 KiB page number of the virtual address
  entry : Dword                         -- the leaf
  level : Nat
  deriving DecidableEq, Repr

/-- A cached entry above a leaf (18 R390): the table that a walk of these upper address bits reaches. -/
structure WalkEntry where
  asid : BitVec 16
  level : Nat                           -- the level of the table it leads to
  upper : Nat                           -- the address bits above that table's reach
  table : Nat
  ea : Nat                              -- where the entry lies
  deriving DecidableEq, Repr

/-- Who makes a request that leaves the module for more than a thread's own access (20 R414): an engine command or a grid operation,
a walk, sample group or gang, the memory side of a launch (k: 0 fault records, 1 the sticky flag word, 2 pool records), a
thread's instruction or its fetch, firmware of a queue; nobody any more, or nobody of a launch that has ended. -/
inductive Owner where
  | cmd (c : Nat) | walk (w : Nat) | side (l k : Nat) | thread (t : Nat) | fetch (t : Nat) | queue (q : Nat) | module | gone (l : Nat)
  deriving DecidableEq, Repr

/-- What came back for a request. -/
inductive Answer where
  | none
  | data (bs : List Byte) (flags : BitVec 5)
  | fail (f : Fail)
  deriving DecidableEq, Repr

/-- A request of an engine, a walk or the memory side to another device or a PCIe port (20 R414): at most 256 bytes (R415). -/
structure FarReq where
  id : Nat
  owner : Owner
  place : Place
  req : Request
  size : Nat
  sent : Bool := false
  answer : Answer := .none
  born : Nat := 0
  va : Option Dword := none             -- the address that its owner asked for, wherever its page lies by now (18 R394)
  deriving DecidableEq, Repr

/-- A page-home move whose leaf has changed: its shoot-down, on this device and on others, and the return of its old frame are still to
come (18 R396). -/
structure HomeMove where
  queue : Nat
  va : Dword
  shoot : Shoot
  site : Nat
  frame : Place                         -- the old frame
  deriving DecidableEq, Repr

/-- A byte whose value was released at group scope, with the unperformed writes behind that release (08 R207, R208). -/
structure RelTag where
  place : Place
  group : Nat
  deps : List Nat
  deriving DecidableEq, Repr

/-- A request that an SVC sent (21 R423). -/
structure SvcReq where
  tag : Nat
  thread : Nat
  launch : Nat
  deriving DecidableEq, Repr

/-- The binding of an arrival window (20 R411). -/
structure Binding where
  window : Nat
  launch : Nat := 0
  group : Nat
  slot : Nat
  deriving DecidableEq, Repr

/-- What leaves the module: requests to the fabric and PCIe, and answers to them, to hosts and to management. -/
inductive Reply where
  | request (dest : Word) (pa : Nat) (op : Request)   -- dest: DETAIL's kind and number (20 R417)
  | data (to_ : Nat) (bytes : List Byte)
  | atomic (to_ : Nat) (old : List Byte) (flags : BitVec 5)
  | ack (to_ : Nat)
  | refused (to_ : Nat)
  | unsupported (to_ : Nat)
  | attest (bytes : List Byte) (signature : Option (List Byte))
  | busy
  | power (p : Power)
  | frame (site : Nat) (p : Place)                     -- an old frame goes back to a host (18 R396)
  deriving DecidableEq, Repr

/-- An entry of the management log (23 R433, R434, 21 R442). -/
inductive LogEntry where
  | bootReject (slot reason : Nat)
  | contained (x : Structure)
  | firmwareHalt (q : Nat)
  | badQueue (q field : Nat)
  | denied (master : Word)
  | fault (q : Nat) (e : Event)
  deriving DecidableEq, Repr

/-- Values loaded from the configuration image (23 R435); before an image is loaded they are zero (log 5). -/
structure Image where
  spBase : Dword := 0
  stkBase : Dword := 0
  kvec : Dword := 0
  devId : Nat := 0
  fabric : Bool := false                -- the image configures a fabric
  members : List Nat := []              -- device numbers of the partition
  homemap : Nat := 0
  qdesc : List Dword := List.replicate 64 0
  access : List (List Byte) := []       -- access-table entries
  limits : List (Nat × Nat) := []       -- send-window limits by destination
  fwSpace : Space := {}
  fwEntry : Dword := 0
  deriving DecidableEq, Repr

/-- A flash image slot (23 R435). -/
structure Flash where
  slot0 : List Byte := []
  slot1 : List Byte := []
  leaf : Nat := 0
  deriving DecidableEq, Repr

/-- A write of an instruction word, for the fetches that may still see the old word (01 R26). -/
structure CodeWrite where
  pa : Nat
  old : Byte
  deriving DecidableEq, Repr

/-- A modified SLC line with the bytes LPDDR still holds (23 R438). -/
structure DirtyLine where
  line : Nat
  old : List Byte
  deriving DecidableEq, Repr

/-- Corrected errors of one structure (17 R382). -/
structure ErrorCount where
  str : Structure
  times : List Nat := []
  lasting : Bool := false
  deriving DecidableEq, Repr

/-- Cached lines (07 R195 to R198), the oldest first; they hold no values of their own, since the levels are coherent. -/
structure Caches where
  l0 : List (Nat × Nat) := []           -- core, line
  l1 : List (Nat × Nat) := []           -- cluster, line
  l1mod : List (Nat × Nat) := []        -- lines that an L1 holds modified and has not written back to the SLC
  slc : List Nat := []
  host : List (Nat × Nat) := []         -- host site, line of device memory that it holds (20 R406)
  presence : List (Nat × Nat) := []     -- 512-byte region, bit: cluster 0-15 or host site 16-17
  dirty : List DirtyLine := []
  deriving DecidableEq, Repr

/-- What a step of the device acts on: identifiers and data of the step that runs. -/
structure StepArgs where
  t : Nat := 0
  op : Nat := 0
  g : Nat := 0
  l : Nat := 0
  q : Nat := 0
  n : Nat := 0
  a : Nat := 0
  va : Dword := 0
  data : List Byte := []
  cores : List Nat := []
  detail : Option (BitVec 8) := none
  early : Option Nat := none
  flags : BitVec 5 := 0
  str : Structure := .l0 0
  req : Request := .other
  power : Power := .run
  master : Word := 0
  deriving DecidableEq, Repr

/-- What moves next (log 2). -/
inductive Act where
  | issue (team : List Nat) (arg : StepArgs)   -- a core issues a team; data of reads that leave the module
  | event (i : Instr) (arg : StepArgs)  -- a step of the device
  | firmware (q : Nat)                  -- firmware of thread q serves its duties (21 R427)
  deriving DecidableEq, Repr

/-- The module. -/
structure State where
  -- the model's own fields: which agent moves next, the device's free choices, identifiers
  agenda : List (Nat × Act) := []       -- each with the cycles that pass before it
  oracle : List Nat := []
  nextId : Nat := 1
  team : List Nat := []
  arg : StepArgs := {}
  -- module
  cycle : Nat := 0
  timeSet : Dword := 0                  -- t_w of R32
  timeAt : Nat := 0                     -- c_w of R32
  booted : Bool := false
  power : Power := .run
  img : Image := {}
  flash : Flash := {}
  fwVer : Word := 0
  bootImage : List Byte := []
  ports : List Bool := List.replicate 24 false        -- fabric ports in service
  hostUp : List Bool := [false, false]
  pcieUp : List Bool := [false, false]
  log : List LogEntry := []
  replies : List Reply := []
  mem : Memory := []                    -- physical memory
  code : List CodeWrite := []
  poison : List (Nat × List Nat) := []  -- uncorrectable lines, each with its bytes not yet rewritten (17 R384)
  caches : Caches := {}
  errors : List ErrorCount := []
  deadCores : List Nat := []            -- core positions out of service
  spares : List Nat := List.replicate 16 2
  noAlloc : List (Nat × Nat) := []      -- SLC slices that allocate no line (23 R433): tile, slice
  control2 : List (Nat × Nat) := []     -- SLC slices on their second control array
  deadSlices : List (Nat × Nat) := []   -- SLC slices whose both control arrays are lasting
  spareRows : List Nat := List.replicate 24 64
  lostPaths : List Nat := []            -- fabric destinations reported lost
  threads : List Thread := []
  groups : List Group := []
  launches : List Launch := []
  gangs : List Gang := []
  grids : List GridOp := []
  rays : List Ray := []
  walks : List PairWalk := []
  istore : List (List Byte) := []       -- one instruction store for each traversal unit; empty reads invalid
  islock : Bool := false
  timers : List SgEntry := []
  queues : List Queue := List.replicate 64 {}
  svcs : List SvcReq := []
  control : List Control := [{}, {}]
  preqs : List PageReq := []
  shoots : List Shoot := []
  moves : List HomeMove := []           -- page-home moves after their CAS (18 R396)
  tlb : List Tlb := []
  walkc : List WalkEntry := []
  far : List FarReq := []               -- requests of agents other than threads' accesses that have no end yet (20 R414)
  rels : List RelTag := []
  unacked : List (Nat × Nat × Nat) := []    -- destination, access or request, bytes (20 R415)
  bindings : List Binding := []
  keys : List (Nat × Dword × Nat × Nat) := []   -- selectable keys: group, PC, quadrant, since which cycle (05 R145, R146)
  issued : List (Nat × Nat) := []       -- core and quadrant of the teams issued in this cycle (05 R145)
  deriving DecidableEq, Repr

/-- The one way a step stops. -/
inductive Fault where
  /-- Raised by `step` when the module has no power (23 R438): nothing runs until power returns. Safe. -/
  | poweredOff
  deriving DecidableEq, Repr

/-- Instructions without a meaning. -/
inductive Refusal where
  /-- Raised by `exec` for an instruction that has no meaning yet. Safe. -/
  | notModelled (mnemonic : String)
  deriving DecidableEq, Repr

/-- The module at power-up, before boot code runs (23 R435): no thread, no link, image values zero (log 5). -/
def State.reset : State := {}

end Sys2Proof.Machine
end

