-- ==== Sys2Proof/Machine/Bytes.lean ====
section
/-! DEFINITION. Little-endian bytes (01 R24), records in memory as byte lists, and the memory list in canonical form. -/

namespace Sys2Proof.Machine

/-- The number whose little-endian bytes are given. -/
def ofBytes : List Byte → Nat
  | [] => 0
  | b :: bs => b.toNat + 256 * ofBytes bs

/-- The low n bytes of v, lowest first. -/
def toBytes : Nat → Nat → List Byte
  | 0, _ => []
  | n + 1, v => BitVec.ofNat 8 v :: toBytes n (v / 256)

/-- n bytes of a record from byte o, as a number. -/
def field (r : List Byte) (o n : Nat) : Nat := ofBytes ((r.drop o).take n)

def word (r : List Byte) (o : Nat) : Word := BitVec.ofNat 32 (field r o 4)
def dword (r : List Byte) (o : Nat) : Dword := BitVec.ofNat 64 (field r o 8)

/-- True when bytes o to o + n - 1 of a record are zero (00 R9). -/
def zeros (r : List Byte) (o n : Nat) : Bool := ((r.drop o).take n).all (· == 0)

/-- A record with the bytes from o on replaced. -/
def patch (r : List Byte) (o : Nat) (bs : List Byte) : List Byte := r.take o ++ bs ++ r.drop (o + bs.length)

/-! ### Memory -/

/-- The byte at an address: what is listed, otherwise zero (log 1). -/
def Memory.read (m : Memory) (a : Nat) : Byte :=
  match m with
  | [] => 0
  | (x, b) :: rest => if x == a then b else Memory.read rest a

/-- Writing one byte; zero is what an unlisted address reads as, so writing it removes the entry. -/
def Memory.write (m : Memory) (a : Nat) (b : Byte) : Memory :=
  match m with
  | [] => if b == 0 then [] else [(a, b)]
  | (x, c) :: rest =>
    if x < a then (x, c) :: Memory.write rest a b
    else if x == a then (if b == 0 then rest else (a, b) :: rest)
    else if b == 0 then (x, c) :: rest
    else (a, b) :: (x, c) :: rest

/-- Addresses strictly above a bound and rising, no zero byte listed. -/
def Memory.wfFrom (lo : Nat) : Memory → Bool
  | [] => true
  | (x, b) :: rest => decide (lo ≤ x) && b != 0 && Memory.wfFrom (x + 1) rest

/-- The canonical form. -/
def Memory.wf (m : Memory) : Bool := m.wfFrom 0

def Memory.load (m : Memory) (a : Nat) : Nat → List Byte
  | 0 => []
  | n + 1 => m.read a :: Memory.load m (a + 1) n

def Memory.store (m : Memory) (a : Nat) : List Byte → Memory
  | [] => m
  | b :: bs => Memory.store (m.write a b) (a + 1) bs

/-- The byte of a stack window: what the thread wrote, otherwise undefined (07 R187). -/
def stackRead (id : Nat) (m : List Host.Cell) (o : Nat) : Byte :=
  match m with
  | [] => Config.stackByte id o
  | (x, b) :: rest => if x == o then b else stackRead id rest o

/-- Writing one stack byte: addresses stay rising, one entry for each. -/
def stackWrite (m : List Host.Cell) (o : Nat) (b : Byte) : List Host.Cell :=
  match m with
  | [] => [(o, b)]
  | (x, c) :: rest =>
    if x < o then (x, c) :: stackWrite rest o b
    else if x == o then (o, b) :: rest
    else (o, b) :: (x, c) :: rest

def stackLoad (id : Nat) (m : List Host.Cell) (o : Nat) : Nat → List Byte
  | 0 => []
  | n + 1 => stackRead id m o :: stackLoad id m (o + 1) n

def stackStore (m : List Host.Cell) (o : Nat) : List Byte → List Host.Cell
  | [] => m
  | b :: bs => stackStore (stackWrite m o b) (o + 1) bs

/-- Ranges [a, a + m) and [b, b + n) meet. -/
def meets (a m b n : Nat) : Bool := decide (a < b + n) && decide (b < a + m)

/-- Elements 0 to n - 1 of w bits each, packed from bit 0 (03 R73). -/
def unpack (w n : Nat) (bits : Nat) : List Nat := (List.range n).map fun i => (bits >>> (w * i)) % 2 ^ w

/-- Packing elements of w bits (03 R73). -/
def pack (w : Nat) : List Nat → Nat
  | [] => 0
  | x :: xs => x % 2 ^ w + 2 ^ w * pack w xs

end Sys2Proof.Machine
end

