-- ==== Sys2Proof/Machine/Access.lean ====
section
/-! DEFINITION. Looking up and replacing parts of the module, the device's free choices (log 2), physical memory with its
caches, the table walk (18 R386 to R392) and reads and writes of agents other than threads. -/

namespace Sys2Proof.Machine

/-! ### Parts of the module -/

def State.thread? (s : State) (t : Nat) : Option Thread := s.threads.find? fun x => x.id == t
def State.group? (s : State) (g : Nat) : Option Group := s.groups.find? fun x => x.id == g
def State.launch? (s : State) (l : Nat) : Option Launch := s.launches.find? fun x => x.id == l
def State.ray? (s : State) (r : Nat) : Option Ray := s.rays.find? fun x => x.id == r

def State.setThread (s : State) (th : Thread) : State :=
  { s with threads := s.threads.map fun x => if x.id == th.id then th else x }
def State.setGroup (s : State) (g : Group) : State :=
  { s with groups := s.groups.map fun x => if x.id == g.id then g else x }
def State.setLaunch (s : State) (l : Launch) : State :=
  { s with launches := s.launches.map fun x => if x.id == l.id then l else x }

def State.modThread (s : State) (t : Nat) (f : Thread → Thread) : State :=
  { s with threads := s.threads.map fun x => if x.id == t then f x else x }
def State.modGroup (s : State) (g : Nat) (f : Group → Group) : State :=
  { s with groups := s.groups.map fun x => if x.id == g then f x else x }
def State.modLaunch (s : State) (l : Nat) (f : Launch → Launch) : State :=
  { s with launches := s.launches.map fun x => if x.id == l then f x else x }

def State.mapThreads (s : State) (f : Thread → Thread) : State := { s with threads := s.threads.map f }

/-- A choice of the device among n (00 R5), read from the oracle; 0 when none is given. -/
def State.choose (s : State) (n : Nat) : Nat × State :=
  match s.oracle with
  | [] => (0, s)
  | x :: xs => (x % n, { s with oracle := xs })

/-- A new identifier; identifiers rise in the order things happen. -/
def State.newId (s : State) : Nat × State := (s.nextId, { s with nextId := s.nextId + 1 })

/-- The launch a thread belongs to: its group's, or its walk's for an intersection core. -/
def State.launchOf (s : State) (th : Thread) : Option Launch :=
  match th.unit with
  | .device => (s.group? th.group).bind fun g => s.launch? g.launch
  | .intersection => (s.ray? th.group).bind fun r => s.launch? r.launch
  | .service => none

/-- The address space a thread translates through (18 R385). -/
def State.spaceOf (s : State) (th : Thread) : Space :=
  match s.launchOf th with
  | some l => l.space
  | none => s.img.fwSpace

/-- Threads of a group that have not exited. -/
def State.live (s : State) (g : Nat) : List Thread :=
  s.threads.filter fun x => x.unit == .device && x.group == g && !x.exited

/-- Queues an event for a service-processor thread (21 R423); a list of 4,096 is full and the event waits behind it. -/
def State.queueEvent (s : State) (q : Nat) (e : Event) : State :=
  { s with queues := s.queues.modify q fun x => { x with events := x.events ++ [e] } }

def State.logEntry (s : State) (e : LogEntry) : State := { s with log := s.log ++ [e] }

/-! ### Addresses -/

/-- A sign extension of the implemented virtual width (01 R24). -/
def canonical (sp : Space) (a : Dword) : Bool :=
  if sp.five then (a.setWidth 57).signExtend 64 == a else (a.setWidth 48).signExtend 64 == a

/-- In the 4 GiB window at a base (07 R185). -/
def inWindow (base a : Dword) : Bool := decide (base.toNat ≤ a.toNat) && decide (a.toNat < base.toNat + 2 ^ 32)

/-- In either window of a device thread (07 R185). -/
def State.windowed (s : State) (a : Dword) : Bool := inWindow s.img.spBase a || inWindow s.img.stkBase a

/-- SX.DEVID bit 16: the image configures a fabric and some port is in service (20 R413). -/
def State.fabricUp (s : State) : Bool := s.img.fabric && s.ports.any id

/-- DETAIL of a FABRIC trap (17 R362, 20 R417). -/
def fabricDetail (kind code num : Nat) : Word := BitVec.ofNat 32 (kind * 65536 + code * 256 + num)

def fabricFail (kind code num : Nat) : Fail := { cause := .fabric, detail := fabricDetail kind code num }

/-- The home of an LPDDR address: base tile and slice (20 R403). -/
def State.home (s : State) (pa : Nat) : Nat × Nat :=
  let slice := (pa / 2 ^ 9 % 16) ^^^ (pa / 2 ^ 14 % 16)
  let tile := if s.img.homemap == 1 then pa / 2 ^ 21 % 4 else if s.img.homemap == 2 then pa / (768 * 2 ^ 30)
    else pa / 2 ^ 12 % 4
  (tile, slice)

/-- Bytes of LPDDR. -/
def dramEnd : Nat := 0x30000000000

def lineOf (pa : Nat) : Nat := pa / 128

/-- Lines that n bytes at pa touch. -/
def linesOf (pa n : Nat) : List Nat := if n == 0 then [] else (List.range (lineOf (pa + n - 1) - lineOf pa + 1)).map (· + lineOf pa)

/-- The home of a line. A line of a thread's stack, whose backing store the spec places nowhere, has the home of the LPDDR address that
its own one wraps to (07 R187; log 78). -/
def State.lineHome (s : State) (l : Nat) : Nat × Nat := s.home (128 * l % dramEnd)

/-- A line homed in a slice whose both control arrays are lasting (23 R433). -/
def State.deadLine (s : State) (l : Nat) : Bool := s.deadSlices.contains (s.lineHome l)

/-- Where n bytes at a physical address lie, whatever the state of the links (20 R402, 18 R389); `svc` for a service-processor
thread in supervisor mode. -/
def State.physClass (s : State) (leaf : Dword) (pa n : Nat) (wr svc : Bool) : Place :=
  let cache := (leaf.extractLsb' 8 2).toNat
  let dev := (leaf.extractLsb' 54 8).toNat
  let no : Place := .failed { cause := .prot } 0
  if leaf.getLsbD 62 && dev != s.img.devId then .remote dev pa cache
  else if pa < dramEnd then .dram pa cache
  else if 0x4000000000000 ≤ pa && pa < 0x8000000000000 then .host (if pa < 0x6000000000000 then 0 else 1) pa cache
  else if 0x8000000000000 ≤ pa && pa < 0xA000000000000 then .pcie (if pa < 0x9000000000000 then 0 else 1) pa
  else if 0xF800000000000 ≤ pa && pa < 0xF800000040000 then
    if wr && n == 16 && pa % 64 == 0 then .window ((pa - 0xF800000000000) / 64) else no
  else if 0xF000100000000 ≤ pa && pa < 0xF000100002000 then
    if svc then .table pa else no
  else no

/-- Why an access to n bytes at a place fails at issue: a device outside the partition, a lost link, or a slice out of order
(20 R413, R417, 23 R433). -/
def State.linkFail (s : State) (p : Place) (n : Nat) : Option Fail :=
  match p with
  | .remote dev _ _ =>
    if !s.img.members.contains dev then some (fabricFail 0 1 dev)
    else if !s.fabricUp || s.lostPaths.contains dev then some (fabricFail 0 4 dev) else none
  | .dram pa _ => if (linesOf pa n).any s.deadLine then some { cause := .machine } else none
  | .host site _ _ => if s.hostUp.getD site false then none else some (fabricFail 1 4 site)
  | .pcie port _ => if s.pcieUp.getD port false then none else some (fabricFail 2 4 port)
  | _ => none

/-- Where n bytes at a physical address lie for a device agent, or how the access fails. -/
def State.physPlace (s : State) (leaf : Dword) (pa n : Nat) (wr svc : Bool) : Place :=
  let p := s.physClass leaf pa n wr svc
  match s.linkFail p n with
  | some f => .failed f 0
  | none => p

/-! ### Physical memory -/

/-- Where byte o of a thread's stack lies for the caches: its backing store is memory of its own (07 R187). -/
def stackPa (t o : Nat) : Nat := 128 * (2 ^ 60 + 2 ^ 32 * t) + o

/-- A line that cannot be corrected, or whose slice is out of order (17 R384, 23 R433). -/
def State.badLine (s : State) (l : Nat) : Bool := s.poison.any (fun p => p.1 == l) || s.deadLine l

/-- Uncorrectable data among n bytes at pa (17 R384). -/
def State.poisoned (s : State) (pa n : Nat) : Bool := (linesOf pa n).any fun l => s.poison.any fun p => p.1 == l

/-- Some of n bytes at offset o of a thread's stack have their home in a slice that is out of order: no access to them works
(23 R433). -/
def State.stackDead (s : State) (t o n : Nat) : Bool := (linesOf (stackPa t o) n).any s.deadLine

/-- Bytes of a thread's stack, which lie in device memory, that cannot be read: uncorrectable ones, or those of such a slice
(07 R187, 17 R384, 23 R433). -/
def State.stackBad (s : State) (t o n : Nat) : Bool := s.poisoned (stackPa t o) n || s.stackDead t o n

/-- Bytes that are written anew are no longer uncorrectable; `key` gives a line's key and its first byte's address. -/
def healed (poison : List (Nat × List Nat)) (key base : Nat) (a n : Nat) : List (Nat × List Nat) :=
  (poison.map fun (l, bs) => if l == key then (l, bs.filter fun o => !(a ≤ base + o && base + o < a + n)) else (l, bs)).filter
    fun p => !p.2.isEmpty

/-- The 32 bytes of entry i of the access table are at 0x000F_0001_0000_0000 + 32i (20 R409). -/
def tableBase : Nat := 0xF000100000000

def State.tableBytes (s : State) : List Byte := (List.range 256).flatMap fun i => s.img.access.getD i (List.replicate 32 0)

/-- Reading local memory, host memory or the access table. -/
def State.readPhys (s : State) (pa n : Nat) : List Byte :=
  if tableBase ≤ pa && pa < tableBase + 8192 then (s.tableBytes.drop (pa - tableBase)).take n else s.mem.load pa n

/-! ### Caches (07 R195 to R198, 23 R432) -/

/-- A line's slice in each L1: bits [12:8] of its address (07 R196). -/
def l1Slice (l : Nat) : Nat := l / 2 % 32

/-- The line's copy in the SLC is allowed: its slice allocates, and has power (23 R433, R438). -/
def State.slcTakes (s : State) (l : Nat) : Bool :=
  s.power != .standby && (2 ^ 60 ≤ l || 128 * l < dramEnd) && !s.noAlloc.contains (s.lineHome l)

/-- Adds an entry, the youngest unless it is the first candidate for replacement, which an entry that is held also becomes; when the
entries of its set are as many as the set holds, the oldest of them leaves. -/
def addCap {α : Type} [BEq α] (xs : List α) (x : α) (same : α → Bool) (cap : Nat) (first : Bool) : List α × Option α :=
  if xs.contains x then (if first then x :: xs.erase x else xs, none)
  else
    let victim := if cap ≤ (xs.filter same).length then xs.find? same else none
    let ys := match victim with
      | some v => xs.erase v
      | none => xs
    (if first then x :: ys else ys ++ [x], victim)

/-- A modified line is written back to LPDDR: the memory's value is what LPDDR holds (23 R438). -/
def State.writeBack (s : State) (line : Nat) : State :=
  { s with caches := { s.caches with dirty := s.caches.dirty.filter fun d => d.line != line } }

/-- The SLC takes a line: 128 MiB for each base tile in 16 slices (23 R432). A line that leaves is written back. -/
def State.fillSlc (s : State) (l : Nat) : State :=
  if !s.slcTakes l then s
  else
    let h := s.lineHome l
    let (slc, victim) := addCap s.caches.slc l (fun x => s.lineHome x == h) 65536 false
    let s1 : State := { s with caches := { s.caches with slc := slc } }
    match victim with
    | some v => s1.writeBack v
    | none => s1

/-- A cluster's modified L1 copy of a line goes to its home slice (07 R195, 09 R237). -/
def State.l1WriteBack (s : State) (l : Nat) : State :=
  if s.caches.l1mod.any fun e => e.2 == l then
    let s1 := State.fillSlc { s with caches := { s.caches with l1mod := s.caches.l1mod.filter fun e => e.2 != l } } l
    if s.slcTakes l then s1 else s1.writeBack l
  else s

/-- The presence set keeps the bits of agents that hold a line of the region (07 R198). -/
def Caches.trim (c : Caches) : Caches :=
  { c with presence := c.presence.filter fun (r, b) =>
      if b < 16 then c.l1.any fun (cl, l) => cl == b && l / 4 == r else c.host.any fun (h, l) => 16 + h == b && l / 4 == r }

/-- A line leaves a cluster's L1, and with it the L0s of the cluster. -/
def State.dropL1 (s : State) (cl l : Nat) : State :=
  let s1 := if s.caches.l1mod.contains (cl, l) then s.l1WriteBack l else s
  let c := s1.caches
  { s1 with caches := Caches.trim { c with
      l0 := c.l0.filter fun e => !(e.1 / 32 == cl && e.2 == l)
      l1 := c.l1.filter fun e => !(e.1 == cl && e.2 == l) } }

/-- An L1 takes a line: 8 MiB in 32 slices (23 R432). -/
def State.fillL1 (s : State) (cl l : Nat) (first : Bool) : State :=
  let (_, victim) := addCap s.caches.l1 (cl, l) (fun e => e.1 == cl && l1Slice e.2 == l1Slice l) 2048 first
  let s1 := match victim with
    | some v => s.dropL1 v.1 v.2
    | none => s
  let c := s1.caches
  { s1 with caches := { c with
      l1 := (addCap c.l1 (cl, l) (fun _ => false) 1 first).1
      presence := if c.presence.contains (l / 4, cl) then c.presence else c.presence ++ [(l / 4, cl)] } }

/-- An L0 takes a line: 32 KiB (23 R432). -/
def State.fillL0 (s : State) (core l : Nat) (first : Bool) : State :=
  { s with caches := { s.caches with l0 := (addCap s.caches.l0 (core, l) (fun e => e.1 == core) 256 first).1 } }

/-- A home slice drops a region's directory entry after invalidating every cached copy of its lines (07 R198). -/
def State.dropRegion (s : State) (r : Nat) : State :=
  let s1 := (s.caches.l1.filter fun e => e.2 / 4 == r).foldl (fun s e => s.dropL1 e.1 e.2) s
  let c := s1.caches
  { s1 with caches := Caches.trim { c with l0 := c.l0.filter fun e => e.2 / 4 != r, host := c.host.filter fun e => e.2 / 4 != r } }

/-- A core's read brings lines into the caches that the leaf's CACHE field and the hint allow (07 R195, 18 R387, 09 R221). Before
that a home slice may drop the oldest directory entry, by the device's choice. -/
def State.cacheLines (s0 : State) (core : Nat) (ls : List Nat) (cache hint : Nat) : State :=
  if cache == 2 then s0
  else
    let s := match s0.caches.presence with
      | [] => s0
      | (r, _) :: _ => let (c, s1) := s0.choose 2; if c == 1 then s1.dropRegion r else s1
    ls.foldl (fun s l =>
      let s1 := s.fillSlc l
      if cache != 0 then s1
      else
        let s2 := s1.fillL1 (core / 32) l (hint == 1)
        if hint == 2 then s2 else s2.fillL0 core l (hint == 1)) s

/-- Lines that a core's L0 and its cluster's L1 hold become their first candidates for replacement: a store with `.ef` (09 R221). -/
def State.firstOut (s : State) (core : Nat) (ls : List Nat) : State :=
  ls.foldl (fun s l =>
    let c := s.caches
    let front (xs : List (Nat × Nat)) (x : Nat × Nat) : List (Nat × Nat) := if xs.contains x then x :: xs.erase x else xs
    { s with caches := { c with l0 := front c.l0 (core, l), l1 := front c.l1 (core / 32, l) } }) s

def State.cacheRead (s : State) (core pa n cache hint : Nat) : State := s.cacheLines core (linesOf pa n) cache hint

/-- A write's effect on one line: copies of every other cluster, core and host site are invalidated (07 R198, 20 R406), the
writer's L1 keeps its copy as modified, otherwise the SLC's copy is modified (23 R438): a store allocates in no L1 (log 53). A write
to an uncached page goes through to LPDDR. `core` is the writer's core, if it is one. -/
def State.touchLine (s0 : State) (core : Option Nat) (unc : Bool) (pa n l : Nat) : State :=
  let s := if s0.caches.l1mod.any fun e => e.2 == l && core.map (· / 32) != some e.1 then s0.l1WriteBack l else s0
  let c := s.caches
  let s1 : State := { s with
    caches := Caches.trim { c with
      l0 := c.l0.filter fun e => e.2 != l || core == some e.1
      l1 := c.l1.filter fun e => e.2 != l || core.map (· / 32) == some e.1
      host := c.host.filter (fun e => e.2 != l) }
    poison := healed s.poison l (128 * l) pa n }
  let old := s.mem.load (128 * l) 128
  let mark (s : State) : State :=
    if s.caches.dirty.any fun d => d.line == l then s
    else { s with caches := { s.caches with dirty := s.caches.dirty ++ [{ line := l, old := old }] } }
  if unc then s1
  else match core with
    | some co =>
      if s1.caches.l1.contains (co / 32, l) then
        let m := s1.caches.l1mod
        mark { s1 with caches := { s1.caches with l1mod := if m.contains (co / 32, l) then m else m ++ [(co / 32, l)] } }
      else if s.slcTakes l then mark (s1.fillSlc l) else s1
    | none => if s.slcTakes l then mark (s1.fillSlc l) else s1

def State.touchLines (s : State) (core : Option Nat) (unc : Bool) (pa n : Nat) : State :=
  (linesOf pa n).foldl (fun s l => s.touchLine core unc pa n l) s

/-- Bytes that a write through to LPDDR leaves there, in a line whose other bytes are modified (23 R438). -/
def State.throughDirty (s : State) (pa : Nat) (bs : List Byte) : State :=
  { s with caches := { s.caches with dirty := s.caches.dirty.map fun d =>
      { d with old := (List.range 128).map fun o =>
          let a := 128 * d.line + o
          if pa ≤ a && a < pa + bs.length then bs.getD (a - pa) 0 else d.old.getD o 0 } } }

/-- A write that reaches a queue's NOTIFY register queues a NOTIFY event, or updates the one pending (21 R421). -/
def State.notify (s : State) (pa n : Nat) : State :=
  if !s.booted then s
  else (List.range 64).foldl (fun s q =>
    let d := (s.img.qdesc.getD q 0).toNat
    if meets pa n (d + 0x68) 8 then
      let e : Event := { kind := 1, datum := BitVec.ofNat 64 (ofBytes (s.mem.load (d + 0x68) 8)) }
      { s with queues := s.queues.modify q fun x =>
          if x.events.any (fun y => y.kind == 1) then
            { x with events := x.events.map fun y => if y.kind == 1 then e else y }
          else { x with events := x.events ++ [e] } }
    else s) s

/-- A write performs at its home (08 R206). The bytes it replaces stay in the code-write log for fetches (01 R26). `unc`: through
a page that is not cached (18 R387). -/
def State.writePhys (s : State) (core : Option Nat) (pa : Nat) (bs : List Byte) (unc : Bool := false) : State :=
  if tableBase ≤ pa && pa < tableBase + 8192 then
    let t := patch s.tableBytes (pa - tableBase) bs
    { s with img := { s.img with access := (List.range 256).map fun i => (t.drop (32 * i)).take 32 } }
  else
    let s1 := s.touchLines core unc pa bs.length
    let s2 := if unc then s1.throughDirty pa bs else s1
    State.notify { s2 with
      code := ((List.range bs.length).map fun i => { pa := pa + i, old := s.mem.read (pa + i) }) ++ s.code
      mem := s.mem.store pa bs } pa bs.length

/-! ### Translation (18) -/

/-- The outcome of a walk: a leaf and its level, a page request, or a failure. -/
inductive Walked where
  | ok (leaf : Dword) (level : Nat)
  | request
  | fail (f : Fail)
  deriving DecidableEq, Repr

/-- A valid entry that breaks the format of 18 R387 at level n. -/
def malformed (e : Dword) (n : Nat) : Bool :=
  let ps := e.getLsbD 4
  let leaf := n == 1 || ps
  let pfn := (e.extractLsb' 12 40).toNat
  (e &&& 0x8030000000000C80#64) != 0 || (leaf && e.extractLsb' 8 2 == 3#2) || (ps && (n == 1 || n ≥ 4))
    || (!leaf && (e &&& 0xFFF0000000000FFE#64) != 0)
    || (leaf && n == 2 && pfn % 2 ^ 9 != 0) || (leaf && n == 3 && pfn % 2 ^ 18 != 0)

/-- The codes of failures that the outside reports for a request on its way: refused, or lost (20 R417). -/
def reportable (d : BitVec 8) : Bool := d == 2 || d == 4

/-- A failure that the outside reports for a step's access to a destination (20 R417). -/
def State.outsideFail (s : State) (kind num : Nat) : Option Fail :=
  (s.arg.detail.filter reportable).map fun d => fabricFail kind d.toNat num

/-- Reading a table entry: in local or host memory (18 R388, 20 R417). -/
def State.readEntry (s : State) (pa : Nat) : Except Fail Dword :=
  match s.physPlace 0 pa 8 false false with
  | .dram a _ => if s.poisoned a 8 then .error { cause := .machine } else .ok (BitVec.ofNat 64 (ofBytes (s.mem.load a 8)))
  | .host site a _ =>
    match s.outsideFail 1 site with
    | some f => .error f
    | none => .ok (BitVec.ofNat 64 (ofBytes (s.mem.load a 8)))
  | .failed f _ => .error f
  | _ => .error { cause := .prot }

/-- The host site of the first table in host memory that a walk of levels n down reads. -/
def State.hostTable (s : State) (va : Dword) : Nat → Nat → Option Nat
  | 0, _ => none
  | n + 1, t =>
    let ea := t + 8 * ((va.toNat >>> (12 + 9 * n)) % 512)
    match s.physPlace 0 ea 8 false false with
    | .host site .. => some site
    | _ => match s.readEntry ea with
      | .error _ => none
      | .ok e => if !e.getLsbD 0 || malformed e (n + 1) || n == 0 || e.getLsbD 4 then none
        else State.hostTable s va n ((e.extractLsb' 12 40).toNat * 4096)

def permits (e : Dword) (k : Kind) (sup : Bool) : Bool :=
  (k != .write || e.getLsbD 1) && (k != .fetch || e.getLsbD 2) && (sup || e.getLsbD 3)

/-- Levels n down to 1 of the walk of 18 R388, from the table at t; the entry's address is answered beside it. -/
def State.walkFrom (s : State) (va : Dword) (k : Kind) (sup : Bool) : Nat → Nat → Walked × Nat
  | 0, _ => (.fail { cause := .prot }, 0)
  | n + 1, t =>
    let ea := t + 8 * ((va.toNat >>> (12 + 9 * n)) % 512)
    match s.readEntry ea with
    | .error f => (.fail f, ea)
    | .ok e =>
      if !e.getLsbD 0 then (.request, ea)
      else if malformed e (n + 1) then (.fail { cause := .prot }, ea)
      else if n == 0 || e.getLsbD 4 then (if permits e k sup then .ok e (n + 1) else .request, ea)
      else State.walkFrom s va k sup n ((e.extractLsb' 12 40).toNat * 4096)

/-- The physical address that a leaf at a level gives a virtual address. -/
def leafPa (e : Dword) (level : Nat) (va : Dword) : Nat :=
  let w := 12 + 9 * (level - 1)
  (e.extractLsb' 12 40).toNat * 4096 / 2 ^ w * 2 ^ w + va.toNat % 2 ^ w

/-- The tables that a walk of levels n down passes, each with its level and the address of the entry that leads to it. -/
def State.walkSteps (s : State) (va : Dword) : Nat → Nat → List (Nat × Nat × Nat)
  | 0, _ => []
  | n + 1, t =>
    let ea := t + 8 * ((va.toNat >>> (12 + 9 * n)) % 512)
    match s.readEntry ea with
    | .error _ => []
    | .ok e =>
      if !e.getLsbD 0 || malformed e (n + 1) || n == 0 || e.getLsbD 4 then []
      else
        let t1 := (e.extractLsb' 12 40).toNat * 4096
        (n, t1, ea) :: State.walkSteps s va n t1

/-- The upper bits of an address that choose a table of level n. -/
def upperBits (va : Dword) (n : Nat) : Nat := va.toNat >>> (12 + 9 * n)

/-- Where a walk begins: at the root, or by the device's choice at a table that a cached upper entry leads to (18 R390). -/
def State.walkStart (s : State) (sp : Space) (va : Dword) : State × Nat × Nat :=
  let root := (if sp.five then 5 else 4, sp.root)
  match s.walkc.filter fun x => x.asid == sp.asid && x.upper == upperBits va x.level with
  | [] => (s, root)
  | xs =>
    let (c, s1) := s.choose (xs.length + 1)
    match c with
    | 0 => (s1, root)
    | i + 1 => (s1, (xs[i]?.map fun x => (x.level, x.table)).getD root)

/-- A walk; it sets A, and D for a write, in the entry (18 R388), and what it read may be used again (R390). -/
def State.walkTable (s0 : State) (sp : Space) (va : Dword) (k : Kind) (sup : Bool) : State × Walked :=
  let (s, n0, t0) := s0.walkStart sp va
  match s.walkFrom va k sup n0 t0 with
  | (.ok e n, ea) =>
    let new := e ||| 0x20#64 ||| (if k == .write then 0x40#64 else 0#64)
    let s1 := if new == e then s else s.writePhys none ea (toBytes 8 new.toNat)
    let t : Tlb := { asid := sp.asid, page := va.toNat / 4096, entry := new, level := n }
    let ws := (s.walkSteps va n0 t0).map fun (l, t, a) =>
      ({ asid := sp.asid, level := l, upper := upperBits va l, table := t, ea := a } : WalkEntry)
    ({ s1 with
       tlb := if s1.tlb.contains t then s1.tlb else t :: s1.tlb
       walkc := ws.filter (fun w => !s1.walkc.contains w) ++ s1.walkc }, .ok new n)
  | (w, _) => (s, w)

/-- A cached translation serves an access: its page holds the address, and its entry permits the access (18 R390). -/
def Tlb.serves (x : Tlb) (sp : Space) (va : Dword) (k : Kind) (sup : Bool) : Bool :=
  x.asid == sp.asid && x.page >>> (9 * (x.level - 1)) == va.toNat >>> (12 + 9 * (x.level - 1)) && permits x.entry k sup
    && (k != .write || x.entry.getLsbD 6)

/-- What is cached of an address's translation is removed: a walk of it that follows begins at the root (18 R393). -/
def State.uncache (s : State) (asid : BitVec 16) (va : Dword) : State :=
  { s with
    tlb := s.tlb.filter fun x => !(x.asid == asid && x.page >>> (9 * (x.level - 1)) == va.toNat >>> (12 + 9 * (x.level - 1)))
    walkc := s.walkc.filter fun x => !(x.asid == asid && x.upper == upperBits va x.level) }

/-- The host site whose answer a walk of an address waits for: a table lies in its memory, and the step's argument says that the host
is silent (20 R417). -/
def State.silentSite (s : State) (sp : Space) (va : Dword) : Option Nat :=
  if s.arg.detail == some 3 then s.hostTable va (if sp.five then 5 else 4) sp.root else none

/-- A walk, which waits when a host that it reads a table from has not answered. -/
def State.walkNow (s : State) (sp : Space) (va : Dword) (k : Kind) (sup : Bool) : State × Walked :=
  if (s.silentSite sp va).isSome then (s, .request) else s.walkTable sp va k sup

/-- Translating one address: one of the cached translations that serve the access, by the device's choice (18 R390), or a walk. -/
def State.translate (s : State) (sp : Space) (va : Dword) (k : Kind) (sup : Bool) : State × Walked :=
  match s.tlb.filter fun x => x.serves sp va k sup with
  | [] => s.walkNow sp va k sup
  | xs =>
    let (c, s1) := s.choose (xs.length + 1)
    match c with
    | 0 => s1.walkNow sp va k sup
    | i + 1 =>
      match xs[i]? with
      | some x => (s1, .ok x.entry x.level)
      | none => s1.walkNow sp va k sup

/-- The level of the leaf through which an access to an address reached a physical one: of the cached translations that lead there, the
greatest page. -/
def State.leafLevel (s : State) (sp : Space) (va : Dword) (pa : Nat) : Nat :=
  ((s.tlb.filter fun x => x.asid == sp.asid && x.page >>> (9 * (x.level - 1)) == va.toNat >>> (12 + 9 * (x.level - 1))
    && leafPa x.entry x.level va == pa).map (·.level)).foldl max 1

/-! ### Page requests (18 R392, 20 R407) -/

def kindBit : Kind → BitVec 3
  | .read => 1 | .write => 2 | .fetch => 4

/-- The 32-byte request record. -/
def PageReq.bytes (r : PageReq) : List Byte :=
  toBytes 2 1 ++ toBytes 6 0 ++ toBytes 1 r.kinds.toNat ++ toBytes 1 r.src ++ toBytes 2 r.asid.toNat ++ toBytes 4 0
    ++ toBytes 8 r.tag ++ toBytes 8 r.va.toNat

/-- Where a physical address of a host lies in the local map (20 R402, R407). -/
def hostPa (site a : Nat) : Nat := 0x4000000000000 + 0x2000000000000 * site + a % 0x2000000000000

/-- Writes a request into the site's ring when it has room; otherwise the request waits. After a change of the ring a waiting request
goes to the new one, of the two that R407 permits (log 77). -/
def State.sendReq (s : State) (r : PageReq) : State :=
  let c := s.control.getD r.site {}
  if !r.sent && s.hostUp.getD r.site false && (c.prqTail - c.prqHead).toNat < c.prqCap then
    let s1 := s.writePhys none (hostPa r.site (c.prqBase + 32 * (c.prqTail.toNat % c.prqCap))) r.bytes
    { s1 with
      control := s1.control.set r.site { c with prqTail := c.prqTail + 1 }
      preqs := s1.preqs.map fun x => if x.tag == r.tag then { x with sent := true } else x }
  else s

/-- Joins the outstanding request for the page, or makes one; the tag is answered. `src`: 0 thread, 1 engine, 2 walk,
3 memory-side. When it is a host's table that the walk waits for, nothing goes to the host's software: the read itself is outstanding,
and its time counts (20 R417). -/
def State.requestPage (s : State) (sp : Space) (va : Dword) (k : Kind) (src : Nat) : State × Nat :=
  match s.preqs.find? fun x => x.asid == sp.asid && x.va.toNat / 4096 == va.toNat / 4096 with
  | some x =>
    ({ s with preqs := s.preqs.map fun y =>
        if y.tag == x.tag && !y.sent then { y with kinds := y.kinds ||| kindBit k } else y }, x.tag)
  | none =>
    let (tag, s1) := s.newId
    let r : PageReq := { tag := tag, va := va, asid := sp.asid, site := sp.site, src := src, kinds := kindBit k }
    match s.silentSite sp va with
    | some site => ({ s1 with preqs := s1.preqs ++ [{ r with site := site, sent := true, table := some s.cycle }] }, tag)
    | none => ({ s1 with preqs := s1.preqs ++ [r] }.sendReq r, tag)

/-! ### Accesses of engines, walks and the memory side -/

/-- The outcome of an agent's access; it waits for a page request for an address, or with tag 0 for an answer from outside the
module. -/
inductive Got (α : Type) where
  | ok (x : α)
  | wait (tag : Nat) (at_ : Dword)
  | fail (f : Fail) (at_ : Dword)
  deriving DecidableEq, Repr

/-! ### Requests that leave the module (20 R414 to R416) -/

/-- Kind and number of a destination (20 R417). -/
def destOf : Place → Word
  | .remote dev _ _ => fabricDetail 0 0 dev
  | .pcie port _ => fabricDetail 2 0 port
  | _ => 0

/-- The number of a remote device that an access goes to. -/
def remoteDev : Place → Option Nat
  | .remote dev _ _ => some dev
  | _ => none

/-- Bytes outstanding to a destination's send window. -/
def State.outTo (s : State) (dest : Nat) : Nat :=
  ((s.unacked.filter fun u => u.1 == dest).map fun u => u.2.2).foldl (· + ·) 0

/-- The limit of a destination's send window (20 R415). -/
def State.sendLimit (s : State) (dest : Nat) : Nat :=
  match s.img.limits.find? fun x => x.1 == dest with
  | some x => x.2
  | none => 2 ^ 20

/-- A place some bytes further on. -/
def Place.plus (p : Place) (o : Nat) : Place :=
  match p with
  | .spad x => .spad (x + o)
  | .stack x => .stack (x + o)
  | .dram x c => .dram (x + o) c
  | .host h x c => .host h (x + o) c
  | .pcie q x => .pcie q (x + o)
  | .remote d x c => .remote d (x + o) c
  | .table x => .table (x + o)
  | p => p

/-- A place outside the module that answers by messages (20 R414). -/
def Place.far : Place → Bool
  | .pcie .. | .remote .. => true
  | _ => false

/-- The physical address of a far place. -/
def farPa : Place → Nat
  | .pcie _ pa | .remote _ pa _ => pa
  | _ => 0

/-- A request leaves, and counts in its destination's window (20 R415). -/
def State.sendFar (s : State) (x : FarReq) : State :=
  { s with
    far := s.far.map fun y => if y.id == x.id then { y with sent := true, born := s.cycle } else y
    replies := s.replies ++ [.request (destOf x.place) (farPa x.place) x.req]
    unacked := match remoteDev x.place with
      | some dev => s.unacked ++ [(dev, x.id, x.size)]
      | none => s.unacked }

/-- Requests that write at their destination. -/
def Request.writes : Request → Bool
  | .write .. | .atomic .. => true
  | _ => false

/-- An arrival window of another device (20 R412). -/
def Place.farWindow : Place → Bool
  | .remote _ pa _ => 0xF800000000000 ≤ pa && pa < 0xF800000040000
  | _ => false

/-- An earlier write of the same agent to a 128-byte line of one destination has no acknowledgement yet (20 R414); a write to a window
follows every earlier write of its agent (R412). -/
def State.farHeld (s : State) (x : FarReq) : Bool :=
  s.far.any fun y => y.id < x.id && y.owner == x.owner && y.answer == .none && Request.writes y.req
    && ((Request.writes x.req && x.place.farWindow) || (destOf y.place == destOf x.place
      && (linesOf (farPa y.place) y.size).any (linesOf (farPa x.place) x.size).contains))

/-- Requests of engines, walks and the memory side that have room in the window leave, in order. -/
def State.pumpFar (s : State) : State :=
  s.far.foldl (fun s x =>
    let room := match remoteDev x.place with
      | some dev => decide (s.outTo dev + x.size ≤ s.sendLimit dev)
      | none => true
    if !x.sent && room && !s.farHeld x then s.sendFar x else s) s

/-- A request without the physical address that it goes to. -/
def Request.bare : Request → Request
  | .read _ n => .read 0 n
  | .write _ bs x => .write 0 bs x
  | .atomic _ ty op b c x => .atomic 0 ty op b c x
  | r => r

/-- What an owner has asked another device or a port for at an address of its own, whatever place a leaf gives that address by now: a
request that has left performs where it went, once (18 R394). -/
def State.asked (s : State) (o : Owner) (va : Dword) (r : Request) : Option FarReq :=
  s.far.find? fun x => x.owner == o && x.place.far && x.va == some va && Request.bare x.req == Request.bare r

/-- What has come back for a request. -/
def FarReq.said (x : FarReq) : Except (Option Fail) (List Byte × BitVec 5) :=
  match x.answer with
  | .none => .error none
  | .data bs f => .ok (bs, f)
  | .fail f => .error (some f)

/-- An owner's request at an address: its answer, when one has come; it is made when it has not been. -/
def State.farAsk (s : State) (o : Owner) (va : Dword) (p : Place) (r : Request) (n : Nat) :
    State × Except (Option Fail) (List Byte × BitVec 5) :=
  match s.asked o va r with
  | some x => (s, x.said)
  | none =>
    let (id, s1) := s.newId
    let x : FarReq := { id := id, owner := o, place := p, req := r, size := n, va := some va }
    (State.pumpFar { s1 with far := s1.far ++ [x] }, .error none)

/-- The pieces of at most 256 bytes that n bytes at a far address are asked for in (20 R415): offset and length. -/
def farPieces (pa n : Nat) : Nat → Nat → List (Nat × Nat)
  | 0, _ => []
  | fuel + 1, o =>
    if n ≤ o then []
    else
      let m := min (n - o) (256 - (pa + o) % 256)
      (o, m) :: farPieces pa n fuel (o + m)

/-- A read or write of an owner piece by piece, each by `go`, which asks for it when it is far: every piece is asked for at once, and
the outcome is there when each has its answer, or when the first that failed is known. -/
def State.eachPiece (s : State) (go : State → Nat → Nat → State × Except (Option Fail) (List Byte)) : List (Nat × Nat) →
    State × Except (Option Fail) (List Byte)
  | [] => (s, .ok [])
  | (x, m) :: rest =>
    match go s x m with
    | (s1, .error (some f)) => (s1, .error (some f))
    | (s1, .error none) => ((s1.eachPiece go rest).1, .error none)
    | (s1, .ok b) =>
      match s1.eachPiece go rest with
      | (s2, .error e) => (s2, .error e)
      | (s2, .ok bs) => (s2, .ok ((b ++ List.replicate m 0).take m ++ bs))

/-- An owner's requests among n bytes at an address of its own. -/
def State.askedIn (s : State) (o : Owner) (va : Dword) (n : Nat) : List FarReq :=
  s.far.filter fun x => x.owner == o && x.place.far && (x.va.any fun v => va.toNat ≤ v.toNat && v.toNat < va.toNat + n)

/-- A step of an owner has used the answers it waited for. -/
def State.farDone (s : State) (o : Owner) : State :=
  { s with far := s.far.filter fun x => !(x.owner == o && x.answer != .none) }

/-- Nobody waits for what an owner asked for. -/
def Owner.lone : Owner → Bool
  | .module | .gone _ => true
  | _ => false

/-- What an owner asked for is of no more use; a request on its way counts until its answer comes. -/
def State.farDrop (s : State) (o : Owner) (to_ : Owner := .module) : State :=
  if s.far.isEmpty then s else
  { s with far := (s.far.filter fun x => x.owner != o || (x.sent && x.answer == .none)).map fun x =>
      if x.owner == o then { x with owner := to_ } else x }

/-- A request to a host that the host has not answered (20 R417): the step's argument says that it is silent. -/
def State.hostWait (s : State) (o : Owner) (p : Place) (r : Request) (n : Nat) : State :=
  if s.far.any fun x => x.owner == o && x.place == p && x.req == r then s
  else
    let (id, s1) := s.newId
    { s1 with far := s1.far ++ [{ id := id, owner := o, place := p, req := r, size := n, sent := true, born := s.cycle }] }

/-- No answer came within 10 ms of issue (20 R417). -/
def State.timedOut (s : State) (born : Nat) : Bool := born + 14000000 ≤ s.cycle

/-- What a host says of a request: a failure, nothing yet, or its answer; none counts once the time of the request is over. -/
def State.hostSays (s : State) (o : Owner) (p : Place) (r : Request) (site n : Nat) : State × Except (Option Fail) Unit :=
  let mine (x : FarReq) : Bool := x.owner == o && x.place == p && x.req == r
  match s.far.find? mine with
  | some { answer := .fail f, .. } => (s, .error (some f))
  | y =>
    if y.any fun x => s.timedOut x.born then
      let f := fabricFail 1 3 site
      ({ s with far := s.far.map fun x => if mine x then { x with answer := .fail f } else x }, .error (some f))
    else match s.outsideFail 1 site with
    | some f => (s, .error (some f))
    | none =>
      if s.arg.detail == some 3 then (s.hostWait o p r n, .error none)
      else ({ s with far := s.far.filter fun x => !mine x }, .ok ())

/-- Reads n bytes at a place of this module or of a host that is not private to a thread; an error without a failure means no answer
yet. -/
def State.readNear (s : State) (o : Owner) (p : Place) (n : Nat) : State × Except (Option Fail) (List Byte) :=
  match p with
  | .dram pa _ => if (linesOf pa n).any s.badLine then (s, .error (some { cause := .machine })) else (s, .ok (s.readPhys pa n))
  | .host site pa _ =>
    match s.hostSays o p (.read pa n) site n with
    | (s1, .ok _) => (s1, .ok (s1.readPhys pa n))
    | (s1, .error e) => (s1, .error e)
  | .table pa => (s, .ok (s.readPhys pa n))
  | .failed f _ => (s, .error (some f))
  | _ => (s, .error (some { cause := .prot }))

/-- Writes bytes at such a place. -/
def State.writeNear (s : State) (o : Owner) (p : Place) (bs : List Byte) : State × Except (Option Fail) Unit :=
  match p with
  | .dram pa cache => (s.writePhys none pa bs (cache == 2), .ok ())
  | .table pa => (s.writePhys none pa bs, .ok ())
  | .host site pa cache =>
    match s.hostSays o p (.write pa bs false) site bs.length with
    | (s1, .ok _) => (s1.writePhys none pa bs (cache == 2), .ok ())
    | (s1, .error e) => (s1, .error e)
  | .failed f _ => (s, .error (some f))
  | _ => (s, .error (some { cause := .prot }))

/-- Reads n bytes at a place, which the leaf of `va` gives. A request that leaves the module is asked for, piece by piece, and so is one
whose page has moved to this module since some piece of it left. -/
def State.readPlace (s : State) (o : Owner) (va : Dword) (p : Place) (n : Nat) : State × Except (Option Fail) (List Byte) :=
  if !p.far && (s.askedIn o va n).isEmpty then s.readNear o p n
  else if !p.far && (s.askedIn o va n).any (·.answer == .none) then (s, .error none)
  else s.eachPiece (fun s x m =>
    let v := va + BitVec.ofNat 64 x
    let r : Request := .read (farPa p + x) m
    if p.far || (s.asked o v r).isSome then
      match s.farAsk o v (p.plus x) r m with
      | (s1, .ok (bs, _)) => (s1, .ok bs)
      | (s1, .error e) => (s1, .error e)
    else s.readNear o (p.plus x) m) (farPieces va.toNat n (n / 256 + 2) 0)

/-- Writes bytes at a place; a write that leaves the module is done when its acknowledgement has come (20 R414). -/
def State.writePlace (s : State) (o : Owner) (va : Dword) (p : Place) (bs : List Byte) : State × Except (Option Fail) Unit :=
  if !p.far && (s.askedIn o va bs.length).isEmpty then s.writeNear o p bs
  else if !p.far && (s.askedIn o va bs.length).any (·.answer == .none) then (s, .error none)
  else match s.eachPiece (fun s x m =>
    let v := va + BitVec.ofNat 64 x
    let b := (bs.drop x).take m
    let r : Request := .write (farPa p + x) b false
    let none_ (q : State × Except (Option Fail) Unit) : State × Except (Option Fail) (List Byte) := match q with
      | (s1, .ok _) => (s1, .ok [])
      | (s1, .error e) => (s1, .error e)
    if p.far || (s.asked o v r).isSome then
      match s.farAsk o v (p.plus x) r m with
      | (s1, .ok _) => (s1, .ok [])
      | (s1, .error e) => (s1, .error e)
    else none_ (s.writeNear o (p.plus x) b)) (farPieces va.toNat bs.length (bs.length / 256 + 2) 0) with
  | (s1, .ok _) => (s1, .ok ())
  | (s1, .error e) => (s1, .error e)

/-- Bytes from a to the end of its 4 KiB page, at most n. -/
def inPage (a : Dword) (n : Nat) : Nat := min n (4096 - a.toNat % 4096)

/-- How far into n bytes at a physical address the first byte lies that cannot be read. -/
def State.firstBad (s : State) (pa n : Nat) : Nat :=
  match (linesOf pa n).find? s.badLine with
  | some l => 128 * l - pa
  | none => 0

/-- The addresses among n bytes at va of an owner's requests that have failed. -/
def State.lostAt (s : State) (o : Owner) (va : Dword) (n : Nat) : List Nat :=
  let lost (y : FarReq) : Bool := match y.answer with
    | .fail _ => y.place.far
    | _ => false
  ((s.far.filter fun y => y.owner == o && lost y).filterMap fun y => y.va.map (·.toNat)).filter fun v => va.toNat ≤ v && v < va.toNat + n

/-- The address of a failure among n bytes at va: of the first byte that fails. -/
def State.failVa (s : State) (f : Fail) (va : Dword) (pa n : Nat) : Dword :=
  if f.cause == .machine then va + BitVec.ofNat 64 (s.firstBad pa n) else va

/-- The same for an owner's access: of the first byte of its request that has failed, when one has. -/
def State.failAddr (s : State) (o : Owner) (f : Fail) (va : Dword) (pa n : Nat) : Dword :=
  match s.lostAt o va n with
  | [] => s.failVa f va pa n
  | x :: xs => BitVec.ofNat 64 (xs.foldl min x)

/-- A read of n bytes at a global address by an agent of a launch, page by page; `fuel` pages at most. -/
def State.agentRead (s : State) (o : Owner) (sp : Space) (sup : Bool) (src : Nat) (svc : Bool := false) : Nat → Dword → Nat → State × Got (List Byte)
  | 0, _, _ => (s, .ok [])
  | fuel + 1, va, n =>
    if n == 0 then (s, .ok [])
    else
      let m := inPage va n
      match s.translate sp va .read sup with
      | (s1, .request) => let (s2, tag) := s1.requestPage sp va .read src; (s2, .wait tag va)
      | (s1, .fail f) => (s1, .fail f va)
      | (s1, .ok e lv) =>
        let pa := leafPa e lv va
        let p := s1.physPlace e pa m false svc
        match s1.readPlace o va p m with
        | (s2, .error (some f)) => (s2, .fail f (s2.failAddr o f va pa m))
        | (s2, .error none) => (s2, .wait 0 va)
        | (s2, .ok bs) =>
          match State.agentRead s2 o sp sup src svc fuel (va + BitVec.ofNat 64 m) (n - m) with
          | (s3, .ok rest) => (s3, .ok (bs ++ rest))
          | r => r

/-- A write by an agent of a launch; bytes before a page that fails are written. -/
def State.agentWrite (s : State) (o : Owner) (sp : Space) (sup : Bool) (src : Nat) (svc : Bool := false) : Nat → Dword → List Byte → State × Got Unit
  | 0, _, _ => (s, .ok ())
  | fuel + 1, va, bs =>
    if bs.isEmpty then (s, .ok ())
    else
      let m := inPage va bs.length
      match s.translate sp va .write sup with
      | (s1, .request) => let (s2, tag) := s1.requestPage sp va .write src; (s2, .wait tag va)
      | (s1, .fail f) => (s1, .fail f va)
      | (s1, .ok e lv) =>
        let pa := leafPa e lv va
        let p := s1.physPlace e pa m true svc
        match s1.writePlace o va p (bs.take m) with
        | (s2, .error (some f)) => (s2, .fail f (s2.failAddr o f va pa m))
        | (s2, .error none) => (s2, .wait 0 va)
        | (s2, .ok _) => State.agentWrite s2 o sp sup src svc fuel (va + BitVec.ofNat 64 m) (bs.drop m)

/-- A memory-side read of a launch (18 R385), with user-mode permissions. -/
def State.sideRead (s : State) (o : Owner) (l : Launch) (va : Dword) (n : Nat) : State × Got (List Byte) :=
  s.agentRead o l.space false 3 false (n / 4096 + 2) va n

def State.sideWrite (s : State) (o : Owner) (l : Launch) (va : Dword) (bs : List Byte) : State × Got Unit :=
  s.agentWrite o l.space false 3 false (bs.length / 4096 + 2) va bs

end Sys2Proof.Machine
end

