-- ==== Sys2Proof/Machine/Operands.lean ====
section
/-! DEFINITION. Reading and writing operands (01 R13 to R19, 02 R45 to R50), and the run-time checks of operand registers
(01 R14, R15, 02 R51). -/

namespace Sys2Proof.Machine

/-! ### Registers of one thread -/

def Thread.getV (th : Thread) (n : BitVec 8) : Word := th.v[n.toNat]'(n.isLt)
def Thread.setV (th : Thread) (n : BitVec 8) (x : Word) : Thread := { th with v := th.v.set n.toNat x n.isLt }
def Thread.getO (th : Thread) (n : BitVec 3) : Word := th.o[n.toNat]'(n.isLt)
def Thread.setO (th : Thread) (n : BitVec 3) (x : Word) : Thread := { th with o := th.o.set n.toNat x n.isLt }
def Group.getK (g : Group) (n : BitVec 8) : Dword := g.k[n.toNat]'(n.isLt)
def Group.setK (g : Group) (n : BitVec 8) (x : Dword) : Group := { g with k := g.k.set n.toNat x n.isLt }

/-- A uniform register as a thread reads it: the latest write of the total order of 01 R17 (log 55); threads without a group have no
uniform allocation. -/
def State.getK (s : State) (th : Thread) (n : BitVec 8) : Dword :=
  match th.unit with
  | .device => match s.group? th.group with
    | some g => g.getK n
    | none => 0
  | _ => 0

/-- A predicate; p7 is true (01 R21). -/
def Thread.pred (th : Thread) (n : BitVec 3) : Bool := n == 7#3 || th.p.getLsbD n.toNat

/-- A write to a predicate; to p7 it is discarded. -/
def Thread.setPred (th : Thread) (n : BitVec 3) (x : Bool) : Thread :=
  if n == 7#3 then th
  else { th with p := if x then th.p ||| (1#7 <<< n.toNat) else th.p &&& ~~~(1#7 <<< n.toNat) }

/-- The guard field: predicate in bits [2:0], negate in bit [3] (01 R21). -/
def Thread.guard (th : Thread) (g : BitVec 4) : Bool := th.pred (g.extractLsb' 0 3) != g.getLsbD 3

/-! ### Sources -/

/-- A source operand of 32 or 64 bits, before any conversion of an immediate (02 R46, R47); a 32-bit value is
zero-extended. -/
def State.src (s : State) (th : Thread) (lit : Dword) (o : Opnd) (w : Nat) : Dword :=
  let cut (x : Dword) : Dword := if w == 64 then x else x &&& 0xFFFFFFFF#64
  match o with
  | .v n => if w == 64 then th.getV (n + 1) ++ th.getV n else (th.getV n).setWidth 64
  | .o n => if w == 64 then th.getO (n + 1) ++ th.getO n else (th.getO n).setWidth 64
  | .k n => cut (s.getK th n)
  | .y0 => cut th.y0
  | .y1 => cut th.y1
  | .zero => 0
  | .lit => cut lit
  | .litLo => lit &&& 0xFFFFFFFF#64
  | .litHi => lit >>> 32
  | .imm b => cut (b.signExtend 64)

/-- A 128-bit source: a v quad or the zero code (02 R47). -/
def State.src128 (th : Thread) (o : Opnd) : BitVec 128 :=
  match o with
  | .v n => th.getV (n + 3) ++ th.getV (n + 2) ++ th.getV (n + 1) ++ th.getV n
  | _ => 0

def State.src32 (s : State) (th : Thread) (lit : Dword) (o : Opnd) : Word := (s.src th lit o 32).setWidth 32

/-! ### Destinations -/

/-- Writes a register without touching y: the delivery of a load, or the first half of a register result (01 R16). -/
def State.deliver (s : State) (t : Nat) (o : Opnd) (w : Nat) (x : BitVec 128) : State :=
  match o with
  | .v n => s.modThread t fun th =>
    let th1 := th.setV n (x.extractLsb' 0 32)
    let th2 := if w ≥ 64 then th1.setV (n + 1) (x.extractLsb' 32 32) else th1
    if w == 128 then (th2.setV (n + 2) (x.extractLsb' 64 32)).setV (n + 3) (x.extractLsb' 96 32) else th2
  | .o n => s.modThread t fun th =>
    let th1 := th.setO n (x.extractLsb' 0 32)
    if w ≥ 64 then th1.setO (n + 1) (x.extractLsb' 32 32) else th1
  | .k n =>
    match s.thread? t with
    | some th => s.modGroup th.group fun g =>
      { g.setK n (if w == 64 then x.extractLsb' 0 64 else (x.extractLsb' 0 32).setWidth 64) with
        kdeps := if th.relDeps.isEmpty || g.kdeps.contains (n.toNat, th.relDeps) then g.kdeps else (n.toNat, th.relDeps) :: g.kdeps }
    | none => s
  | _ => s

/-- True for the destinations whose result enters y (01 R18). -/
def opndIsReg : Opnd → Bool
  | .v _ | .o _ | .k _ | .y0 => true
  | _ => false

/-- A register result enters the last-result file (01 R18). -/
def Thread.shiftY (th : Thread) (x : Dword) : Thread := { th with y1 := th.y0, y0 := x }

/-- A register result of w bits (01 R16, R18, R19); to the zero code it is discarded. -/
def State.result (s : State) (t : Nat) (o : Opnd) (w : Nat) (x : BitVec 128) : State :=
  if opndIsReg o then
    let y : Dword := if w == 32 then (x.extractLsb' 0 32).setWidth 64 else x.extractLsb' 0 64
    (s.deliver t o w x).modThread t fun th => th.shiftY y
  else s

/-! ### Run-time checks of registers -/

/-- A register number's fate against the allocations (01 R14, R15, 02 R51): a pair or quad that reaches beyond the v
allocation is ILLEGAL, a 32-bit register or a span beyond it is RANGE, a k register at or beyond the uniform allocation is
RANGE. -/
def useFate (u : Use) (alloc uniforms : Nat) : Option Cause :=
  let top := min alloc 255
  match u with
  | .src (.v n) w | .dst (.v n) w | .ldst (.v n) w =>
    if w ≤ 32 then (if n.toNat < top then none else some .range)
    else if n.toNat + w / 32 ≤ top then none
    else some .illegal
  | .srcNarrow (.v n) | .vreg n => if n.toNat < top then none else some .range
  | .span (.v n) c _ _ => if n.toNat + c ≤ top then none else some .range
  | .src (.k n) _ | .srcNarrow (.k n) | .dst (.k n) _ => if n.toNat < uniforms then none else some .range
  | .kspan (.k n) => if n.toNat + 8 ≤ uniforms then none else some .range
  | _ => none

/-- The first ILLEGAL and the first RANGE of an instruction's registers. -/
def usesFate (us : List Use) (alloc uniforms : Nat) : Option Cause :=
  let fs := us.filterMap fun u => useFate u alloc uniforms
  if fs.contains .illegal then some .illegal else fs.head?

/-- The uniform allocation that a thread sees. -/
def State.uniforms (s : State) (th : Thread) : Nat :=
  match th.unit with
  | .device => match s.group? th.group with
    | some g => g.hdr.uniforms
    | none => 0
  | _ => 0

/-! ### Registers that a use touches, for the stall of 01 R29 -/

/-- v registers of a specifier at a width, and o registers as 256 + n. -/
def regsOf (o : Opnd) (words : Nat) : List Nat :=
  match o with
  | .v n => (List.range words).map (n.toNat + ·)
  | .o n => (List.range words).map (256 + n.toNat + ·)
  | _ => []

def useRegs : Use → List Nat
  | .src o w | .dst o w | .ldst o w => regsOf o (w / 32)
  | .srcNarrow o => regsOf o 1
  | .span o c _ _ => regsOf o c
  | .vreg n => [n.toNat]
  | _ => []

/-- Destination registers of an outstanding access. -/
def Access.regs (a : Access) : List Nat :=
  match a.op with
  | .ld ty => regsOf a.dst (ty.regWidth / 32)
  | .atom ty _ _ _ => regsOf a.dst (ty.regWidth / 32)
  | .ldmx dt n _ _ => regsOf a.dst (if dt == 0 then n else n / 2)
  | .sg kind _ _ => regsOf a.dst (if kind == 3 then 2 else 1)
  | _ => []

/-- True for an access that counts as a load (01 R28). -/
def MemOp.isLoad : MemOp → Bool
  | .ld _ | .ldmx .. | .atom .. | .sg .. => true
  | _ => false

/-- A register of the list is the destination of an outstanding load (01 R29). -/
def Thread.busy (th : Thread) (rs : List Nat) : Bool := th.ops.any fun a => a.regs.any rs.contains

end Sys2Proof.Machine
end

