-- ==== Sys2Proof/Machine/Flags.lean ====
section
/-! DEFINITION. The status word's fields (01 R22, R23): floating-point flags and the rounding mode. -/

namespace Sys2Proof.Machine

/-- Rounding directions (03 R81). -/
inductive Rnd where
  | rne | rtz | rdn | rup
  deriving DecidableEq, Repr

/-- Flags in the layout of 01 R22: NV, DZ, OF, UF, NX from bit 4 down. -/
abbrev FFlags := BitVec 5

def fNV : FFlags := 16#5
def fDZ : FFlags := 8#5
def fOF : FFlags := 4#5
def fUF : FFlags := 2#5
def fNX : FFlags := 1#5

def Rnd.ofCode (c : BitVec 2) : Rnd :=
  match c with
  | 0#2 => .rne | 1#2 => .rtz | 2#2 => .rdn | _ => .rup

/-- The direction an RND field selects; 4 takes it from the status word (03 R81). -/
def Thread.rnd (th : Thread) (c : BitVec 3) : Rnd :=
  if c == 4#3 then Rnd.ofCode (th.status.extractLsb' 8 2) else Rnd.ofCode (c.extractLsb' 0 2)

/-- An instruction ORs its flags into the status word (01 R23). -/
def Thread.raise (th : Thread) (f : FFlags) : Thread := { th with status := th.status ||| f.setWidth 32 }

def State.raise (s : State) (t : Nat) (f : FFlags) : State := s.modThread t fun th => th.raise f

/-- The bits of the status word that exist (01 R22). -/
def statusMask : Word := 0x31F#32

end Sys2Proof.Machine
end

