-- ==== Sys2Proof/Machine/Float.lean ====
section
/-! DEFINITION. Number formats (03 R68 to R91): exact values of floating-point codes, the one rounding function with its
overflow rules and flags, arithmetic on exact values, conversions and block sums. -/

namespace Sys2Proof.Machine

/-- The value of a floating-point code: NaN, infinity, or (-1)^neg * m * 2^e exactly. A quotient or root carries a last bit
that is 1 when the exact value lies above (its m is odd and long enough for every format). -/
inductive FVal where
  | nan (signalling : Bool)
  | inf (neg : Bool)
  | fin (neg : Bool) (m : Nat) (e : Int)
  deriving DecidableEq, Repr

/-- How a format uses its highest exponent (03 R70 to R72). -/
inductive Top where
  | ieee      -- infinities and NaNs
  | e4m3      -- one NaN code, no infinity
  | none      -- finite values only
  deriving DecidableEq, Repr

/-- A floating-point layout; `pad` is the number of low bits of the container that the format leaves out (TF32). -/
structure Fmt where
  ew : Nat
  mw : Nat
  bias : Nat
  top : Top := .ieee
  pad : Nat := 0
  deriving DecidableEq, Repr

/-- The layout of a type; types that are not floating-point read as FP32. -/
def Ty.fmt : Ty → Fmt
  | .f64 => { ew := 11, mw := 52, bias := 1023 }
  | .f16 => { ew := 5, mw := 10, bias := 15 }
  | .bf16 => { ew := 8, mw := 7, bias := 127 }
  | .tf32 => { ew := 8, mw := 10, bias := 127, pad := 13 }
  | .e4m3 => { ew := 4, mw := 3, bias := 7, top := .e4m3 }
  | .e5m2 => { ew := 5, mw := 2, bias := 15 }
  | .e3m2 => { ew := 3, mw := 2, bias := 3, top := .none }
  | .e2m3 => { ew := 2, mw := 3, bias := 1, top := .none }
  | .e2m1 => { ew := 2, mw := 1, bias := 1, top := .none }
  | _ => { ew := 8, mw := 23, bias := 127 }

/-- Exponent of the smallest subnormal. -/
def Fmt.q0 (f : Fmt) : Int := 1 - (f.bias : Int) - f.mw

/-- The largest finite code without its sign. -/
def Fmt.maxCode (f : Fmt) : Nat :=
  match f.top with
  | .ieee => (2 ^ f.ew - 1) * 2 ^ f.mw - 1
  | .e4m3 => 0x7E
  | .none => 2 ^ (f.ew + f.mw) - 1

/-- The canonical NaN (03 R70, R72), without padding. -/
def Fmt.nanCode (f : Fmt) : Nat :=
  match f.top with
  | .ieee => (2 ^ f.ew - 1) * 2 ^ f.mw + 2 ^ (f.mw - 1)
  | .e4m3 => 0x7F
  | .none => 0

/-- A code with its sign in the container. -/
def Fmt.put (f : Fmt) (neg : Bool) (code : Nat) : Nat :=
  (code + (if neg then 2 ^ (f.ew + f.mw) else 0)) * 2 ^ f.pad

/-- The value of a code (03 R70 to R72). Narrow formats have no signalling NaN. -/
def decodeF (ty : Ty) (bits : Nat) : FVal :=
  let f := Ty.fmt ty
  let c := bits / 2 ^ f.pad
  let neg := c.testBit (f.ew + f.mw)
  let m := c % 2 ^ f.mw
  let x := c / 2 ^ f.mw % 2 ^ f.ew
  let special := match f.top with
    | .ieee => x == 2 ^ f.ew - 1
    | .e4m3 => x == 15 && m == 7
    | .none => false
  if special then
    match f.top with
    | .ieee =>
      if m == 0 then .inf neg else .nan (8 < f.ew + f.mw + 1 && !m.testBit (f.mw - 1))
    | _ => .nan false
  else if x == 0 then .fin neg m f.q0
  else .fin neg (m + 2 ^ f.mw) (f.q0 + (x - 1))

/-- A rounded result with the flags it raises. -/
structure FRes where
  bits : Nat
  flags : FFlags := 0
  deriving DecidableEq, Repr

def FVal.neg : FVal → Bool
  | .nan _ => false
  | .inf n => n
  | .fin n _ _ => n

def FVal.negate : FVal → FVal
  | .nan s => .nan s
  | .inf n => .inf (!n)
  | .fin n m e => .fin (!n) m e

def FVal.isNan : FVal → Bool
  | .nan _ => true
  | _ => false

def FVal.isSnan : FVal → Bool
  | .nan s => s
  | _ => false

def FVal.isInf : FVal → Bool
  | .inf _ => true
  | _ => false

def FVal.isZero : FVal → Bool
  | .fin _ 0 _ => true
  | _ => false

/-- m * 2^e as a multiple of 2^q, rounded in a direction, and whether it is exact. -/
def roundAt (mode : Rnd) (neg : Bool) (m : Nat) (e q : Int) : Nat × Bool :=
  if q ≤ e then (m * 2 ^ (e - q).toNat, true)
  else
    let d := (q - e).toNat
    let n := m / 2 ^ d
    let r := m % 2 ^ d
    let up := match mode with
      | .rne => 2 ^ d < 2 * r || (2 * r == 2 ^ d && n % 2 == 1)
      | .rtz => false
      | .rdn => neg && r != 0
      | .rup => !neg && r != 0
    (if up then n + 1 else n, r == 0)

/-- The code of n * 2^q, n having at most mw + 1 bits but for a carry, with the exponent unbounded above. -/
def Fmt.code (f : Fmt) (n : Nat) (q : Int) : Nat :=
  let (n, q) := if n == 2 ^ (f.mw + 1) then (2 ^ f.mw, q + 1) else (n, q)
  if n < 2 ^ f.mw then n else (q - f.q0 + 1).toNat * 2 ^ f.mw + (n - 2 ^ f.mw)

/-- What an overflow delivers: true for the infinity of its sign (03 R82). -/
def overflowInf (mode : Rnd) (neg : Bool) : Bool :=
  match mode with
  | .rne => true
  | .rtz => false
  | .rdn => neg
  | .rup => !neg

/-- The infinity of a format, or what stands for it: the NaN of E4M3, the largest finite value of a format without either
(03 R83, R84). -/
def Fmt.infCode (f : Fmt) : Nat :=
  match f.top with
  | .ieee => (2 ^ f.ew - 1) * 2 ^ f.mw
  | .e4m3 => 0x7F
  | .none => f.maxCode

/-- ROUNDTO for a finite value (03 R79, R81 to R84). -/
def roundFin (f : Fmt) (mode : Rnd) (sat : Bool) (neg : Bool) (m : Nat) (e : Int) : FRes :=
  if m == 0 then { bits := f.put neg 0 }
  else
    let eL := e + (Nat.log2 m : Int) - f.mw
    let q := if eL < f.q0 then f.q0 else eL
    let (n, exact) := roundAt mode neg m e q
    let c := f.code n q
    if f.maxCode < c then
      let code := if sat || f.top == .none || !overflowInf mode neg then f.maxCode else f.infCode
      let neg' := if f.top == .e4m3 && code == f.infCode then false else neg
      { bits := f.put neg' code, flags := fOF ||| fNX }
    else
      let tiny := eL < f.q0 && (roundAt mode neg m e eL).1 < 2 ^ (f.q0 + f.mw - eL).toNat
      { bits := f.put neg c, flags := if exact then 0 else if tiny then fUF ||| fNX else fNX }

/-- Conversion of an exact value into a format, with the special cases of 03 R82 to R84. -/
def roundTo (ty : Ty) (mode : Rnd) (sat : Bool) (v : FVal) : FRes :=
  let f := Ty.fmt ty
  match v with
  | .nan s =>
    if f.top == .none then { bits := 0, flags := fNV } else { bits := f.put false f.nanCode, flags := if s then fNV else 0 }
  | .inf n =>
    match f.top with
    | .ieee => if sat then { bits := f.put n f.maxCode, flags := fNV } else { bits := f.put n f.infCode }
    | .e4m3 => if sat then { bits := f.put n f.maxCode, flags := fNV } else { bits := f.put false 0x7F, flags := fNV }
    | .none => { bits := f.put n f.maxCode, flags := fNV }
  | .fin n m e => roundFin f mode sat n m e

/-- RNE(x, ty) of a value, keeping only the bits. -/
def rne (ty : Ty) (v : FVal) : Nat := (roundTo ty .rne false v).bits

/-! ### Arithmetic on exact values; each answers the exact result and NV (03 R78, R80) -/

def nvIf (b : Bool) : FFlags := if b then fNV else 0

/-- The exact sum of signed multiples of powers of two; a zero sum takes its sign by R80. -/
def addFin (mode : Rnd) (n1 : Bool) (m1 : Nat) (e1 : Int) (n2 : Bool) (m2 : Nat) (e2 : Int) : FVal :=
  let e := if e1 < e2 then e1 else e2
  let a : Nat := m1 * 2 ^ (e1 - e).toNat
  let b : Nat := m2 * 2 ^ (e2 - e).toNat
  if n1 == n2 then .fin n1 (a + b) e
  else if a == b then .fin (mode == .rdn) 0 e
  else if b < a then .fin n1 (a - b) e
  else .fin n2 (b - a) e

def addV (mode : Rnd) (x y : FVal) : FVal × FFlags :=
  match x, y with
  | .nan a, .nan b => (.nan false, nvIf (a || b))
  | .nan a, _ => (.nan false, nvIf a)
  | _, .nan b => (.nan false, nvIf b)
  | .inf a, .inf b => if a == b then (.inf a, 0) else (.nan false, fNV)
  | .inf a, _ => (.inf a, 0)
  | _, .inf b => (.inf b, 0)
  | .fin n1 m1 e1, .fin n2 m2 e2 => (addFin mode n1 m1 e1 n2 m2 e2, 0)

def mulV (x y : FVal) : FVal × FFlags :=
  match x, y with
  | .nan a, .nan b => (.nan false, nvIf (a || b))
  | .nan a, _ => (.nan false, nvIf a)
  | _, .nan b => (.nan false, nvIf b)
  | .inf a, y => if y.isZero then (.nan false, fNV) else (.inf (a != y.neg), 0)
  | x, .inf b => if x.isZero then (.nan false, fNV) else (.inf (x.neg != b), 0)
  | .fin n1 m1 e1, .fin n2 m2 e2 => (.fin (n1 != n2) (m1 * m2) (e1 + e2), 0)

/-- The quotient of finite values to enough bits, its last bit set when it is inexact. -/
def divFin (n1 : Bool) (m1 : Nat) (e1 : Int) (n2 : Bool) (m2 : Nat) (e2 : Int) : FVal :=
  let k := Nat.log2 m2 + 130
  let a := m1 * 2 ^ k
  .fin (n1 != n2) (2 * (a / m2) + (if a % m2 == 0 then 0 else 1)) (e1 - e2 - k - 1)

def divV (x y : FVal) : FVal × FFlags :=
  match x, y with
  | .nan a, .nan b => (.nan false, nvIf (a || b))
  | .nan a, _ => (.nan false, nvIf a)
  | _, .nan b => (.nan false, nvIf b)
  | .inf a, .inf _ => let _ := a; (.nan false, fNV)
  | .inf a, y => (.inf (a != y.neg), 0)
  | x, .inf b => (.fin (x.neg != b) 0 0, 0)
  | .fin n1 m1 e1, .fin n2 m2 e2 =>
    if m2 == 0 then (if m1 == 0 then (.nan false, fNV) else (.inf (n1 != n2), fDZ))
    else (divFin n1 m1 e1 n2 m2 e2, 0)

/-- Integer square root by bits, high first. -/
def isqrtBits (n : Nat) : Nat → Nat → Nat
  | 0, r => r
  | b + 1, r => let r' := r + 2 ^ b; isqrtBits n b (if r' * r' ≤ n then r' else r)

def isqrt (n : Nat) : Nat := isqrtBits n (Nat.log2 n / 2 + 1) 0

/-- The square root of m * 2^e to enough bits. -/
def sqrtFin (m : Nat) (e : Int) : FVal :=
  let (m1, e1) := if e % 2 == 0 then (m, e) else (2 * m, e - 1)
  let a := m1 * 2 ^ 256
  let r := isqrt a
  .fin false (2 * r + (if r * r == a then 0 else 1)) (e1 / 2 - 129)

def sqrtV (x : FVal) : FVal × FFlags :=
  match x with
  | .nan a => (.nan false, nvIf a)
  | .inf n => if n then (.nan false, fNV) else (.inf false, 0)
  | .fin n m e => if m == 0 then (.fin n 0 0, 0) else if n then (.nan false, fNV) else (sqrtFin m e, 0)

/-- Order of two values: none with a NaN; -0 equals +0. -/
def cmpV (x y : FVal) : Option Ordering :=
  match x, y with
  | .nan _, _ | _, .nan _ => none
  | .inf a, .inf b => some (if a == b then .eq else if a then .lt else .gt)
  | .inf a, _ => some (if a then .lt else .gt)
  | _, .inf b => some (if b then .gt else .lt)
  | .fin n1 m1 e1, .fin n2 m2 e2 =>
    let e := if e1 < e2 then e1 else e2
    let a : Int := (if n1 then -1 else 1) * ((m1 * 2 ^ (e1 - e).toNat : Nat) : Int)
    let b : Int := (if n2 then -1 else 1) * ((m2 * 2 ^ (e2 - e).toNat : Nat) : Int)
    some (compare a b)

def ltV (x y : FVal) : Bool := cmpV x y == some .lt
def leV (x y : FVal) : Bool := cmpV x y == some .lt || cmpV x y == some .eq
def eqV (x y : FVal) : Bool := cmpV x y == some .eq

/-- An integer as an exact value. -/
def ofInt (i : Int) : FVal := .fin (decide (i < 0)) i.natAbs 0

/-- A power of two. -/
def pow2V (e : Int) : FVal := .fin false 1 e

/-! ### Operations of one type -/

def fadd (ty : Ty) (mode : Rnd) (a b : Nat) : FRes :=
  let (v, f) := addV mode (decodeF ty a) (decodeF ty b)
  let r := roundTo ty mode false v
  { r with flags := r.flags ||| f }

def fmul (ty : Ty) (mode : Rnd) (a b : Nat) : FRes :=
  let (v, f) := mulV (decodeF ty a) (decodeF ty b)
  let r := roundTo ty mode false v
  { r with flags := r.flags ||| f }

/-- a * b + c with one rounding. -/
def ffma (ty : Ty) (mode : Rnd) (a b c : Nat) : FRes :=
  let x := decodeF ty a
  let y := decodeF ty b
  let z := decodeF ty c
  let (p, f) := mulV x y
  let (v, g) := addV mode p z
  let r := roundTo ty mode false v
  { r with flags := r.flags ||| f ||| g }

def fdiv (ty : Ty) (mode : Rnd) (a b : Nat) : FRes :=
  let (v, f) := divV (decodeF ty a) (decodeF ty b)
  let r := roundTo ty mode false v
  { r with flags := r.flags ||| f }

def fsqrt (ty : Ty) (mode : Rnd) (a : Nat) : FRes :=
  let (v, f) := sqrtV (decodeF ty a)
  let r := roundTo ty mode false v
  { r with flags := r.flags ||| f }

/-- Sign bit flipped: subtraction is addition of the negated operand. -/
def fneg (ty : Ty) (a : Nat) : Nat := a ^^^ 2 ^ (ty.width - 1)

/-! ### Integers -/

/-- Range of an integer format (03 R68). -/
def Ty.range (ty : Ty) : Int × Int :=
  let w := ty.width
  if ty.signed then (-(2 ^ (w - 1) : Nat), (2 ^ (w - 1) : Nat) - 1) else (0, (2 ^ w : Nat) - 1)

def clampTo (ty : Ty) (x : Int) : Int :=
  let (lo, hi) := Ty.range ty
  if x < lo then lo else if hi < x then hi else x

/-- The value of an integer code. -/
def decodeI (ty : Ty) (bits : Nat) : Int :=
  let w := ty.width
  let n := bits % 2 ^ w
  if ty.signed && n.testBit (w - 1) then (n : Int) - (2 ^ w : Nat) else n

/-- The low bits of an exact integer, or the nearest bound under saturation (03 R68). -/
def encodeI (ty : Ty) (sat : Bool) (x : Int) : Nat :=
  let y := if sat then clampTo ty x else x
  (y % ((2 ^ ty.width : Nat) : Int)).toNat

/-- A floating-point value rounded to an integer, saturating (03 R85). -/
def toInt (ty : Ty) (mode : Rnd) (v : FVal) : Int × FFlags :=
  let (lo, hi) := Ty.range ty
  match v with
  | .nan _ => (0, fNV)
  | .inf n => (if n then lo else hi, fNV)
  | .fin n m e =>
    let (k, exact) := roundAt mode n m e 0
    let i : Int := if n then -(k : Int) else k
    if i < lo then (lo, fNV) else if hi < i then (hi, fNV) else (i, if exact then 0 else fNX)

/-! ### Block sums (03 R87 to R89) -/

/-- A running exact block sum: its finite part, the infinities it met, a NaN element or scale, and NV already raised. -/
structure BlockAcc where
  sum : FVal := .fin true 0 0
  pos : Bool := false
  negInf : Bool := false
  nan : Bool := false
  snan : Bool := false
  bad : Bool := false          -- a product 0 * infinity
  empty : Bool := true
  deriving DecidableEq, Repr

/-- One product enters the sum. -/
def BlockAcc.add (x : BlockAcc) (a b : FVal) : BlockAcc :=
  let y := { x with empty := false, nan := x.nan || a.isNan || b.isNan, snan := x.snan || a.isSnan || b.isSnan }
  match mulV a b with
  | (.nan _, _) => { y with bad := y.bad || !(a.isNan || b.isNan) }
  | (.inf n, _) => if n then { y with negInf := true } else { y with pos := true }
  | (.fin n m e, _) =>
    match y.sum with
    | .fin n0 m0 e0 => { y with sum := if x.empty then .fin n m e else addFin .rne n0 m0 e0 n m e }
    | _ => y

/-- One product of two integer elements enters the sum: an integer zero has no sign. -/
def BlockAcc.addInt (x : BlockAcc) (a b : Int) : BlockAcc := x.add (ofInt (a * b)) (.fin false 1 0)

/-- The exact value of a block after scaling, with NV (03 R88). -/
def BlockAcc.value (x : BlockAcc) (sa sb : FVal) : FVal × FFlags :=
  let nan := x.nan || sa.isNan || sb.isNan
  let snan := x.snan || sa.isSnan || sb.isSnan
  let both := x.pos && x.negInf
  let raw : FVal := if x.nan || x.bad || both then .nan false else if x.pos then .inf false else if x.negInf then .inf true
    else if x.empty then .fin false 0 0 else x.sum
  let (v1, _) := mulV raw sa
  let (v2, _) := mulV v1 sb
  let bad1 := !raw.isNan && !sa.isNan && v1.isNan
  let bad2 := !v1.isNan && !sb.isNan && v2.isNan
  (v2, nvIf (snan || x.bad || bad1 || bad2 || (!nan && both)))

/-- One block step: acc := RNE(acc + s, f32). -/
def blockStep (acc : Nat) (x : BlockAcc) (sa sb : FVal) : FRes :=
  let a := decodeF .f32 acc
  let (v, f) := x.value sa sb
  let (r, g) := addV .rne a v
  let y := roundTo .f32 .rne false r
  { y with flags := y.flags ||| f ||| g }

/-- The UE8M0 scale (03 R74). -/
def scaleV (c : Nat) : FVal := if c == 0xFF then .nan false else pow2V ((c : Int) - 127)

/-- An element of any operand format, at its exact value. -/
def elemV (ty : Ty) (bits : Nat) : FVal :=
  match ty with
  | .i4 | .i8 | .n8 | .i32 | .n32 | .i64 | .n64 => ofInt (decodeI ty bits)
  | _ => decodeF ty (bits % 2 ^ ty.width)

/-- True for the formats whose elements are read as integers (03 R87). -/
def Ty.isInt : Ty → Bool
  | .i4 | .i8 | .n8 | .i32 | .n32 | .i64 | .n64 => true
  | _ => false

/-- One product of element codes enters the sum. -/
def BlockAcc.addElem (x : BlockAcc) (ta tb : Ty) (a b : Nat) : BlockAcc :=
  if Ty.isInt ta && Ty.isInt tb then x.addInt (decodeI ta a) (decodeI tb b) else x.add (elemV ta a) (elemV tb b)

/-- The block of two lists of element codes. -/
def blockOf (ta tb : Ty) (ps : List (Nat × Nat)) : BlockAcc := ps.foldl (fun x p => x.addElem ta tb p.1 p.2) {}

end Sys2Proof.Machine
end

