-- ==== Sys2Proof/Machine/Pool.lean ====
section
/-! DEFINITION. Coordinates (05 R142), fault records and fault queues (17 R371, R372), entry headers (02 R66, R67), the spawn
pool with its bins (05 R149 to R154), and completion slots (11 R242 to R248). -/

namespace Sys2Proof.Machine

def Cause.code : Cause → Nat
  | .illegal => 0x01 | .unimpl => 0x02 | .priv => 0x03 | .misalign => 0x04 | .range => 0x05 | .page => 0x06
  | .prot => 0x07 | .owner => 0x08 | .shape => 0x09 | .desc => 0x0A | .scale => 0x0B | .slot => 0x0C | .harness => 0x0D
  | .brk => 0x0E | .stack => 0x0F | .fabric => 0x10 | .machine => 0x11 | .svc => 0x12

/-! ### Coordinates -/

/-- A coordinate or shape register (05 R142). -/
def packXyz (x y z : Nat) : Dword := BitVec.ofNat 64 (x % 65536 + y % 65536 * 65536 + z % 65536 * 2 ^ 32)

/-- The coordinate of index i in a shape. -/
def xyz (i x y : Nat) : Dword := packXyz (i % x) (i / x % y) (i / (x * y))

def State.groupXyz (s : State) (g : Group) : Dword :=
  match s.launch? g.launch with
  | some l => if g.spawned == 0 then xyz g.idx l.lr.gx l.lr.gy else 0
  | none => 0

def State.gangXyz (s : State) (g : Group) : Dword :=
  match s.launch? g.launch with
  | some l => if g.spawned == 0 then xyz g.gangIdx l.lr.lx l.lr.ly else 0
  | none => 0

/-! ### Fault records -/

/-- The JOIN fields of a record (17 R370). -/
structure JoinInfo where
  set : Nat := 0
  members : Nat := 0
  arrived : Nat := 0
  pc : Dword := 0
  mask : Word := 0
  deriving DecidableEq, Repr

/-- The thread that a record names: the thread, the instruction's address and its words. -/
structure Issuer where
  thread : Nat
  pc : Dword
  words : List Word
  deriving DecidableEq, Repr

/-- What a fault record says (17 R372). -/
structure RecordInfo where
  source : Nat
  cause : Nat
  flags : Nat := 0
  addr : Dword := 0
  slot : Option Nat := none
  by_ : Option Issuer := none
  join : JoinInfo := {}
  cont : Option Cont := none
  deriving DecidableEq, Repr

def wordsBytes (ws : List Word) : List Byte := ws.flatMap fun w => toBytes 4 w.toNat

/-- Instruction words in a field of 20 bytes. -/
def iwords (ws : List Word) : List Byte := (wordsBytes ws ++ List.replicate 20 0).take 20

/-- The 128 bytes of a fault record. -/
def State.recordBytes (s : State) (r : RecordInfo) : List Byte :=
  let th := r.by_.bind fun i => s.thread? i.thread
  let g := th.bind fun t => s.group? t.group
  let ofT (f : Thread → Nat) : Nat := (th.map f).getD 0
  let ofG (f : Group → Dword) : Nat := ((g.map f).getD 0).toNat
  toBytes 2 1 ++ toBytes 1 r.source ++ toBytes 1 r.cause ++ toBytes 1 r.flags ++ toBytes 1 (ofT (·.stage))
    ++ toBytes 2 (ofT (·.lane)) ++ toBytes 4 (ofT (·.tid)) ++ toBytes 4 (r.slot.getD 0xFFFFFFFF)
    ++ toBytes 8 (ofG s.groupXyz) ++ toBytes 8 (ofG s.gangXyz)
    ++ toBytes 8 ((r.by_.map fun i => i.pc.toNat).getD 0) ++ toBytes 8 r.addr.toNat
    ++ iwords ((r.by_.map fun i => i.words).getD []) ++ toBytes 4 r.join.mask.toNat ++ toBytes 8 r.join.pc.toNat
    ++ toBytes 2 r.join.arrived ++ toBytes 2 r.join.members ++ toBytes 1 r.join.set ++ toBytes 3 0 ++ toBytes 8 s.cycle
    ++ toBytes 8 ((r.cont.map fun c => c.entry.toNat).getD 0) ++ toBytes 8 ((r.cont.map fun c => c.arg.toNat).getD 0)
    ++ toBytes 16 0

/-- The fault queue cannot be used: its records are discarded and the service processor is told (17 R371, 21 R423). -/
def State.queueLost (s : State) (l : Launch) (cause : Nat) (addr : Dword) : State :=
  (s.setLaunch { l with records := [], tag := none }).queueEvent l.queue
    { kind := 4, code := cause, eid := l.id, datum := addr }

/-- Appends one record to the launch's fault queue, or counts it lost (17 R371). A header with a reserved byte set is one that
cannot be used, with cause DESC (00 R9; log 61). -/
def State.appendRecord (s : State) (l : Launch) (r : List Byte) : State × Got Unit :=
  let q := l.lr.faultq
  let o : Owner := .side l.id 0
  match s.sideRead o l q 64 with
  | (s1, .wait t va) => (s1, .wait t va)
  | (s1, .fail f a) => (s1, .fail f a)
  | (s1, .ok h) =>
    let cap := field h 0 4
    let written := word h 4
    if cap == 0 || cap > 2 ^ 20 || !zeros h 0x10 48 then (s1, .fail { cause := .desc } q)
    else if (written - word h 8).toNat ≥ cap then
      s1.sideWrite o l (q + 12) (toBytes 4 (word h 12 + 1).toNat)
    else
      match s1.sideWrite o l (q + 64 + BitVec.ofNat 64 (128 * (written.toNat % cap))) (patch r 0x58 (toBytes 8 s.cycle)) with
      | (s2, .ok _) => s2.sideWrite o l (q + 4) (toBytes 4 (written + 1).toNat)
      | x => x

/-- Writes a launch's waiting records in order, as far as pages allow. -/
def State.flushRecords (s : State) (lid : Nat) : Nat → State
  | 0 => s
  | fuel + 1 =>
    match s.launch? lid with
    | none => s
    | some l =>
      match l.records with
      | [] => s
      | r :: rest =>
        if l.lr.faultq == 0 || l.lr.faultq.extractLsb' 0 6 != 0#6 then s.queueLost l Cause.desc.code l.lr.faultq
        else match s.appendRecord l r with
          | (s1, .ok _) => State.flushRecords ((s1.setLaunch { l with records := rest, tag := none }).farDone (.side lid 0)) lid fuel
          | (s1, .wait t _) => s1.setLaunch { l with tag := if t == 0 then none else some t }
          | (s1, .fail f a) => (s1.queueLost l f.cause.code a).farDone (.side lid 0)

/-- Writes a fault record for a launch. Record writers of one launch are serialised. -/
def State.faultRecord (s : State) (lid : Nat) (r : RecordInfo) : State :=
  match s.launch? lid with
  | none => s
  | some l =>
    let s1 := s.setLaunch { l with records := l.records ++ [s.recordBytes r] }
    if l.tag.isNone then s1.flushRecords lid (l.records.length + 2) else s1

/-! ### Entry headers (02 R66, R67) -/

def parseHeader (h : List Byte) : Header :=
  { threads := (List.range 4).map fun i => field h (8 + 2 * i) 2
    regs := (List.range 4).map fun i => field h (0x10 + i) 1
    uniforms := field h 0x14 2, scratch := field h 0x18 4, slots := field h 0x1D 1, accwin := field h 0x1E 1
    awin := field h 0x1F 1, tvec := word h 0x20 }

/-- The checks of 02 R67 on the header at an entry address. -/
def headerOk (entry : Dword) (b : List Byte) : Bool :=
  let h := parseHeader b
  let n := (h.threads.takeWhile (· != 0)).length
  let win := [0, 8, 16, 24, 32]
  entry.extractLsb' 0 6 == 0#6 && field b 0 2 == 1 && zeros b 2 2 && zeros b 0x16 2 && zeros b 0x1C 1 && zeros b 0x24 28
    && 0 < n && (h.threads.drop n).all (· == 0) && h.threads.foldl (· + ·) 0 ≤ 1024
    && (h.regs.take n).all (fun r => 1 ≤ r && r ≤ 32) && (h.regs.drop n).all (· == 0)
    && h.uniforms ≤ 256 && h.uniforms % 16 == 0 && h.scratch ≤ 524288 && h.scratch % 1024 == 0 && h.slots ≤ 64
    && win.contains h.accwin && win.contains h.awin && (h.awin == 0 || h.accwin != 0)
    && h.tvec.extractLsb' 0 2 == 0#2 && field b 4 4 % 4 == 0

/-- A spawn entry (05 R152). -/
def spawnHeaderOk (entry : Dword) (b : List Byte) : Bool :=
  let h := parseHeader b
  headerOk entry b && h.threads == [32, 0, 0, 0] && h.accwin == 0 && h.awin == 0

/-! ### The spawn pool -/

/-- Threads that the pool holds (05 R149, R154). -/
def Launch.pending (l : Launch) : Nat := (l.bins.map fun b => b.threads.length).foldl (· + ·) 0

/-- The lowest record of the pool area that no pending thread uses. -/
def Launch.freeIndex (l : Launch) : Nat :=
  let used := l.bins.flatMap fun b => b.threads.map (·.index)
  ((List.range (used.length + 1)).find? fun i => !used.contains i).getD 0

/-- The address of a pending thread's record (05 R149). -/
def Launch.recordAddr (l : Launch) (p : PendThread) : Dword := l.lr.poolAddr + BitVec.ofNat 64 (16 * p.index)

/-- A pending thread as its record stands: a record that software has overwritten starts with what was written (05 R153; log 46). -/
def State.poolRecord (s : State) (l : Launch) (p : PendThread) : PendThread :=
  if !p.stored then p
  else match s.sideRead (.side l.id 2) l (l.recordAddr p) 16 with
    | (_, .ok b) => { p with entry := dword b 0, arg := dword b 8 }
    | _ => p

/-- A bin launches: its threads leave the pool as a gang of one spawned group (05 R150 to R152). -/
def State.launchBin (s : State) (lid : Nat) (b : Bin) : State :=
  match s.launch? lid with
  | none => s
  | some l =>
    let s1 := s.setLaunch { l with bins := l.bins.filter fun x => x.opened != b.opened }
    { s1 with
      nextId := s.nextId + 1
      gangs := s1.gangs ++ [{ id := s.nextId, launch := lid, entry := b.entry, spawned := b.threads.map (s.poolRecord l) }] }

/-- Cycles that a launch's bins collect threads: BINTIMER, 2,048 for 0 (05 R140, R151). -/
def Launch.binTime (l : Launch) : Nat := if l.lr.binTimer == 0 then 2048 else l.lr.binTimer

/-- A bin's cycle of expiry has passed, so no insertion can reach it any more; the timer rests while the launch is paused
(05 R151). -/
def Launch.binOver (l : Launch) (cycle : Nat) (b : Bin) : Bool := l.pausedAt.isNone && b.timer + l.binTime < cycle

/-- Bins whose cycle of expiry has passed launch (05 R151). -/
def State.expireBins (s : State) (lid : Nat) : State :=
  match s.launch? lid with
  | none => s
  | some l => (l.bins.filter (l.binOver s.cycle)).foldl (fun s b => s.launchBin lid b) s

/-- Changes the pending thread of a launch's record i. -/
def State.modPending (s : State) (lid i : Nat) (f : PendThread → PendThread) : State :=
  s.modLaunch lid fun l => { l with bins := l.bins.map fun b => { b with threads := b.threads.map fun p => if p.index == i then f p else p } }

/-- The first pending thread whose record is not yet written: its record is written, or waits for a page or an answer, or the
write fails and the thread starts as it was inserted (05 R149; log 46). -/
def State.writeRecord (s : State) (lid : Nat) : State :=
  match s.launch? lid with
  | none => s
  | some l =>
    match (l.bins.flatMap (·.threads)).find? fun p => !p.stored && !p.lost with
    | none => s
    | some p =>
      let o : Owner := .side lid 2
      match s.sideWrite o l (l.recordAddr p) (toBytes 8 p.entry.toNat ++ toBytes 8 p.arg.toNat) with
      | (s1, .ok _) =>
        State.farDone ((s1.modPending lid p.index fun x => { x with stored := true }).modLaunch lid fun l => { l with poolTag := none }) o
      | (s1, .wait t _) => s1.modLaunch lid fun l => { l with poolTag := if t == 0 then none else some t }
      | (s1, .fail _ _) =>
        State.farDone ((s1.modPending lid p.index fun x => { x with lost := true }).modLaunch lid fun l => { l with poolTag := none }) o

/-- One pending thread enters its bin (05 R149, R150), and its record is written to the pool area. -/
def State.insertOne (s0 : State) (lid : Nat) (p : PendThread) : State :=
  let s := s0.expireBins lid
  match s.launch? lid with
  | none => s
  | some l =>
    let q := { p with index := l.freeIndex, stored := false }
    match l.bins.find? fun b => b.entry == p.entry with
    | some b =>
      let b1 := { b with threads := b.threads ++ [q] }
      let s2 := (s.modLaunch lid fun l => { l with bins := l.bins.map fun x => if x.opened == b.opened then b1 else x }).writeRecord lid
      if b1.threads.length == 32 then
        match (s2.launch? lid).bind fun l => l.bins.find? fun x => x.opened == b.opened with
        | some b2 => s2.launchBin lid b2
        | none => s2
      else s2
    | none =>
      let s2 := if l.bins.length < 64 then s else
        match l.bins with
        | b :: _ => s.launchBin lid b
        | [] => s
      let (o, s3) := s2.newId
      (s3.modLaunch lid fun l =>
        { l with bins := l.bins ++ [{ entry := p.entry, threads := [q], opened := o, timer := l.pausedAt.getD s3.cycle }] }).writeRecord lid

/-- A step's insertions, in order (05 R150). -/
def State.insertAll (s : State) (lid : Nat) (ps : List PendThread) : State := ps.foldl (fun s p => s.insertOne lid p) s

/-- An event's insertion: it waits at its source while the pool is full (05 R153, R154). -/
def State.insertEvent (s : State) (lid : Nat) (p : PendThread) : State :=
  match s.launch? lid with
  | none => s
  | some l =>
    if l.waiting.isEmpty && l.pending < l.lr.poolCap then s.insertOne lid p
    else s.setLaunch { l with waiting := l.waiting ++ [p] }

/-! ### Completion slots -/

def State.modSlot (s : State) (g n : Nat) (f : Slot → Slot) : State :=
  s.modGroup g fun x => { x with slots := x.slots.modify n f }

/-- SX.SLOTRDY and its kin: one bit for each slot of the allocation (11 R249). -/
def slotBits (slots : List Slot) (f : Slot → Bool) : Dword :=
  BitVec.ofNat 64 (pack 1 (slots.map fun x => if f x then 1 else 0))

/-- A held thread continues past its instruction. -/
def Thread.release (th : Thread) : Thread :=
  { th with pc := th.pc + BitVec.ofNat 64 (4 * th.holdWords.length), hold := .none }

/-- A thread is behind unperformed writes of others (08 R208). -/
def State.see (s : State) (t : Nat) (ids : List Nat) : State :=
  if ids.isEmpty then s
  else s.modThread t fun x =>
    { x with saw := x.saw ++ ids.filter fun i => !x.saw.contains i && !x.ops.any fun a => a.id == i }

/-- The acquire side of a release at group scope through something of the group: a k register, slot n as 256 + n, or tile queue n as
320 + n (08 R213, R214). -/
def State.meet (s : State) (th : Thread) (key : Nat) : State :=
  match s.group? th.group with
  | some g => s.see th.id ((g.kdeps.filter fun e => e.1 == key).flatMap (·.2))
  | none => s

/-- What full fences of a group at group scope leave for the full fences that follow them has this key (08 R209). -/
def fenceKey : Nat := 1024

/-- The acquire side for the slots of a mask. -/
def State.meetSlots (s : State) (th : Thread) (m : Dword) : State :=
  ((List.range 64).filter fun n => m.getLsbD n).foldl (fun s n => s.meet th (256 + n)) s

/-- Releases a thread held at SWAIT (11 R253); success is an acquire of the ready slots (08 R213). -/
def State.releaseSwait (s : State) (th : Thread) (mask : Dword) (pd : Nat) (d : Opnd) : State :=
  match s.group? th.group with
  | none => s
  | some g =>
    let ok := (mask &&& slotBits g.slots (·.fault)) == 0
    let s1 := s.result th.id d 64 ((mask &&& slotBits g.slots (·.ready)).setWidth 128)
    let s2 := s1.modThread th.id fun x => (x.setPred (BitVec.ofNat 3 pd) ok).release
    if ok then s2.meetSlots th (mask &&& slotBits g.slots (·.ready)) else s2

/-- The condition that ends an SWAIT (11 R253). -/
def swaitDone (slots : List Slot) (mask : Dword) (all : Bool) : Bool :=
  let rdy := mask &&& slotBits slots (·.ready)
  (mask &&& slotBits slots (·.fault)) != 0 || (if all then rdy == mask else rdy != 0)

/-- Every SWAIT of the group whose condition is met is released (11 R245). -/
def State.releaseWaits (s : State) (gid : Nat) : State :=
  (s.live gid).foldl (fun s th =>
    match th.hold, s.group? gid with
    | .swait mask all pd d, some g => if swaitDone g.slots mask all then s.releaseSwait th mask pd d else s
    | _, _ => s) s

/-- The thread that has waited longest for slot n in SACQ (11 R245). -/
def State.firstSacq (s : State) (gid n : Nat) : Option (Thread × Nat) :=
  (s.live gid).foldl (fun best th =>
    match th.hold with
    | .sacq m pd =>
      if m != n then best
      else match best with
        | some (b, _) => if th.holdSeq < b.holdSeq then some (th, pd) else best
        | none => some (th, pd)
    | _ => best) none

/-- SETTLE of 11 R243 with R245 and R246; consuming by a waiting SACQ clears READY and settles again. -/
def State.settle (s : State) (gid n : Nat) : Nat → State
  | 0 => s
  | fuel + 1 =>
    match s.group? gid with
    | none => s
    | some g =>
      match g.slots[n]? with
      | none => s
      | some x =>
        if x.armed && !x.ready && !x.fault && x.remain == 0 && x.pending == 0 then
          let s1 := s.modSlot gid n fun x => { x with phase := !x.phase, ready := true, remain := x.target, cont := none }
          let s2 := s1.releaseWaits gid
          let s3 := match x.cont with
            | some c => s2.insertEvent g.launch { entry := c.entry, arg := c.arg, origin := .slot }
            | none => s2
          match s3.firstSacq gid n with
          | some (th, pd) =>
            let s4 := s3.modSlot gid n fun x => { x with ready := false }
            ((s4.modThread th.id fun y => (y.setPred (BitVec.ofNat 3 pd) true).release).meet th (256 + n)).settle gid n fuel
          | none => s3
        else s

/-- A slot enters the faulted state (11 R244); a further fault on a faulted slot writes a record of its own (log 59). -/
def State.faultSlot (s : State) (gid n : Nat) (f : Fail) (addr : Dword) (by_ : Option Issuer) : State :=
  match s.group? gid with
  | none => s
  | some g =>
    match g.slots[n]? with
    | none => s
    | some x =>
      let s1 := s.modSlot gid n fun x => { x with fault := true, cont := none }
      let s2 := s1.releaseWaits gid
      let s3 := (s2.live gid).foldl (fun s th =>
        match th.hold with
        | .sacq m pd => if m == n then s.modThread th.id fun y => (y.setPred (BitVec.ofNat 3 pd) false).release else s
        | _ => s) s2
      s3.faultRecord g.launch
        { source := 2, cause := f.cause.code, addr := addr, slot := some n, by_ := by_, cont := x.cont }

/-- An event (a, x, b) on a slot (11 R243). -/
def State.slotEvent (s : State) (gid n a x b : Nat) (by_ : Option Issuer) : State :=
  match s.group? gid with
  | none => s
  | some g =>
    match g.slots[n]? with
    | none => s
    | some sl =>
      let pend : Int := sl.pending.toInt + x - b
      let apply_ (y : Slot) : Slot :=
        { y with remain := y.remain - BitVec.ofNat 16 a, pending := BitVec.ofInt 28 pend }
      if sl.fault then s.modSlot gid n apply_
      else if (a == 1 && (!sl.armed || sl.remain == 0)) || pend < -(2 ^ 27) || 2 ^ 27 - 1 < pend then
        s.faultSlot gid n { cause := .slot } 0 by_
      else (s.modSlot gid n apply_).settle gid n 65

/-- The held event of a source that is next (11 R248). -/
def SlotSource.due (x : SlotSource) : Option HeldEvent := x.held.find? fun e => e.seq == x.next

/-- An event in its turn; one that breaks 20 R412 faults the slot. -/
def State.heldEvent (s : State) (gid n : Nat) (e : HeldEvent) (fault : Bool) : State :=
  if !e.bad then s.slotEvent gid n e.a e.x e.b none
  else if fault then s else s.faultSlot gid n { cause := .slot } 0 none

/-- Applies a source's held events while the next one is there. -/
def State.applyHeld (s : State) (gid n : Nat) (src : Word) : Nat → State
  | 0 => s
  | fuel + 1 =>
    match (s.group? gid).bind fun g => g.slots[n]? with
    | none => s
    | some sl =>
      match sl.sources.find? fun x => x.source == src with
      | none => s
      | some x =>
        match x.due with
        | none => s
        | some e =>
          let y := { x with next := x.next + 1, held := x.held.filter fun h => h.seq != x.next }
          let s1 := s.modSlot gid n fun sl => { sl with sources := sl.sources.map fun z => if z.source == src then y else z }
          (s1.heldEvent gid n e sl.fault).applyHeld gid n src fuel

/-- An external event with its sequence number (11 R248), applied or held until its turn; a number that is held already takes the
later event (log 60). -/
def State.externalEvent (s : State) (gid n : Nat) (src : Word) (seq : BitVec 16) (a x b : Nat) (bad : Bool) : State :=
  match (s.group? gid).bind fun g => g.slots[n]? with
  | none => s
  | some sl =>
    let y : SlotSource := (sl.sources.find? fun z => z.source == src).getD { source := src }
    let d := (seq - y.next).toNat
    let put (z : SlotSource) (s : State) : State := s.modSlot gid n fun sl =>
      { sl with sources := sl.sources.filter (fun w => w.source != src) ++ [z] }
    if d ≥ 32768 then s
    else if d ≥ 17 then (if sl.fault then s else s.faultSlot gid n { cause := .slot } 0 none)
    else (put { y with held := y.held.filter (fun h => h.seq != seq) ++ [{ seq := seq, a := a, x := x, b := b, bad := bad }] } s).applyHeld
      gid n src 18

/-- A registered continuation fires at the next completion, at once when READY is already 1 (11 R246). -/
def State.registerCont (s : State) (gid n : Nat) (c : Cont) : State :=
  match s.group? gid with
  | none => s
  | some g =>
    match g.slots[n]? with
    | some x =>
      if x.ready then s.insertEvent g.launch { entry := c.entry, arg := c.arg, origin := .slot }
      else s.modSlot gid n fun x => { x with cont := some c }
    | none => s

end Sys2Proof.Machine
end

