-- ==== Sys2Proof/Machine/Order.lean ====
section
/-! DEFINITION. Outstanding accesses: overlap and program order (01 R25), scopes and storage (08 R200 to R206), performing writes,
requests that leave for the fabric and PCIe ports (20 R414, R415), and commits of release buffers (17 R380). -/

namespace Sys2Proof.Machine

/-- The core of a thread's group. -/
def State.coreOf (s : State) (th : Thread) : Nat :=
  match s.group? th.group with
  | some g => g.core
  | none => 0

/-- The core whose caches a thread's accesses use; other units have none. -/
def State.cacheCore (s : State) (th : Thread) : Option Nat := if th.unit == .device then some (s.coreOf th) else none

/-! ### Bytes of an access -/

/-- A place as a class of storage, its owner and the first byte. -/
def placeKey : Place → Option (Nat × Nat × Nat)
  | .spad o => some (0, 0, o)
  | .stack o => some (1, 0, o)
  | .dram pa _ | .host _ pa _ | .table pa => some (2, 0, pa)
  | .window w => some (2, 0, 0xF800000000000 + 64 * w)
  | .pcie port pa => some (3, port, pa)
  | .remote dev pa _ => some (4, dev, pa)
  | .waiting _ | .failed .. | .nowhere => none

/-- A place that is known and did not fail. -/
def Place.known (p : Place) : Bool := (placeKey p).isSome

/-- Outside the device: remote for 08 R211. -/
def Place.outside : Place → Bool
  | .host .. | .pcie .. | .remote .. => true
  | _ => false

/-- A 16-byte remote access: two halves, each an access of its own for 08 R211, but for an event to a window, which is one write
(20 R412). -/
def Access.split (a : Access) : Bool := a.size == 16 && a.tail.isNone && a.place.outside && !a.place.farWindow

/-- The pieces of an access. -/
def Access.parts (a : Access) : List (Place × Nat) :=
  match a.tail with
  | some (n, p) => [(a.place, n), (p, a.size - n)]
  | none => [(a.place, a.size)]

/-- Reads or writes bytes of memory, a sample group's entry among them (15 R347). -/
def MemOp.touches : MemOp → Bool
  | .cwb _ | .cinval _ => false
  | _ => true

/-- What an access asks the outside for: places with the offset and length of their bytes in the access. A line operation asks for
nothing (09 R237). -/
def Access.pieces (a : Access) : List (Place × Nat × Nat) :=
  if !a.op.touches then []
  else if a.split then [(a.place, 0, 8), (a.place.plus 8, 8, 8)]
  else match a.tail with
    | some (n, p) => [(a.place, 0, n), (p, n, a.size - n)]
    | none => [(a.place, 0, a.size)]

/-- The pieces take effect one by one: two halves, or two pages of which one lies outside the module. -/
def Access.apart (a : Access) : Bool := a.split || (a.tail.isSome && a.pieces.any fun p => p.1.far)

def partsMeet (x y : Place × Nat) : Bool :=
  match placeKey x.1, placeKey y.1 with
  | some (c, u, a), some (d, v, b) => c == d && u == v && meets a x.2 b y.2
  | _, _ => false

/-- Two accesses name a common byte; by virtual address while a translation is missing. -/
def overlap (a b : Access) : Bool :=
  if a.place.known && b.place.known then a.parts.any fun x => b.parts.any fun y => partsMeet x y
  else meets a.va.toNat a.size b.va.toNat b.size

def MemOp.isSt : MemOp → Bool
  | .st _ => true
  | _ => false

/-- An event of a sample group, which acts at its home (15 R344). -/
def MemOp.isEvent : MemOp → Bool
  | .sg .. => true
  | _ => false

def MemOp.writes : MemOp → Bool
  | .st _ | .red .. | .atom .. => true
  | .sg kind .. => kind != 3
  | _ => false

/-- The bytes an access stores. -/
def Access.stored (a : Access) : List Byte :=
  match a.op with
  | .st d => d
  | _ => []

/-! ### Storage classes and releases (08 R203 to R205) -/

/-- The place's class is in the effective storage of an ordering operation. -/
def covers (o : Order) (p : Place) : Bool :=
  o.agent != 0 && (match p with
    | .spad _ => o.store == 0 || o.store == 1
    | .stack _ | .nowhere => false
    | .dram .. | .table _ | .window _ => o.store == 0 || o.store == 2
    | .remote .. => (o.store == 0 || o.store == 3) && o.agent ≥ 5
    | .host .. | .pcie .. => (o.store == 0 || o.store == 3) && o.agent ≥ 6
    | .waiting _ | .failed .. => o.store != 1)

/-- A store that threads of its core can read before it performs: local memory, early service allowed (18 R389). -/
def Access.sharable (a : Access) : Bool :=
  a.op.isSt && !a.buffered && (match a.place with
    | .dram _ cache => cache != 2
    | _ => false)

/-- An access has completed to an order's scope (08 R205): a local global write to group scope when its core reads it, a write of the
scratchpad when it has performed at its bank. -/
def completed (o : Order) (a : Access) : Bool :=
  !covers o a.place || a.buffered || a.fixed || (o.agent == 1 && a.vis && a.sharable)

/-- An access's identifier is no longer outstanding towards an order's scope. -/
def State.doneTo (s : State) (o : Order) (id : Nat) : Bool :=
  s.threads.all fun th => th.ops.all fun a => a.id != id || completed o a

/-- An access's identifier is outstanding nowhere: it has performed, read its value or been abandoned. -/
def State.ended (s : State) (id : Nat) : Bool := s.threads.all fun th => th.ops.all fun a => a.id != id || a.fixed

/-- A release fence holds a later write of its storage (09 R235). -/
def State.fenceBlock (s : State) (th : Thread) (a : Access) : Bool :=
  th.fences.any fun f => f.id < a.id && covers f.order a.place && !f.waits.all (s.doneTo f.order)

/-- Writes that must come first have done so: those that a release covers (08 R204), and for a window write every earlier write of
its thread (20 R412). -/
def State.waitsDone (s : State) (a : Access) : Bool := a.waits.all (s.doneTo a.order) && a.after.all s.ended

/-- An earlier access b of its own thread comes before a (01 R25). A load reads past a store, whose bytes it takes, unless the store
is on its way to another device; an event of a sample group does not. -/
def ownHolds (a b : Access) : Bool :=
  b.id < a.id && !b.fixed && b.op.touches && overlap a b
    && !(!a.op.writes && !a.op.isEvent && b.op.isSt && (b.buffered || (b.place.known && !b.place.far)))

/-- An access b of a lower lane of the same issue comes before a: a write to the same bytes, or an event of the same sample group
(07 R193, 09 R219, 15 R353). -/
def issueHolds (a b : Access) : Bool :=
  b.issue == a.issue && b.id < a.id && (b.op.writes || b.op.isEvent) && !b.fixed && overlap a b

/-- A write that its core already reads keeps its place in coherence order: b comes before a. A write that waits for its place, or is
held before its bank, has no place in that order yet. -/
def visHolds (a b : Access) : Bool :=
  b.id < a.id && b.op.isSt && !b.fixed && !b.buffered && b.place.known && (a.vis || b.vis) && overlap a b
    && (match b.place with
      | .spad _ => b.queued != 0
      | _ => true)

/-- Access b of thread x takes effect before access a of thread th: it holds it, or a release or a window write waits for it. -/
def State.precedes (s : State) (th : Thread) (a : Access) (x : Thread) (b : Access) : Bool :=
  b.id != a.id && !b.fixed
    && ((x.id == th.id && ownHolds a b) || issueHolds a b
      || (th.unit == .device && x.unit == .device && s.coreOf x == s.coreOf th && visHolds a b)
      || a.after.contains b.id || (a.waits.contains b.id && !completed a.order b)
      || th.fences.any fun f => f.id < a.id && covers f.order a.place && f.waits.contains b.id && !completed f.order b)

/-- Accesses found so far, with those that precede one of them, and so on. -/
def State.behind (s : State) : Nat → List (Thread × Access) → List (Thread × Access)
  | 0, found => found
  | fuel + 1, found =>
    match s.threads.flatMap fun x => (x.ops.filter fun b =>
        !(found.any fun y => y.2.id == b.id) && found.any fun y => s.precedes y.1 y.2 x b).map fun b => (x, b) with
    | [] => found
    | new => s.behind fuel (found ++ new)

/-- How many accesses are outstanding. -/
def State.opCount (s : State) : Nat := (s.threads.map fun x => x.ops.length).foldl (· + ·) 0

/-- Every access that precedes a store in turn has its place: none may come to wait for a page before it (18 R395). -/
def State.placedBefore (s : State) (th : Thread) (a : Access) : Bool :=
  (s.behind s.opCount [(th, { a with vis := true })]).all fun y => y.2.place.known

/-- Threads of the core may read a store before it performs: no release holds it (08 R206, R207), nor an access that may come to wait
for a page. -/
def State.canSee (s : State) (th : Thread) (a : Access) : Bool :=
  a.sharable && (a.vis || (s.waitsDone a && !s.fenceBlock th a && s.placedBefore th a))

/-- An access waits for a page request, or one that precedes it does: it makes no progress before the reply (18 R391). -/
def State.stuck (s : State) (th : Thread) (a : Access) : Bool :=
  (s.behind s.opCount [(th, a)]).any fun y => match y.2.place with
    | .waiting _ => true
    | _ => false

/-- The accesses that are stuck. -/
def State.stuckIds (s : State) : List Nat :=
  if s.threads.any fun x => x.ops.any fun a => match a.place with
    | .waiting _ => true
    | _ => false
  then s.threads.flatMap fun x => (x.ops.filter fun a => !a.fixed && s.stuck x a).map (·.id) else []

/-- Accesses a release of the thread must wait for; a release at group scope makes stores visible to the core. -/
def State.relWaits (s : State) (th : Thread) (o : Order) : List Nat :=
  ((th.ops.filter fun a => !completed o a && !(o.agent == 1 && s.canSee th a)).map (·.id)) ++ th.saw.filter fun i => !s.doneTo o i

/-- Every earlier access is complete to an order's scope: an instruction that is a release side may take effect. -/
def State.released (s : State) (th : Thread) (agent store : Nat) : Bool :=
  (s.relWaits th { rel := true, agent := agent, store := store }).isEmpty

/-- Writes that a release of the thread at an order's scope puts before what an acquirer does next, and that have not performed:
its own, and those that it has seen (08 R207, R208). -/
def State.deps (s : State) (th : Thread) (o : Order) : List Nat :=
  ((th.ops.filter fun a => a.op.writes && !a.fixed && !a.buffered && covers o a.place).map (·.id)) ++ th.saw.filter fun i => !s.ended i

/-- A release at group scope through something of the group: a k register, a slot (256 + number) or a tile queue (320 + number).
What it puts before an acquire of that is kept beside it (08 R213, R214). -/
def State.leave (s : State) (th : Thread) (key : Nat) : State :=
  match s.deps th { rel := true, agent := 1 } with
  | [] => s
  | ds => s.modGroup th.group fun g => { g with kdeps := (key, ds) :: g.kdeps }

/-- A release at group scope: from here on the thread's stores are visible to its core (08 R205). -/
def State.markVis (s : State) (t agent : Nat) : State :=
  if agent == 1 then
    s.modThread t fun x => { x with ops := x.ops.map fun a => if s.canSee x a then { a with vis := true } else a }
  else s

/-- An earlier covered access waits for a page or has failed: the thread parks before its release (17 R359, 18 R391). -/
def parkedBy (th : Thread) (o : Order) : Bool :=
  th.ops.any fun a => match a.place with
    | .waiting _ | .failed .. => covers o a.place
    | _ => false

/-! ### When an access may take effect -/

/-- Accesses of threads on a core, with their threads. -/
def State.coreOps (s : State) (core : Nat) : List Access :=
  (s.threads.filter fun x => x.unit == .device && s.coreOf x == core).flatMap (·.ops)

/-- Accesses on a thread's core that can name bytes of its own: a scratchpad allocation belongs to one group and a stack to one
thread (07 R186, R187). -/
def State.coreSeen (s : State) (th : Thread) : List Access :=
  (s.threads.filter fun x => x.unit == .device && s.coreOf x == s.coreOf th).flatMap fun x => x.ops.filter fun a =>
    match a.place with
    | .spad _ => x.group == th.group
    | .stack _ => x.id == th.id
    | _ => true

/-- An earlier access of its own thread to the same bytes has not taken effect (01 R25). -/
def ownBlock (th : Thread) (a : Access) : Bool := th.ops.any (ownHolds a)

/-- An access of a lower lane of the same issue comes first. -/
def State.issueBlock (s : State) (a : Access) : Bool := s.threads.any fun x => x.ops.any (issueHolds a)

/-- A write that its core already reads, or reads after another one, waits for its turn in coherence order. -/
def State.visBlock (s : State) (th : Thread) (a : Access) : Bool := th.unit == .device && (s.coreSeen th).any (visHolds a)

/-- The banks of a scratchpad access: one for each 8-byte word (07 R191). -/
def banksOf (o n : Nat) : List Nat := (List.range ((o + n - 1) / 8 + 1 - o / 8)).map fun i => (o / 8 + i) % 32

/-- Two scratchpad accesses name a common bank. -/
def sameBank (a b : Access) : Bool :=
  match a.place, b.place with
  | .spad x, .spad y => (banksOf x a.size).any (banksOf y b.size).contains
  | _, _ => false

/-- A scratchpad access may enter the queues of its banks: no release holds it, and no access that it follows is held before them
(07 R192, 01 R25). -/
def State.entersQueue (s : State) (th : Thread) (a : Access) : Bool :=
  !a.buffered && s.waitsDone a && !(a.op.writes && s.fenceBlock th a)
    && !(th.ops.any fun b => b.queued == 0 && ownHolds a b) && !(s.threads.any fun x => x.ops.any fun b => b.queued == 0 && issueHolds a b)

/-- b is before a in the queue of a bank (07 R192). -/
def queuedBefore (a b : Access) : Bool :=
  b.queued != 0 && !b.fixed && !b.buffered && (b.queued < a.queued || (b.queued == a.queued && b.issue < a.issue)) && sameBank a b

/-- A scratchpad access has not entered the queues of its banks, or an earlier request of its quadrant is before it in one
(07 R192). -/
def State.bankBlock (s : State) (th : Thread) (a : Access) : Bool :=
  match a.place with
  | .spad _ => a.queued == 0 || s.threads.any fun x =>
      x.unit == .device && s.coreOf x == s.coreOf th && x.lane / 32 == th.lane / 32 && x.ops.any (queuedBefore a)
  | _ => false

/-- An access of a lower lane, of its own thread or of its bank comes before a write. -/
def State.inTurn (s : State) (th : Thread) (a : Access) : Bool :=
  a.place.known && !a.fixed && !ownBlock th a && !s.issueBlock a && !s.visBlock th a && !s.bankBlock th a

/-- A write may perform. -/
def State.mayWrite (s : State) (th : Thread) (a : Access) : Bool :=
  s.inTurn th a && !s.fenceBlock th a && s.waitsDone a && a.uncovered.isNone

/-- A read may take its value. -/
def State.mayRead (s : State) (th : Thread) (a : Access) : Bool := !ownBlock th a && !s.bankBlock th a

/-! ### Requests that leave the module -/

/-- What an access counts in the windows of its destinations, piece by piece (20 R415). -/
def Access.counts (a : Access) : List (Nat × Nat × Nat) :=
  a.pieces.filterMap fun p => (remoteDev p.1).map fun dev => (dev, a.id, p.2.2)

/-- An access begins to count in its destinations' windows. -/
def State.countOut (s : State) (a : Access) : State :=
  if s.unacked.any fun u => u.2.1 == a.id then s else { s with unacked := s.unacked ++ a.counts }

/-- The request for n bytes from offset o of an access, at pa. -/
def Access.request (a : Access) (pa o n : Nat) : Request :=
  match a.op with
  | .st d => .write pa ((d.drop o).take n) false
  | .red ty op b _ => .atomic pa ty (BitVec.ofNat 5 op) b 0 false
  | .atom ty op b c => .atomic pa ty (BitVec.ofNat 5 op) b c true
  | _ => .read pa n

/-- The accesses touch a common 128-byte line of one destination. -/
def sameLine (a b : Access) : Bool :=
  a.parts.any fun p => b.parts.any fun q => destOf p.1 == destOf q.1 && p.1.far && q.1.far
    && (linesOf (farPa p.1) p.2).any (linesOf (farPa q.1) q.2).contains

/-- The send windows of an access's destinations have room for it, or count it already (20 R415). -/
def State.hasRoom (s : State) (a : Access) : Bool :=
  s.unacked.any (fun u => u.2.1 == a.id) || a.counts.all fun u =>
    s.outTo u.1 + ((a.counts.filter fun v => v.1 == u.1).map fun v => v.2.2).foldl (· + ·) 0 ≤ s.sendLimit u.1

/-- A far access may leave: no unacknowledged write, atomic or reduction of its thread to the line (20 R414), and a write
only when it may perform. -/
def State.maySend (s : State) (th : Thread) (a : Access) : Bool :=
  (a.pieces.any fun p => p.1.far) && !a.sent && !a.buffered
    && !(th.ops.any fun b => b.id < a.id && b.op.writes && !b.fixed && !b.buffered && sameLine a b)
    && (if a.op.writes then s.mayWrite th a else !ownBlock th a) && s.hasRoom a

/-- The bytes that a thread's release buffer gives a far read (17 R380). -/
def bufferedFor (th : Thread) (a : Access) : List (Nat × List Byte) :=
  if a.op.writes then []
  else (th.ops.filter fun b => b.buffered && b.id < a.id && overlap a b).map fun b => (farPa b.place, b.stored)

/-- The requests of an access leave. -/
def State.sendAccess (s : State) (th : Thread) (a : Access) : State :=
  let s1 := s.countOut a
  { s1 with
    replies := s1.replies ++ (a.pieces.filter fun p => p.1.far).map fun (p, o, n) => .request (destOf p) (farPa p) (a.request (farPa p) o n)
    threads := s1.threads.map fun y => if y.id == th.id then
        { y with ops := y.ops.map fun b => if b.id == a.id then { b with sent := true, bufs := bufferedFor th a } else b } else y }

/-- Requests of far accesses that may leave now are sent, in program order; then those of other agents. -/
def State.pump (s : State) : State :=
  State.pumpFar (s.threads.foldl (fun s x => x.ops.foldl (fun s a0 =>
    match (s.thread? x.id).bind fun th => (th.ops.find? fun a => a.id == a0.id).map fun a => (th, a) with
    | none => s
    | some (th, a) => if s.maySend th a then s.sendAccess th a else s) s) s)

/-! ### Performing -/

/-- Bytes that the writes so far released at group scope: a write of n bytes by a thread replaces them, unless it is the write of
an atomic, which continues their release sequence (08 R207). -/
def State.tagBytes (s : State) (th : Thread) (p : Place) (n : Nat) (rmw : Bool) (deps : List Nat) : State :=
  let here (t : RelTag) : Bool := partsMeet (t.place, 1) (p, n) && (match p with
    | .spad _ => t.group == th.group
    | _ => true)
  let kept := if rmw then s.rels else s.rels.filter fun t => !here t
  let deps := deps.filter fun i => !s.ended i
  { s with rels := if deps.isEmpty then kept
      else (List.range n).map (fun i => { place := p.plus i, group := th.group, deps := deps }) ++ kept }

/-- Bytes of a thread's stack are written; its lines are cached as others are (07 R187, R195). -/
def State.writeStack (s : State) (th : Thread) (o : Nat) (bs : List Byte) : State :=
  (s.touchLines (s.cacheCore th) false (stackPa th.id o) bs.length).modThread th.id fun x => { x with stk := stackStore x.stk o bs }

/-- n bytes of a thread's stack; data that cannot be corrected fails (17 R384). -/
def State.readStack (s : State) (th : Thread) (o n : Nat) (hint : Nat := 0) : State × Except Fail (List Byte) :=
  if s.stackBad th.id o n then (s, .error { cause := .machine })
  else
    let s1 := match s.cacheCore th with
      | some core => s.cacheRead core (stackPa th.id o) n 0 hint
      | none => s
    (s1, .ok (stackLoad th.id th.stk o n))

/-- The write of an access takes effect at its place (08 R206). -/
def State.writeAt (s : State) (th : Thread) (p : Place) (bs : List Byte) : State :=
  match p with
  | .spad off => s.modGroup th.group fun g => { g with spad := g.spad.store off bs }
  | .stack off => s.writeStack th off bs
  | .dram pa cache | .host _ pa cache => s.writePhys (s.cacheCore th) pa bs (cache == 2)
  | .table pa => s.writePhys (s.cacheCore th) pa bs
  | .window w =>
    let src := BitVec.ofNat 32 (3 * 2 ^ 28 + s.img.devId)
    match s.bindings.find? fun b => b.window == w with
    | none => s.logEntry (.denied src)
    | some b =>
      let x := field bs 8 4
      let d := field bs 12 4
      let bad := !zeros bs 3 5 || field bs 2 1 > 1 || x ≥ 2 ^ 27 || d ≥ 2 ^ 27
      s.externalEvent b.group b.slot src (BitVec.ofNat 16 (field bs 0 2)) (field bs 2 1) x d bad
  | _ => s

/-- The lines of a store with `.ef` become the first candidates for replacement of the caches that hold them (09 R221). -/
def State.efLines (s : State) (th : Thread) (p : Place) (n hint : Nat) : State :=
  match s.cacheCore th, p, hint with
  | some core, .dram pa _, 1 | some core, .host _ pa _, 1 => s.firstOut core (linesOf pa n)
  | some core, .stack o, 1 => s.firstOut core (linesOf (stackPa th.id o) n)
  | _, _, _ => s

/-- n bytes of a write take effect, with what a release at group scope put before them. -/
def State.performAt (s : State) (th : Thread) (p : Place) (bs : List Byte) (rmw : Bool := false) (deps : List Nat := [])
    (hint : Nat := 0) : State :=
  let s1 := (s.writeAt th p bs).efLines th p bs.length hint
  match p with
  | .spad _ | .dram .. => if s1.rels.isEmpty && deps.isEmpty then s1 else s1.tagBytes th p bs.length rmw deps
  | _ => s1

/-- Changes an access of a thread. -/
def State.modAccess (s : State) (t id : Nat) (f : Access → Access) : State :=
  s.modThread t fun x => { x with ops := x.ops.map fun a => if a.id == id then f a else a }

def State.dropAccess (s : State) (t id : Nat) : State :=
  s.modThread t fun x => { x with ops := x.ops.filter fun a => a.id != id }

/-- A host refuses the write, does not answer it, or is lost (20 R406, R417), or the slice of its home is out of order (23 R433);
the outside says so with the step. -/
def State.writeFail (s : State) (p : Place) (n : Nat) : Option Fail :=
  match p with
  | .host site _ _ => (s.linkFail p n).or (s.outsideFail 1 site)
  | .dram .. => s.linkFail p n
  | _ => none

/-- One buffered store of a commit: it performs, or waits as an ordinary store that has completed for its thread; one whose home is
out of order fails (23 R433). -/
def State.commitOne (s : State) (t : Nat) (a : Access) : State :=
  let b := { a with buffered := false, queued := s.nextId }
  match s.thread? t with
  | none => s
  | some th =>
    let stack := match a.place with
      | .stack _ => true
      | _ => false
    let dead := match a.place with
      | .stack o => s.stackDead t o a.size
      | _ => false
    if dead then s.modAccess t a.id fun _ => { b with place := .failed { cause := .machine } a.va }
    else if stack || (!a.place.far && s.mayWrite th b && (s.writeFail a.place a.size).isNone) then
      (s.performAt th a.place a.stored false a.deps a.hint).dropAccess t a.id
    else s.modAccess t a.id fun _ => b

/-- A commit performs the thread's buffered stores in program order and frees their entries (17 R380). -/
def State.commit (s : State) (t : Nat) : State :=
  match s.thread? t with
  | none => s
  | some th => ((th.ops.filter (·.buffered)).foldl (fun s a => s.commitOne t a) s).pump

end Sys2Proof.Machine
end

