-- ==== Sys2Proof/Machine/Ops.lean ====
section
/-! DEFINITION. The shared operations of the instruction meanings: memory effects of one thread's accesses (01 R25, 08 R204 to
R206), regions (17 R379, R380), taking a trap and escalation (17 R363, R369, R370), returning from one (R366), and the issue
of one instruction by a team (01 R27, 02 R59). -/

namespace Sys2Proof.Machine

/-! ### Counters and trap registers -/

/-- SX.PENDING (01 R31). -/
def Counters.word (c : Counters) : Word :=
  BitVec.ofNat 32 (c.tiles * 2 ^ 24 + c.copies * 2 ^ 16 + c.stores * 2 ^ 8 + c.loads)

/-- SX.TFRAME (17 R361). -/
def State.tframe (s : State) (th : Thread) : Dword :=
  match th.unit with
  | .service => th.tframe
  | _ => match s.launchOf th with
    | some l => if l.lr.stack == 0 then 0 else s.img.stkBase + BitVec.ofNat 64 (l.lr.stack - 128)
    | none => 0

/-- SX.TVEC (17 R361). -/
def State.tvec (s : State) (th : Thread) : Dword :=
  match th.unit with
  | .service => th.tvec
  | _ => match s.group? th.group with
    | some g => g.tvec
    | none => 0

/-! ### Regions (17 R379) -/

/-- Commits an OPEN region; its state becomes COMMITTED (17 R379). -/
def State.closeRegion (s : State) (t : Nat) : State :=
  match (s.thread? t).map Thread.region with
  | some (.opened ..) => (s.commit t).modThread t fun x => { x with region := .committed }
  | _ => s

/-! ### Held sets (05 R148, 06 R165) -/

/-- Threads of a set named by a thread of the group, exited ones included. -/
def State.setMembers (s : State) (th : Thread) (set : JoinSet) : List Thread :=
  let all := s.threads.filter fun x => x.unit == .device && x.group == th.group
  match set with
  | .group => all
  | .stage => all.filter fun x => x.stage == th.stage
  | .mask m => all.filter fun x => x.stage == th.stage && x.lane / 32 == th.lane / 32 && m.getLsbD (x.lane % 32)

/-- x has arrived at the instance at which th is held. -/
def arrived (th x : Thread) : Bool :=
  x.exited || (match th.hold, x.hold with
    | .join a, .join b => a == b && x.pc == th.pc && (a == .group || x.stage == th.stage)
        && (match a with | .mask _ => x.lane / 32 == th.lane / 32 | _ => true)
    | .bar n grp _, .bar m grp' _ => n == m && grp == grp' && (grp || x.stage == th.stage)
    | _, _ => false)

/-- The set of the instance at which a thread is held. -/
def holdSet (th : Thread) : Option JoinSet :=
  match th.hold with
  | .join set => some set
  | .bar _ grp _ => some (if grp then .group else .stage)
  | _ => none

/-! ### Escalation (17 R369, R370) -/

/-- JSET of a held thread's instance, and what breaks ties after its PC. -/
def instKey (th : Thread) : Nat × Nat :=
  match th.hold with
  | .join .stage => (1, 0)
  | .join .group => (2, 0)
  | .join (.mask m) => (3, m.toNat)
  | .bar n _ _ => (4, n)
  | _ => (0, 0)

/-- PC of the instance at which a thread is held: the lowest among the BARs of a BAR instance. -/
def State.instPc (s : State) (th : Thread) : Dword :=
  match th.hold with
  | .bar _ _ _ =>
    (s.live th.group).foldl (fun pc x => if arrived th x && x.pc.toNat < pc.toNat then x.pc else pc) th.pc
  | _ => th.pc

/-- The held instance that a halted thread's record describes. -/
def State.joinInfo (s : State) (halted : Thread) : JoinInfo :=
  let key (x : Thread) : Nat × Nat × Nat := ((s.instPc x).toNat, instKey x)
  let lt (a b : Nat × Nat × Nat) : Bool :=
    decide (a.1 < b.1) || (a.1 == b.1 && (decide (a.2.1 < b.2.1) || (a.2.1 == b.2.1 && decide (a.2.2 < b.2.2))))
  let held := (s.live halted.group).filter fun x =>
    match holdSet x with
    | some set => (s.setMembers x set).any fun y => y.id == halted.id
    | none => false
  match held.foldl (fun best x => match best with
      | none => some x
      | some b => if lt (key x) (key b) then some x else best) none with
  | none => {}
  | some x =>
    match holdSet x with
    | none => {}
    | some set =>
      let ms := s.setMembers x set
      let q := halted.lane / 32
      { set := (instKey x).1, members := ms.length, arrived := (ms.filter (arrived x)).length, pc := s.instPc x
        mask := BitVec.ofNat 32 (pack 1 ((List.range 32).map fun i =>
          if ms.all fun y => y.lane != 32 * q + i || arrived x y then 1 else 0)) }

/-- Writes the record of a halted thread, once (17 R370, R372). -/
def State.haltRecord (s : State) (th : Thread) (settled : Bool) : State :=
  match th.halted, s.group? th.group with
  | some tr, some g =>
    if th.recorded then s
    else
      let flags := (if settled then 1 else 0) + (if tr.defer then 2 else 0) + (if th.nested then 4 else 0)
      let s1 := s.modThread th.id fun x => { x with recorded := true }
      s1.faultRecord g.launch
        { source := 1, cause := tr.cause.code, flags := flags, addr := tr.addr
          by_ := some { thread := th.id, pc := tr.pc, words := tr.words }, join := s.joinInfo th }
  | _, _ => s

/-- Every live thread is halted, or held at a JOIN or BAR whose set includes a halted member; one is halted. -/
def State.settled (s : State) (gid : Nat) : Bool :=
  let ts := s.live gid
  ts.any (·.halted.isSome) && ts.all fun x => x.halted.isSome || (match holdSet x with
    | some set => (s.setMembers x set).any fun y => y.halted.isSome
    | none => false)

/-- Threads of a gang's groups that wait at HITCH or for an MMA's other members issue again when a group of the gang ends; the
instruction then raises HARNESS (12 R284, 13 R302). -/
def State.gangEnded (s : State) (gid : Nat) : State :=
  match s.group? gid with
  | none => s
  | some g =>
    s.mapThreads fun x =>
      if s.groups.any fun h => h.gang == g.gang && h.id == x.group && x.unit == .device then
        match x.hold with
        | .hitch .. | .mma .. => { x with hold := .none }
        | _ => x
      else x

/-- Ends a group: its threads are discarded (17 R370). Its commands retire, then it is freed (05 R138). A saved group with commands is
still to be placed, for those to retire; any other leaves its gang's entry with the dispatcher. -/
def State.endGroup (s : State) (gid : Nat) : State :=
  let s1 := s.mapThreads fun x =>
    if x.unit == .device && x.group == gid then { x with exited := true, hold := .none, pend := [] } else x
  let away (g : Group) : Bool := g.res == .saved || g.res == .evicted || g.res == .restoring
  if s.groups.any fun g => g.id == gid && away g && !g.cmds.isEmpty then s1.gangEnded gid
  else
    let s2 := s1.modGroup gid fun g => { g with res := .ended }
    State.gangEnded { s2 with gangs := (s2.gangs.filter fun x => x.saved != [gid]).map fun x =>
      { x with saved := x.saved.filter fun i => i != gid } } gid

/-- A group that settles with a halted member is recorded and ended (17 R370). The records come in the order of the group's threads, of
the orders that 19 R400 leaves to the device (DESIGN CHOICE, log 79). -/
def State.settleGroup (s : State) (gid : Nat) : State :=
  if s.settled gid then
    ((s.live gid).foldl (fun s th => if th.halted.isSome then s.haltRecord th true else s) s).endGroup gid
  else s

/-- ESCALATE (17 R369): the thread halts. A service-processor thread's halt is logged (23 R434). -/
def State.escalate (s : State) (t : Nat) (tr : Trap) (nested : Bool) : State :=
  match s.thread? t with
  | none => s
  | some th =>
    let s1 := s.modThread t fun x => { x with halted := some tr, nested := nested, haltAt := s.cycle, pend := [] }
    match th.unit with
    | .service => s1.logEntry (.firmwareHalt th.tid)
    | .intersection => s1
    | .device => s1.settleGroup th.group

/-! ### Taking a trap (17 R362, R363) -/

/-- The trap frame's 128 bytes. -/
def Thread.frame (th : Thread) (tr : Trap) : List Byte :=
  let v (i : Nat) : List Byte := toBytes 4 (if i < th.alloc then (th.getV (BitVec.ofNat 8 i)).toNat else 0)
  toBytes 1 tr.cause.code ++ toBytes 1 ((if tr.defer then 1 else 0) + (if th.sup then 2 else 0)) ++ toBytes 2 0
    ++ toBytes 4 th.cnt.word.toNat ++ toBytes 2 th.p.toNat ++ toBytes 2 0 ++ toBytes 4 th.status.toNat
    ++ toBytes 8 tr.pc.toNat ++ toBytes 8 th.pc.toNat ++ toBytes 8 tr.addr.toNat ++ iwords tr.words
    ++ toBytes 4 tr.detail.toNat ++ toBytes 16 0 ++ (List.range 8).flatMap v
    ++ toBytes 8 th.y0.toNat ++ toBytes 8 th.y1.toNat

/-- Reads n bytes of a device thread's trap frame from offset o, in its stack. -/
def State.frameRead (s : State) (th : Thread) (o n : Nat) : State × Except Fail (List Byte) :=
  s.readStack th ((s.tframe th - s.img.stkBase).toNat + o) n

/-- Writes the trap frame: a device thread's stack, or memory for a service-processor thread, which may wait for a page (18 R391) or
for an answer from outside. A frame that meets uncorrectable data is not written (17 R363; log 62). -/
def State.frameWrite (s : State) (th : Thread) (bs : List Byte) : State × Got Unit :=
  match th.unit with
  | .service => s.agentWrite (.thread th.id) s.img.fwSpace true 0 true 3 th.tframe bs
  | _ =>
    let base := (s.tframe th - s.img.stkBase).toNat
    if s.stackBad th.id base bs.length then (s, .fail { cause := .machine } (s.tframe th))
    else (s.writeStack th base bs, .ok ())

/-- Accesses that raise flags when they complete (09 R225, R229). -/
def MemOp.raises : MemOp → Bool
  | .ldmx .. => true
  | .atom ty .. => ty == .f16 || ty == .bf16 || ty == .f32 || ty == .f64
  | _ => false

/-- Flags of an outstanding access are still to come. -/
def Thread.flagsDue (th : Thread) : Bool := th.ops.any fun a => a.op.raises

/-- The frame of an entry reads v0 to v7 and the status word: the destinations and the flags of outstanding loads come first
(01 R29, 04 R132). -/
def Thread.frameWaits (th : Thread) : Bool := th.unit != .intersection && (th.busy (List.range 8) || th.flagsDue)

/-- Entry to the handler: the frame is written, TSTATE, mode and PC change (17 R363). The thread stays at its boundary until the
frame can be written. -/
def State.enter (s : State) (th : Thread) (tr : Trap) (vec : Dword) : State :=
  match s.frameWrite th (th.frame tr) with
  | (s1, .fail ..) => (s1.farDrop (.thread th.id)).escalate th.id tr false
  | (s1, .wait tag _) => s1.modThread th.id fun x =>
    { x with hold := .trap tr, fetchTag := if tag == 0 then none else some tag, holdAt := s.cycle }
  | (s1, .ok _) => (s1.farDrop (.thread th.id)).modThread th.id fun x =>
    { x with
      pend := x.pend.filter fun y => y.order != tr.order
      relAt := none
      ready := none
      tstate := BitVec.ofNat 32 (tr.cause.code * 256 + (if x.sup then 2 else 0) + 1)
      sup := x.sup || tr.cause == .svc
      pc := vec
      hold := .none }

/-- A thread takes a trap (17 R363); entry commits an OPEN region (R379), and so does an
escalation without an entry (DESIGN CHOICE, log 21). On an intersection core the trap ends the walk
(R364): the core stops and its walk finds why. -/
def State.trap (s : State) (t : Nat) (tr : Trap) : State :=
  let s1 := s.closeRegion t
  match s1.thread? t with
  | none => s1
  | some th =>
    match th.unit with
    | .intersection => s1.escalate t tr false
    | _ =>
      if th.tstate.getLsbD 0 then s1.escalate t tr true
      else
        let vec := if tr.cause == .svc then s1.img.kvec else s1.tvec th
        if vec == 0 || s1.tframe th == 0 then s1.escalate t tr false
        else s1.enter th tr vec

/-- The earliest pending deferred trap in program order (17 R359). -/
def firstPending (ts : List Trap) : Option Trap :=
  ts.foldl (fun best x => match best with
    | none => some x
    | some b => if x.order < b.order then some x else best) none

/-- An access that failed: its deferred trap is due (17 R359). -/
def Access.isFailed (a : Access) : Bool :=
  match a.place with
  | .failed .. => true
  | _ => false

/-- A pending trap waits for the registers of its frame, and for the trap of an earlier access that has failed too (17 R359). -/
def Thread.trapWaits (th : Thread) (tr : Trap) : Bool := th.frameWaits || th.ops.any fun a => a.id < tr.order && a.isFailed

/-- A thread takes its earliest pending trap at this boundary. -/
def State.takePending (s : State) (t : Nat) : State :=
  match s.thread? t with
  | none => s
  | some th =>
    match firstPending th.pend with
    | none => s
    | some tr =>
      if th.trapWaits tr then s
      else
        let rest := th.pend.filter fun y => y.order != tr.order
        (s.trap t tr).modThread t fun x => { x with must := !rest.isEmpty }

/-! ### Returning from a trap (17 R366) -/

/-- Whether a target may be fetched from (04 R122, 07 R188): the trap it raises otherwise. -/
def State.targetTrap (s : State) (th : Thread) (a : Dword) : Option Cause :=
  if a.extractLsb' 0 2 != 0#2 then some .misalign
  else if !canonical (s.spaceOf th) a then some .range
  else if th.unit == .device && s.windowed a then some .prot
  else none

/-- The restored state: registers, predicates, status and mode from the frame, TSTATE cleared, PC at the target. -/
def Thread.restore (th : Thread) (fr : List Byte) (target : Dword) : Thread :=
  let regs := (List.range 8).foldl (fun (x : Thread) i =>
    if i < th.alloc then x.setV (BitVec.ofNat 8 i) (word fr (0x50 + 4 * i)) else x) th
  { regs with
    y0 := dword fr 0x70
    y1 := dword fr 0x78
    p := BitVec.ofNat 7 (field fr 8 2)
    status := word fr 0xC &&& 0x31F#32
    sup := th.sup && (field fr 1 1).testBit 1
    tstate := 0
    pc := target }

/-! ### One instruction of a team (01 R27, 02 R59) -/

/-- What a meaning does for one member. -/
inductive Res where
  | done (s : State)                                     -- the effect; PC advances by the instruction's length
  | jump (s : State)                                     -- the effect, PC included
  | trap (s : State) (c : Cause) (addr : Dword) (detail : Word)
  | stall (s : State)                                    -- not ready: the thread stays at the instruction
  deriving DecidableEq, Repr

/-- The major opcode; 0 for a step. -/
def instrOp (i : Instr) : Nat :=
  match i.fields with
  | some (op, _) => op
  | none => 0

/-- Opcodes that a kind of thread does not execute: ILLEGAL (06 R161, 11 R250, 12 R283, 13 R308, 14 R315, R334, 15, 17 R365,
21 R422, 04 R125). -/
def unitIllegal (u : UnitKind) (op : Nat) (ordered : Bool) : Bool :=
  let team := (0x70 ≤ op && op ≤ 0x79) || op == 0x8E
  let engine := (0xB0 ≤ op && op ≤ 0xBE) || (0xC0 ≤ op && op ≤ 0xC7) || (0xD8 ≤ op && op ≤ 0xDB)
  let isect := 0xD3 ≤ op && op ≤ 0xD7
  match u with
  | .device => isect || op == 0xE7 || op == 0xE8
  | .intersection =>
    team || engine || (0xD0 ≤ op && op ≤ 0xD2) || [0x65, 0x67, 0x91, 0x93, 0x94, 0x95, 0x96, 0x97, 0x98].contains op
      || (0xE2 ≤ op && op ≤ 0xE8) || (ordered && (op == 0x90 || op == 0x92))
  | .service => team || engine || isect || op == 0xD0 || op == 0xD1 || op == 0x67 || op == 0xE5

/-- An instruction with a non-zero ORD field. -/
def isOrdered (i : Instr) : Bool :=
  match i.view with
  | some (.mem _ x) => x.ord != 0#2
  | _ => false

/-- The system register that MOVS or SETS names. -/
def sysReg (i : Instr) : Option Nat :=
  match i.view with
  | some (.desc op x) => if op == 0xE0 || op == 0xE1 then some (x.w2.extractLsb' 0 12).toNat else none
  | _ => none

/-- Privileged instructions in user mode, and registers a thread may not access (01 R30, R31, 14 R335, 21 R419, R422). -/
def privTrap (th : Thread) (i : Instr) : Bool :=
  let op := instrOp i
  match sysReg i with
  | some r => (r == 0x090 || r == 0x091) && (th.unit != .service || !th.sup)
  | none => !th.sup && (op == 0xD2 || op == 0xE7 || op == 0xE8)

/-- The decode traps of 02 R59, raised whatever the guard. -/
def State.decodeTrap (s : State) (th : Thread) (i : Instr) : Option Cause :=
  let fate := usesFate i.uses th.alloc (s.uniforms th)
  if unitIllegal th.unit (instrOp i) (isOrdered i) || fate == some .illegal then some .illegal
  else if privTrap th i then some .priv
  else fate

/-- The operands of a use that are uniform registers. -/
def isK (o : Opnd) : Bool :=
  match o with
  | .k _ => true
  | _ => false

/-- Uses that write their register. -/
def useWrites : Use → Bool
  | .dst .. | .ldst .. => true
  | .span _ _ _ out => out
  | _ => false

/-- The stall of 01 R29, and that of uniform registers behind an acquire or a release fence (08 R204, R214). -/
def Thread.stalled (th : Thread) (us : List Use) : Bool :=
  (us.any fun u => th.busy (useRegs u))
    || ((th.acqs.any fun q => q.order.agent != 0) && us.any fun u => isK u.opnd)
    || ((th.fences.any fun f => f.order.agent != 0) && us.any fun u => isK u.opnd && useWrites u)

/-- Instructions that do not commit an OPEN region (17 R379). -/
def keepsRegion (i : Instr) : Bool :=
  let op := instrOp i
  (0x01 ≤ op && op ≤ 0x69 && op != 0x65 && op != 0x66 && op != 0x67) || (0x80 ≤ op && op ≤ 0x8D)
    || ((op == 0x90 || op == 0x91 || op == 0x92) && !isOrdered i) || op == 0xE0 || op == 0xE5

/-- The yielding waits (05 R158 and the rules that add to it). -/
def Hold.yields (h : Hold) : Bool :=
  match h with
  | .none | .take .. | .takeWin _ | .sreset _ | .exit_ | .isload .. | .window _ | .trap _ => false
  | _ => true

/-- In a yielding wait, parked threads included (18 R391). -/
def Thread.yields (th : Thread) : Bool := th.park || th.fetchTag.isSome || th.hold.yields

/-- Held by a TAKE or an SRESET: not eligible (11 R254, R264). -/
def Hold.isTake (h : Hold) : Bool :=
  match h with
  | .take .. | .takeWin _ | .sreset _ => true
  | _ => false

/-- An eligible thread: 05 R144; an intersection program also within its budget (14 R333). -/
def State.eligible (s : State) (th : Thread) : Bool :=
  !th.exited && th.halted.isNone && !th.yields && !th.hold.isTake &&
  (match th.unit with
  | .device => match s.group? th.group with
    | some g => g.res == .running
    | none => false
  | .intersection => th.issued < th.budget
  | .service => true)

/-- An eligible thread that does not stall at an instruction it has issued. -/
def State.canIssue (s : State) (th : Thread) : Bool := s.eligible th && th.hold == .none

/-- An instruction of an intersection program counts towards its budget (14 R333). -/
def State.tick (s : State) (th : Thread) : State :=
  match th.unit with
  | .intersection => s.modThread th.id fun x => { x with issued := x.issued + 1 }
  | _ => s

/-- Instructions that are release sides, with their scope (08 R213, 11 R246, R252, R263, R269, 12 R284, 14 R332, 15 R345). -/
def releaseSide (i : Instr) : Option Order :=
  let at_ (agent store : Nat) : Option Order := some { rel := true, agent := agent, store := store }
  match i with
  | .bar _ | .slotarm _ | .sarrive _ | .qpush _ | .qtryPush _ => at_ 1 0
  | .give _ => at_ 1 1
  | .hitch _ => at_ 2 0
  | .spawn _ | .trace _ | .pairs _ | .sgfork _ | .ondone _ => at_ 4 0
  | .svc _ | .svc96 _ | .launchStart _ => at_ 6 0
  | _ => none

/-- Points of 17 R359 whatever their registers: WAIT, EXIT, releases (15 R349 among them), and instructions that reach registers by
an index or a frame. -/
def isPoint (i : Instr) : Bool :=
  let op := instrOp i
  let rel := op == 0xD9 || op == 0xDA || (match i.view with
    | some (.mem _ x) => x.ord.getLsbD 1
    | _ => false)
  op == 0x68 || op == 0x65 || rel || (releaseSide i).isSome || (0xE2 ≤ op && op ≤ 0xE4)

/-- A pending trap must be taken before this instruction (17 R359): it touches the destination of a faulted load, or is another of
those points. It is also taken before an instruction that reads other lanes, so that one issue has one set of active members, and
while an earlier one of several has been taken and this has not. -/
def mustTake (th : Thread) (i : Instr) : Bool :=
  let op := instrOp i
  th.must || isPoint i || (0x70 ≤ op && op ≤ 0x79) || op == 0x8E || th.pend.any fun tr =>
    i.uses.any fun u => (useRegs u).any (regsOf tr.dst (tr.wide / 32)).contains

/-- An access that waits for a page. -/
def Access.waitsPage (a : Access) : Bool :=
  match a.place with
  | .waiting _ => true
  | _ => false

/-- The slot that a reduction's arrival goes to. -/
def MemOp.redSlot : MemOp → Option Nat
  | .red _ _ _ n => n
  | _ => none

/-- The release that a thread waits with at its instruction: an ONDONE is one only on a slot that is ready (11 R246). -/
def State.releasing (s : State) (th : Thread) (i : Instr) : Option Order :=
  match i with
  | .ondone x =>
    let n := (s.src32 th (x.toOps4.lit.getD 0) x.toOps4.d).toNat
    if ((s.group? th.group).bind fun g => g.slots[n]?).any (·.ready) then releaseSide i else none
  | _ => releaseSide i

/-- The thread is parked at this instruction behind an access of its own that waits for a page (18 R391, 17 R359): it uses its
destination, or is another of those points, or a SACQ that follows the event of a reduction; or the thread has passed such a point, or may buffer stores behind the access, which a
shoot-down commits (18 R394). -/
def parksAt (th : Thread) (i : Instr) : Bool :=
  let opened := match th.region with
    | .opened .. => true
    | _ => false
  th.ops.any fun a => a.waitsPage
    && (opened || isPoint i || (a.op.redSlot.isSome && instrOp i == 0xB4) || (th.fences.any fun f => f.waits.contains a.id) || i.uses.any fun u => (useRegs u).any a.regs.contains)

def State.advance (s : State) (t : Nat) (n : Nat) : State :=
  s.modThread t fun x => { x with pc := x.pc + BitVec.ofNat 64 n }

/-- A precise trap of the instruction at PC (17 R358); a thread that waits for registers of the frame takes it when it issues again
(log 70). -/
def State.trapHere (s : State) (th : Thread) (ws : List Word) (c : Cause) (addr : Dword) (detail : Word) : State :=
  let (n, s1) := s.newId
  if th.frameWaits then s else (s1.farDrop (.thread th.id)).trap th.id { cause := c, pc := th.pc, words := ws, addr := addr, detail := detail, order := n }

/-- A precise trap of an instruction that will not issue again by itself: it is taken once the registers of the frame are there
(log 70). -/
def State.trapSoon (s : State) (th : Thread) (ws : List Word) (c : Cause) (addr : Dword) (detail : Word) : State :=
  let (n, s1) := s.newId
  let tr : Trap := { cause := c, pc := th.pc, words := ws, addr := addr, detail := detail, order := n }
  if th.frameWaits then (s1.farDrop (.thread th.id)).modThread th.id fun x => { x with hold := .trap tr, fetchTag := none, holdAt := s.cycle }
  else ((s1.modThread th.id fun x => { x with hold := .none, fetchTag := none }).farDrop (.thread th.id)).trap th.id tr

/-- Emulable instructions, which raise UNIMPL (02 R60). -/
def isUnimpl (i : Instr) : Bool :=
  match i with
  | .div _ | .div96 _ | .rem _ | .rem96 _ => true
  | .fdiv x | .fsqrt x => x.ty == .f64
  | _ => false

/-- The system registers whose value depends on the flags of earlier loads (04 R132). -/
def readsFlags (i : Instr) : Bool :=
  match sysReg i with
  | some r => r == 0x001 || r == 0x003
  | none => false

/-- The stall before step 4 of 01 R27; UNIMPL comes before it (17 R358). -/
def stallsAt (th : Thread) (i : Instr) : Bool := !isUnimpl i && (th.stalled i.uses || (readsFlags i && th.flagsDue))

/-- A thread is parked behind an access of its own (18 R391). -/
def State.parkThread (s : State) (t : Nat) : State :=
  s.modThread t fun x => { x with park := true, holdAt := if x.park then x.holdAt else s.cycle }

/-- A member stays at its instruction: it may be parked there, and a release side that waits says so, with what it waits for, since
a failure of that raises FABRIC there (08 R205). One that its step has released is past it. -/
def State.stay (s : State) (th0 : Thread) (i : Instr) : State :=
  let t := th0.id
  match s.thread? t with
  | none => s
  | some th =>
    if th.hold != .none || th.pc != th0.pc then (match th.hold with
      | .parked .. => s
      | _ => s.farDrop (.thread t))
    else
      let s1 := if parksAt th i then s.parkThread t else s
      match s1.releasing th i with
      | none => s1
      | some o =>
        match s1.relWaits th o with
        | [] => s1
        | ws =>
          let (id, s2) := s1.newId
          s2.modThread t fun x => { x with relAt := some { id := id, pc := th.pc, words := encode i, order := o, waits := ws } }

/-- A member has executed its instruction. -/
def State.executed (s : State) (th : Thread) : State :=
  let s1 := (s.tick th).farDrop (.thread th.id)
  if th.relAt.isSome then s1.modThread th.id fun x => { x with relAt := none } else s1

/-- One member executes instruction i, whose effect for it is `body` (01 R27 steps 2 to 6, 17 R358). -/
def State.exec1 (s : State) (i : Instr) (body : State → Thread → Res) (t : Nat) : State :=
  match s.thread? t with
  | none => s
  | some th =>
    if !s.canIssue th then s
    else
      let (c, s0) := if th.pend.isEmpty || mustTake th i then (0, s) else if th.frameWaits then (1, s) else s.choose 2
      if !th.pend.isEmpty && c == 0 then s0.takePending t
      else match s0.decodeTrap th i with
      | some cause => s0.trapHere th (encode i) cause 0 0
      | none =>
        let s1 := if keepsRegion i then s0 else s0.closeRegion t
        if !th.guard i.guard then (s1.advance t i.len).executed th
        else if stallsAt th i then s1.stay th i
        else match body s1 ((s1.thread? t).getD th) with
          | .done s2 => (s2.advance t i.len).executed th
          | .jump s2 => s2.executed th
          | .trap s2 cause addr detail => if th.frameWaits then s1.stay th i else s2.trapHere th (encode i) cause addr detail
          | .stall s2 => s2.stay th i

/-- The members of a team execute an instruction in ascending lane order; `body` also has the state before the issue, for
sources (01 R11, R17, 06 R161). -/
def runTeam (i : Instr) (body : State → State → Thread → Res) (s : State) : Host.Outcome State Fault Refusal :=
  .next (s.team.foldl (fun acc t => acc.exec1 i (body s) t) s)

end Sys2Proof.Machine
end

