-- ==== Sys2Proof/Machine/Alu.lean ====
section
/-! DEFINITION. Operand values by type (02 R47, R50) and the shape shared by instructions whose whole effect is a register
result, flags and a predicate (01 R18, R23); integer values (04 R97 to R110). -/

namespace Sys2Proof.Machine

/-- Types whose operands convert an immediate (02 R50). -/
def Ty.convertsImm : Ty → Bool
  | .f64 | .f32 | .tf32 | .f16 | .bf16 => true
  | _ => false

/-- A source operand's value at a type: the low bits of its register, an immediate converted for a floating-point type. -/
def State.arg' (s : State) (th : Thread) (lit : Dword) (ty : Ty) (o : Opnd) : Nat :=
  match o with
  | .imm b => if Ty.convertsImm ty then rne ty (ofInt b.toInt) else (b.signExtend 64).toNat % 2 ^ ty.width
  | _ => (s.src th lit o ty.regWidth).toNat % 2 ^ ty.width

def litOf (x : Ops4) : Dword := x.lit.getD 0

def State.argA (s : State) (th : Thread) (x : Arith) : Nat := s.arg' th (litOf x.toOps4) x.ty x.a
def State.argB (s : State) (th : Thread) (x : Arith) : Nat := s.arg' th (litOf x.toOps4) x.ty x.b
def State.argC (s : State) (th : Thread) (x : Arith) : Nat := s.arg' th (litOf x.toOps4) x.ty x.c

/-- A 32-bit raw operand. -/
def State.raw32 (s : State) (th : Thread) (x : Ops4) (o : Opnd) : Word := s.src32 th (litOf x) o

/-- A 64-bit raw operand. -/
def State.raw64 (s : State) (th : Thread) (x : Ops4) (o : Opnd) : Dword := s.src th (litOf x) o 64

/-- What such an instruction delivers. -/
structure Out where
  d : Opnd
  w : Nat
  val : Nat
  flags : FFlags := 0
  pd : Option (BitVec 3 × Bool) := none
  deriving DecidableEq, Repr

def State.put (s : State) (t : Nat) (o : Out) : State :=
  (s.result t o.d o.w (BitVec.ofNat 128 o.val)).modThread t fun th =>
    let th1 := th.raise o.flags
    match o.pd with
    | some (n, b) => th1.setPred n b
    | none => th1

/-- An instruction whose effect for a member is what `f` gives from the state before the issue. -/
def aluTeam (i : Instr) (f : State → Thread → Out) (s : State) : Host.Outcome State Fault Refusal :=
  runTeam i (fun s0 s1 th => .done (s1.put th.id (f s0 th))) s

/-- One, two or three sources of the instruction's type, a result of that type. -/
def alu1 (i : Instr) (x : Arith) (f : Nat → Nat) (s : State) : Host.Outcome State Fault Refusal :=
  aluTeam i (fun s0 th => { d := x.d, w := x.ty.regWidth, val := f (s0.argA th x) }) s
def alu2 (i : Instr) (x : Arith) (f : Nat → Nat → Nat) (s : State) : Host.Outcome State Fault Refusal :=
  aluTeam i (fun s0 th => { d := x.d, w := x.ty.regWidth, val := f (s0.argA th x) (s0.argB th x) }) s
def alu3 (i : Instr) (x : Arith) (f : Nat → Nat → Nat → Nat) (s : State) : Host.Outcome State Fault Refusal :=
  aluTeam i (fun s0 th => { d := x.d, w := x.ty.regWidth, val := f (s0.argA th x) (s0.argB th x) (s0.argC th x) }) s

/-- A source of the type and a 32-bit amount. -/
def aluShift (i : Instr) (x : Arith) (f : Nat → Nat → Nat) (s : State) : Host.Outcome State Fault Refusal :=
  aluTeam i (fun s0 th =>
    { d := x.d, w := x.ty.regWidth, val := f (s0.argA th x) (s0.raw32 th x.toOps4 x.b).toNat }) s

/-- One source of the type, a 32-bit result. -/
def aluCount (i : Instr) (x : Arith) (f : Nat → Nat) (s : State) : Host.Outcome State Fault Refusal :=
  aluTeam i (fun s0 th => { d := x.d, w := 32, val := f (s0.argA th x) }) s

/-- An emulable instruction: UNIMPL when its guard is true (02 R60). -/
def unimplTeam (i : Instr) (s : State) : Host.Outcome State Fault Refusal :=
  runTeam i (fun _ s1 _ => .trap s1 .unimpl 0 0) s

/-! ### Integer results; each gives the code of the result at the type -/

/-- The exact integer e of 04 R97 brought to the type by R98. -/
def intRes (x : Arith) (e : Int) : Nat := encodeI x.ty x.sat e

def addVal (x : Arith) (a b : Nat) : Nat := intRes x (decodeI x.ty a + decodeI x.ty b)
def subVal (x : Arith) (a b : Nat) : Nat := intRes x (decodeI x.ty a - decodeI x.ty b)
def negVal (x : Arith) (a : Nat) : Nat := intRes x (-decodeI x.ty a)
def absVal (x : Arith) (a : Nat) : Nat := intRes x (decodeI x.ty a).natAbs
def minVal (x : Arith) (a b : Nat) : Nat :=
  intRes x (if decodeI x.ty a < decodeI x.ty b then decodeI x.ty a else decodeI x.ty b)
def maxVal (x : Arith) (a b : Nat) : Nat :=
  intRes x (if decodeI x.ty a < decodeI x.ty b then decodeI x.ty b else decodeI x.ty a)
def mulVal (x : Arith) (a b : Nat) : Nat := intRes x (decodeI x.ty a * decodeI x.ty b)
def mulhiVal (x : Arith) (a b : Nat) : Nat := intRes x (decodeI x.ty a * decodeI x.ty b / ((2 ^ x.ty.width : Nat) : Int))
def madVal (x : Arith) (a b c : Nat) : Nat := intRes x (decodeI x.ty a * decodeI x.ty b + decodeI x.ty c)
def sadVal (x : Arith) (a b c : Nat) : Nat :=
  intRes x ((decodeI x.ty a - decodeI x.ty b).natAbs + decodeI x.ty c)
def clampVal (x : Arith) (a b c : Nat) : Nat :=
  let lo := if decodeI x.ty a < decodeI x.ty b then decodeI x.ty b else decodeI x.ty a
  intRes x (if decodeI x.ty c < lo then decodeI x.ty c else lo)

/-- All bits of the type set. -/
def ones (ty : Ty) : Nat := 2 ^ ty.width - 1

def andVal (_ : Arith) (a b : Nat) : Nat := a &&& b
def orVal (_ : Arith) (a b : Nat) : Nat := a ||| b
def xorVal (_ : Arith) (a b : Nat) : Nat := a ^^^ b
def notVal (x : Arith) (a : Nat) : Nat := a ^^^ ones x.ty
def andnVal (x : Arith) (a b : Nat) : Nat := a &&& (b ^^^ ones x.ty)

/-- Bit i of the result from bits of the sources (04 R103). -/
def bitsMap (w : Nat) (f : Nat → Bool) : Nat := pack 1 ((List.range w).map fun i => if f i then 1 else 0)

def lopVal (x : Arith) (a b c : Nat) : Nat :=
  let lut := (x.fld 16 8).toNat
  bitsMap x.ty.width fun i =>
    lut.testBit ((if a.testBit i then 4 else 0) + (if b.testBit i then 2 else 0) + (if c.testBit i then 1 else 0))

def popcVal (x : Arith) (a : Nat) : Nat := ((List.range x.ty.width).filter fun i => a.testBit i).length
def clzVal (x : Arith) (a : Nat) : Nat := if a == 0 then x.ty.width else x.ty.width - 1 - Nat.log2 a
def ctzVal (x : Arith) (a : Nat) : Nat := ((List.range x.ty.width).takeWhile fun i => !a.testBit i).length
def brevVal (x : Arith) (a : Nat) : Nat := bitsMap x.ty.width fun i => a.testBit (x.ty.width - 1 - i)
def revbVal (x : Arith) (a : Nat) : Nat := ofBytes (toBytes (x.ty.width / 8) a).reverse

def shlVal (x : Arith) (a n : Nat) : Nat := if x.ty.width ≤ n then 0 else a * 2 ^ n % 2 ^ x.ty.width
def shrVal (x : Arith) (a n : Nat) : Nat := if x.ty.width ≤ n then 0 else a / 2 ^ n
def sarVal (x : Arith) (a n : Nat) : Nat :=
  let w := x.ty.width
  let fill := a.testBit (w - 1)
  if w ≤ n then (if fill then ones x.ty else 0)
  else a / 2 ^ n + (if fill then ones x.ty - (2 ^ (w - n) - 1) else 0)
def rolVal (x : Arith) (a n : Nat) : Nat :=
  let w := x.ty.width
  let k := n % w
  (a * 2 ^ k + a / 2 ^ (w - k)) % 2 ^ w
def rorVal (x : Arith) (a n : Nat) : Nat :=
  let w := x.ty.width
  let k := n % w
  (a / 2 ^ k + a * 2 ^ (w - k)) % 2 ^ w

/-- Position and length of a field, the length cut at the top (04 R105); none for an empty field. -/
def bfield (w b : Nat) : Option (Nat × Nat) :=
  let pos := b % 256
  let len := b / 256 % 256
  if len == 0 || w ≤ pos then none else some (pos, min len (w - pos))

def bfxVal (x : Arith) (a b : Nat) : Nat :=
  match bfield x.ty.width b with
  | none => 0
  | some (pos, len) =>
    let f := a / 2 ^ pos % 2 ^ len
    if x.ty.signed && f.testBit (len - 1) then f + (2 ^ x.ty.width - 2 ^ len) else f

def bfinsVal (x : Arith) (a b c : Nat) : Nat :=
  match bfield x.ty.width b with
  | none => c
  | some (pos, len) => c % 2 ^ pos + a % 2 ^ len * 2 ^ pos + c / 2 ^ (pos + len) * 2 ^ (pos + len)

/-- Condition codes of CMP (04 R108). -/
def cmpInt (cond : Nat) (a b : Int) : Bool :=
  match cond with
  | 0 => a == b
  | 1 => a != b
  | 2 => decide (a < b)
  | 3 => decide (a ≤ b)
  | 4 => decide (b < a)
  | _ => decide (b ≤ a)

/-- Moving between integer formats (03 R69). -/
def icvtVal (dt st : Ty) (sat : Bool) (a : Nat) : Nat := encodeI dt sat (decodeI st a)

end Sys2Proof.Machine
end

