-- ==== Sys2Proof/Machine/FloatOps.lean ====
section
/-! DEFINITION. Vector floating-point arithmetic and conversions (04 R111 to R118). -/

namespace Sys2Proof.Machine

/-- FMIN and FMAX (04 R113): -0 lies below +0, one NaN yields the other operand, a signalling NaN raises NV. -/
def fminmax (ty : Ty) (max : Bool) (a b : Nat) : FRes :=
  let x := decodeF ty a
  let y := decodeF ty b
  let nv := nvIf (x.isSnan || y.isSnan)
  if x.isNan && y.isNan then { bits := (Ty.fmt ty).put false (Ty.fmt ty).nanCode, flags := nv }
  else if x.isNan then { bits := b, flags := nv }
  else if y.isNan then { bits := a, flags := nv }
  else
    let less := ltV x y || (eqV x y && x.neg && !y.neg)
    { bits := if less != max then a else b, flags := nv }

/-- FABS: the sign bit cleared. -/
def fabsVal (ty : Ty) (a : Nat) : Nat := a % 2 ^ (ty.width - 1)

/-- FCMP (04 R115): the relation and its NV. -/
def fcmpVal (cond : Nat) (x y : FVal) : Bool × FFlags :=
  let any := x.isNan || y.isNan
  let sig := x.isSnan || y.isSnan
  match cond with
  | 0 => (eqV x y, nvIf sig)
  | 1 => (!eqV x y, nvIf sig)
  | 2 => (ltV x y, nvIf any)
  | 3 => (leV x y, nvIf any)
  | 4 => (ltV y x, nvIf any)
  | 5 => (leV y x, nvIf any)
  | 6 => (!any, nvIf sig)
  | _ => (any, nvIf sig)

/-- FCLASS: one bit of ten (04 R114). -/
def fclassVal (ty : Ty) (a : Nat) : Nat :=
  let f := Ty.fmt ty
  match decodeF ty a with
  | .nan s => if s then 0x100 else 0x200
  | .inf n => if n then 0x001 else 0x080
  | .fin n m _ =>
    if m == 0 then (if n then 0x008 else 0x010)
    else if m < 2 ^ f.mw then (if n then 0x004 else 0x020)
    else if n then 0x002 else 0x040

/-- CVT (04 R117): between equal types the operand as its type reads it, a NaN made canonical. -/
def cvtVal (dt st : Ty) (mode : Rnd) (sat : Bool) (a : Nat) : FRes :=
  roundTo dt mode (sat && dt != st) (decodeF st a)

/-- FRND (04 R118): the nearest integral value of the format. -/
def frndVal (ty : Ty) (mode : Rnd) (a : Nat) : FRes :=
  match decodeF ty a with
  | .fin n m e =>
    let (k, exact) := roundAt mode n m e 0
    { bits := (roundTo ty mode false (.fin n k 0)).bits, flags := if exact then 0 else fNX }
  | v => roundTo ty mode false v

/-- FSCALE (04 R118): a * 2^n with one rounding. -/
def fscaleVal (ty : Ty) (mode : Rnd) (a : Nat) (n : Int) : FRes :=
  match decodeF ty a with
  | .fin s m e =>
    -- beyond these bounds every format has overflowed or has only its sticky part left
    let k := if n < -5000 then -5000 else if 5000 < n then 5000 else n
    roundTo ty mode false (.fin s m (e + k))
  | v => roundTo ty mode false v

/-- A floating-point result and flags of a member. -/
def fOut (x : Arith) (r : FRes) : Out := { d := x.d, w := x.ty.regWidth, val := r.bits, flags := r.flags }

def falu1 (i : Instr) (x : Arith) (f : Rnd → Nat → FRes) (s : State) : Host.Outcome State Fault Refusal :=
  aluTeam i (fun s0 th => fOut x (f (th.rnd x.rnd) (s0.argA th x))) s
def falu2 (i : Instr) (x : Arith) (f : Rnd → Nat → Nat → FRes) (s : State) : Host.Outcome State Fault Refusal :=
  aluTeam i (fun s0 th => fOut x (f (th.rnd x.rnd) (s0.argA th x) (s0.argB th x))) s
def falu3 (i : Instr) (x : Arith) (f : Rnd → Nat → Nat → Nat → FRes) (s : State) : Host.Outcome State Fault Refusal :=
  aluTeam i (fun s0 th => fOut x (f (th.rnd x.rnd) (s0.argA th x) (s0.argB th x) (s0.argC th x))) s

def faddVal (x : Arith) (m : Rnd) (a b : Nat) : FRes := fadd x.ty m a b
def fsubVal (x : Arith) (m : Rnd) (a b : Nat) : FRes := fadd x.ty m a (fneg x.ty b)
def fmulVal (x : Arith) (m : Rnd) (a b : Nat) : FRes := fmul x.ty m a b
def ffmaVal (x : Arith) (m : Rnd) (a b c : Nat) : FRes := ffma x.ty m a b c
def fminVal (x : Arith) (_ : Rnd) (a b : Nat) : FRes := fminmax x.ty false a b
def fmaxVal (x : Arith) (_ : Rnd) (a b : Nat) : FRes := fminmax x.ty true a b
def fabsRes (x : Arith) (_ : Rnd) (a : Nat) : FRes := { bits := fabsVal x.ty a }
def fnegRes (x : Arith) (_ : Rnd) (a : Nat) : FRes := { bits := fneg x.ty a }

/-- The source type of a conversion. -/
def srcTy (x : Arith) : Ty := (Ty.ofCode (x.fld 16 5)).getD .b32

/-- FADD, compact: 04 R112. -/
def execFadd (x : C3) (s : State) : Host.Outcome State Fault Refusal :=
  falu2 (.fadd x) (x.toArith 0x40 none) (faddVal (x.toArith 0x40 none)) s

/-- FADD: 04 R112. -/
def execFadd96 (x : AForm) (s : State) : Host.Outcome State Fault Refusal :=
  falu2 (.fadd96 x) (x.toArith 0x40) (faddVal (x.toArith 0x40)) s

/-- FSUB, compact: 04 R112. -/
def execFsub (x : C3) (s : State) : Host.Outcome State Fault Refusal :=
  falu2 (.fsub x) (x.toArith 0x41 none) (fsubVal (x.toArith 0x41 none)) s

/-- FSUB: 04 R112. -/
def execFsub96 (x : AForm) (s : State) : Host.Outcome State Fault Refusal :=
  falu2 (.fsub96 x) (x.toArith 0x41) (fsubVal (x.toArith 0x41)) s

/-- FMUL, compact: 04 R112. -/
def execFmul (x : C3) (s : State) : Host.Outcome State Fault Refusal :=
  falu2 (.fmul x) (x.toArith 0x42 none) (fmulVal (x.toArith 0x42 none)) s

/-- FMUL: 04 R112. -/
def execFmul96 (x : AForm) (s : State) : Host.Outcome State Fault Refusal :=
  falu2 (.fmul96 x) (x.toArith 0x42) (fmulVal (x.toArith 0x42)) s

/-- FFMA, compact: 04 R112. -/
def execFfma (x : C3) (s : State) : Host.Outcome State Fault Refusal :=
  falu3 (.ffma x) (x.toArith 0x43 none) (ffmaVal (x.toArith 0x43 none)) s

/-- FFMA: 04 R112. -/
def execFfma96 (x : AForm) (s : State) : Host.Outcome State Fault Refusal :=
  falu3 (.ffma96 x) (x.toArith 0x43) (ffmaVal (x.toArith 0x43)) s

/-- FMIN, compact: 04 R113. -/
def execFmin (x : C3) (s : State) : Host.Outcome State Fault Refusal :=
  falu2 (.fmin x) (x.toArith 0x44 none) (fminVal (x.toArith 0x44 none)) s

/-- FMIN: 04 R113. -/
def execFmin96 (x : AForm) (s : State) : Host.Outcome State Fault Refusal :=
  falu2 (.fmin96 x) (x.toArith 0x44) (fminVal (x.toArith 0x44)) s

/-- FMAX, compact: 04 R113. -/
def execFmax (x : C3) (s : State) : Host.Outcome State Fault Refusal :=
  falu2 (.fmax x) (x.toArith 0x45 none) (fmaxVal (x.toArith 0x45 none)) s

/-- FMAX: 04 R113. -/
def execFmax96 (x : AForm) (s : State) : Host.Outcome State Fault Refusal :=
  falu2 (.fmax96 x) (x.toArith 0x45) (fmaxVal (x.toArith 0x45)) s

/-- FABS, compact: 04 R114. -/
def execFabs (x : C3) (s : State) : Host.Outcome State Fault Refusal :=
  falu1 (.fabs x) (x.toArith 0x46 none) (fabsRes (x.toArith 0x46 none)) s

/-- FABS: 04 R114. -/
def execFabs96 (x : AForm) (s : State) : Host.Outcome State Fault Refusal :=
  falu1 (.fabs96 x) (x.toArith 0x46) (fabsRes (x.toArith 0x46)) s

/-- FNEG, compact: 04 R114. -/
def execFneg (x : C3) (s : State) : Host.Outcome State Fault Refusal :=
  falu1 (.fneg x) (x.toArith 0x47 none) (fnegRes (x.toArith 0x47 none)) s

/-- FNEG: 04 R114. -/
def execFneg96 (x : AForm) (s : State) : Host.Outcome State Fault Refusal :=
  falu1 (.fneg96 x) (x.toArith 0x47) (fnegRes (x.toArith 0x47)) s

/-- FCMP: 04 R115. -/
def execFcmp (x : Arith) (s : State) : Host.Outcome State Fault Refusal :=
  aluTeam (.fcmp x) (fun s0 th =>
    let (r, fl) := fcmpVal (x.fld 19 4).toNat (decodeF x.ty (s0.argA th x)) (decodeF x.ty (s0.argB th x))
    { d := x.d, w := 32, val := if r then 1 else 0, flags := fl, pd := some (x.fld 16 3, r) }) s

/-- FCLASS: 04 R114. -/
def execFclass (x : Arith) (s : State) : Host.Outcome State Fault Refusal :=
  aluTeam (.fclass x) (fun s0 th =>
    { d := x.d, w := 32, val := fclassVal x.ty (s0.argA th x) }) s

/-- FDIV: UNIMPL for `.f64` (02 R60), otherwise 04 R116. -/
def execFdiv (x : Arith) (s : State) : Host.Outcome State Fault Refusal :=
  if x.ty == .f64 then unimplTeam (.fdiv x) s
  else falu2 (.fdiv x) x (fdiv x.ty) s

/-- FSQRT: UNIMPL for `.f64` (02 R60), otherwise 04 R116. -/
def execFsqrt (x : Arith) (s : State) : Host.Outcome State Fault Refusal :=
  if x.ty == .f64 then unimplTeam (.fsqrt x) s
  else falu1 (.fsqrt x) x (fsqrt x.ty) s

/-- CVT: 04 R117. -/
def execCvt (x : Arith) (s : State) : Host.Outcome State Fault Refusal :=
  aluTeam (.cvt x) (fun s0 th =>
    fOut x (cvtVal x.ty (srcTy x) (th.rnd x.rnd) x.sat (s0.arg' th (litOf x.toOps4) (srcTy x) x.a))) s

/-- CVTFI: 04 R117, 03 R85. -/
def execCvtfi (x : Arith) (s : State) : Host.Outcome State Fault Refusal :=
  aluTeam (.cvtfi x) (fun s0 th =>
    let (i, fl) := toInt x.ty (th.rnd x.rnd) (decodeF (srcTy x) (s0.arg' th (litOf x.toOps4) (srcTy x) x.a))
    { d := x.d, w := x.ty.regWidth, val := encodeI x.ty false i, flags := fl }) s

/-- CVTIF: 04 R117, 03 R85. -/
def execCvtif (x : Arith) (s : State) : Host.Outcome State Fault Refusal :=
  aluTeam (.cvtif x) (fun s0 th =>
    fOut x (roundTo x.ty (th.rnd x.rnd) x.sat
      (ofInt (decodeI (srcTy x) (s0.arg' th (litOf x.toOps4) (srcTy x) x.a))))) s

/-- FRND: 04 R118. -/
def execFrnd (x : Arith) (s : State) : Host.Outcome State Fault Refusal :=
  falu1 (.frnd x) x (frndVal x.ty) s

/-- FSCALE: B is a signed 32-bit integer (04 R118). -/
def execFscale (x : Arith) (s : State) : Host.Outcome State Fault Refusal :=
  aluTeam (.fscale x) (fun s0 th =>
    fOut x (fscaleVal x.ty (th.rnd x.rnd) (s0.argA th x) (s0.raw32 th x.toOps4 x.b).toInt)) s

end Sys2Proof.Machine
end

