-- ==== Sys2Proof/Machine/Team.lean ====
section
/-! DEFINITION. What happens when threads are held, arrive and end: JOIN and BAR releases (05 R148, 06 R165 to R167), the end of
a thread and of its group (05 R138, 04 R123), and HITCH completion by a gang (12 R284). -/

namespace Sys2Proof.Machine

/-! ### Combining values (06 R165, R170) -/

/-- COMBINE of two codes at a type, with its flags. -/
def combine (ty : Ty) (op x y : Nat) : Nat × FFlags :=
  let fl := ty == .f32 || ty == .f16 || ty == .bf16 || ty == .f64
  let ofR (r : FRes) : Nat × FFlags := (r.bits, r.flags)
  match op with
  | 1 => if fl then ofR (fadd ty .rne x y) else ((x + y) % 2 ^ ty.width, 0)
  | 2 => if fl then ofR (fminmax ty false x y) else (if decodeI ty y < decodeI ty x then y else x, 0)
  | 3 => if fl then ofR (fminmax ty true x y) else (if decodeI ty x < decodeI ty y then y else x, 0)
  | 4 => (x &&& y, 0)
  | 5 => (x ||| y, 0)
  | _ => (x ^^^ y, 0)

/-- A fold in order: the running values, each with the flags of the steps it took. -/
def scanFold (ty : Ty) (op : Nat) : Nat → FFlags → List Nat → List (Nat × FFlags)
  | acc, f, [] => [(acc, f)]
  | acc, f, x :: xs => let (y, g) := combine ty op acc x; (acc, f) :: scanFold ty op y (f ||| g) xs

/-- All prefixes of a non-empty list folded; none for an empty list. -/
def prefixes (ty : Ty) (op : Nat) : List Nat → List (Nat × FFlags)
  | [] => []
  | x :: xs => scanFold ty op x 0 xs

/-! ### Releases -/

/-- Inserts in ascending (stage, index within stage). -/
def insertByStage (x : Thread) : List Thread → List Thread
  | [] => [x]
  | y :: ys => if x.stage < y.stage || (x.stage == y.stage && x.tid < y.tid) then x :: y :: ys else y :: insertByStage x ys

def byStage (ts : List Thread) : List Thread := ts.foldr insertByStage []

/-- Payload values of the held members of a thread's barrier instance, in ascending (stage, index) (06 R166). -/
def State.barValues (s : State) (th : Thread) (set : JoinSet) : List Nat :=
  (byStage ((s.setMembers th set).filter fun x => !x.exited)).filterMap fun x =>
    match x.hold with
    | .bar _ _ (some p) => some p.value.toNat
    | _ => none

/-- A held thread whose set has arrived. -/
def State.due (s : State) (th : Thread) : Bool :=
  match holdSet th with
  | some set => !th.exited && (s.setMembers th set).all fun x => arrived th x
  | none => false

/-- One held member is released, with the fold of the instance before the release when it carries a payload. -/
def State.releaseMember (s0 s : State) (th : Thread) : State :=
  match th.hold, holdSet th with
  | .bar _ _ (some p), some set =>
    match (prefixes p.ty p.op (s0.barValues th set)).getLast? with
    | some (v, f) => ((s.result th.id p.d 32 (BitVec.ofNat 128 v)).raise th.id f).modThread th.id fun x => x.release
    | none => s.modThread th.id fun x => x.release
  | _, _ => s.modThread th.id fun x => x.release

/-- Writes of a barrier instance's members, those that have exited among them, and those that they have read, that have not performed:
after the release they come before what any member does (06 R167, 08 R208, R213). -/
def State.barDeps (s : State) (th : Thread) : List Nat :=
  match th.hold, holdSet th with
  | .bar .., some set => (s.setMembers th set).flatMap fun x => s.deps x { rel := true, agent := 1 }
  | _, _ => []

/-- Every held member of every instance whose last member has arrived is released in one step (05 R148, 06 R165). Members of
several issues that write one k register write it in the order of the group's threads, where R17 leaves the order open (DESIGN
CHOICE, log 55). -/
def State.releaseSets (s : State) (gid : Nat) : State :=
  ((s.live gid).filter s.due).foldl (fun acc th => (State.releaseMember s acc th).see th.id (s.barDeps th)) s

/-! ### The end of a thread (04 R123, 05 R138) -/

/-- Groups of a gang in order of their index. -/
def State.gangGroups (s : State) (gang : Nat) : List Group := s.groups.filter fun g => g.gang == gang

/-- After a thread of a group has ended: the sets it completes release, and a group without threads ends. -/
def State.afterEnd (s : State) (gid : Nat) : State :=
  let s1 := s.releaseSets gid
  if (s1.live gid).isEmpty then s1.endGroup gid else s1.settleGroup gid

/-- A thread ends: an arrival at the barriers of its sets, and so a release at group scope (06 R165, R167). -/
def State.endThread (s : State) (t : Nat) : State :=
  match s.thread? t with
  | none => s
  | some th =>
    let s1 := (s.markVis t 1).modThread t fun x => { x with exited := true, hold := .none }
    match th.unit with
    | .device => s1.afterEnd th.group
    | _ => s1

/-- No load or store of the thread is outstanding and no trap is pending, and its accesses have completed to group scope: its EXIT ends
it (04 R123, 06 R167; log 74). -/
def State.canExit (s : State) (th : Thread) : Bool :=
  th.cnt.loads == 0 && th.cnt.stores == 0 && th.pend.isEmpty && s.released th 1 0

/-! ### Release sides -/

/-- An instruction that is a release side waits at its PC until the earlier accesses it covers have completed to its scope
(08 R204, R213). -/
def State.afterRelease (s : State) (th : Thread) (agent : Nat) (r : Res) (store : Nat := 0) : Res :=
  if s.released th agent store then (match r with
    | .done x => .done (x.markVis th.id agent)
    | .jump x => .jump (x.markVis th.id agent)
    | .stall x => .stall (x.markVis th.id agent)
    | .trap x c a d => .trap x c a d)
  else .stall s

/-- Holds a thread at the instruction at its PC. -/
def State.holdAt (s : State) (t : Nat) (i : Instr) (h : Hold) : State :=
  let (n, s1) := s.newId
  s1.modThread t fun x => { x with hold := h, holdWords := encode i, holdSeq := n, holdAt := s.cycle }

end Sys2Proof.Machine
end

