-- ==== Sys2Proof/Machine/Reads.lean ====
section
/-! DEFINITION. The address checks of 09 R223 with the windows of 07 R185 to R187 and the ownership check of 11 R262, and reads
that an instruction finishes before its thread moves on (17 R358, 18 R391). -/

namespace Sys2Proof.Machine

/-- A precise trap: its cause, ADDR and DETAIL. -/
structure Bad where
  cause : Cause
  addr : Dword := 0
  detail : Word := 0
  deriving DecidableEq, Repr

/-- What an address names before translation (07 R185). -/
inductive Cls where
  | spad (off : Nat)
  | stack (off : Nat)
  | global
  deriving DecidableEq, Repr

/-- Bytes of the group's scratchpad allocation. -/
def State.scratch (s : State) (th : Thread) : Nat :=
  match s.group? th.group with
  | some g => g.hdr.scratch
  | none => 0

/-- Bytes of the launch's stack window. -/
def State.stackSize (s : State) (th : Thread) : Nat :=
  match s.launchOf th with
  | some l => l.lr.stack
  | none => 0

/-- The first byte of a scratchpad range in a block that is not in the state the access needs: engine-owned and not taking
(11 R264), or thread-owned. -/
def Group.ownerBad (g : Group) (off n : Nat) (needEngine : Bool) : Option Nat :=
  let first := off / 1024
  let last := (off + n - 1) / 1024
  match ((List.range (last + 1 - first)).map (· + first)).find? fun b =>
      if needEngine then !(g.engine.contains b && !g.taking.contains b) else g.engine.contains b with
  | none => none
  | some b => some (max off (1024 * b))

/-- OWNER for a scratchpad range, with ADDR and DETAIL of 17 R362. -/
def State.ownerTrap (s : State) (th : Thread) (off n : Nat) (needEngine : Bool) : Option Bad :=
  match s.group? th.group with
  | none => none
  | some g =>
    match g.ownerBad off n needEngine with
    | none => none
    | some o => some { cause := .owner, addr := s.img.spBase + BitVec.ofNat 64 o, detail := BitVec.ofNat 32 (o / 1024) }

/-- Steps 1 to 3 and 6 of 09 R223 for an access of n bytes; `align` is 1 where MISALIGN is not raised. -/
def State.classify (s : State) (th : Thread) (a : Dword) (n align : Nat) : Except Bad Cls :=
  if a.toNat % align != 0 then .error { cause := .misalign, addr := a }
  else if !canonical (s.spaceOf th) a then .error { cause := .range, addr := a }
  else if th.unit != .device then .ok .global
  else if inWindow s.img.spBase a then
    let o := (a - s.img.spBase).toNat
    if s.scratch th < o + n then .error { cause := .range, addr := a }
    else match s.ownerTrap th o n false with
      | some b => .error b
      | none => .ok (.spad o)
  else if inWindow s.img.stkBase a then
    let o := (a - s.img.stkBase).toNat
    if s.stackSize th < o + n then .error { cause := .stack, addr := a } else .ok (.stack o)
  else .ok .global

/-- The outcome of a read that an instruction finishes before its thread moves on. -/
inductive Own where
  | ok (bs : List Byte)
  | bad (b : Bad)
  | park (tag : Nat) (va : Dword)
  | later
  deriving DecidableEq, Repr

/-- An access that may write has not taken effect. -/
def Thread.writing (th : Thread) : Bool :=
  th.ops.any fun a => !a.fixed && a.op.writes

/-- A read of n bytes by a thread at an aligned address; it follows the thread's earlier writes (01 R25) and
the writes that come before it (08 R208). With `windows` false
an address in a window raises PROT (14 R331). -/
def State.ownRead (s : State) (th : Thread) (a : Dword) (n align : Nat) (windows : Bool) : State × Own :=
  match s.classify th a n align with
  | .error b => (s, if !windows && th.unit == .device && s.windowed a && b.cause != .misalign
      then .bad { cause := .prot, addr := a } else .bad b)
  | .ok c =>
    if c != .global && !windows then (s, .bad { cause := .prot, addr := a })
    else if th.writing || !th.acqs.isEmpty || !th.saw.all s.ended then (s, .later)
    else match c with
      | .spad o => (s, .ok (((s.group? th.group).map fun g => g.spad.load o n).getD []))
      | .stack o =>
        match s.readStack th o n with
        | (s1, .ok bs) => (s1, .ok bs)
        | (s1, .error f) => (s1, .bad { cause := f.cause, addr := a })
      | .global =>
        match s.agentRead (.thread th.id) (s.spaceOf th) th.sup 0 (th.unit == .service && th.sup) (n / 4096 + 2) a n with
        | (s1, .ok bs) => (s1, .ok bs)
        | (s1, .wait t x) => if t == 0 then (s1, .later) else (s1, .park t x)
        | (s1, .fail f x) => (s1, .bad { cause := f.cause, addr := x, detail := f.detail })

/-- Parks a thread at its instruction for a page request (18 R391). -/
def State.parkAt (s : State) (t : Nat) (i : Instr) (tag : Nat) (va : Dword) : State :=
  s.holdAt t i (.parked tag va)

/-- A launch's spawn entry as an instruction checks it (06 R168): DESC without a header read, the traps of the read, DESC on
the header. -/
def State.spawnCheck (s : State) (th : Thread) (entry : Dword) : State × Own :=
  match s.launchOf th with
  | none => (s, .bad { cause := .desc })
  | some l =>
    if l.lr.poolCap == 0 || entry.extractLsb' 0 6 != 0#6 then (s, .bad { cause := .desc })
    else match s.ownRead th entry 64 1 true with
      | (s1, .ok h) => (s1, if spawnHeaderOk entry h then .ok h else .bad { cause := .desc })
      | r => r

/-- What becomes of a member whose read did not give its bytes. -/
def Own.res (r : Own) (s : State) (th : Thread) (i : Instr) (k : List Byte → Res) : Res :=
  match r with
  | .ok bs => k bs
  | .bad b => .trap s b.cause b.addr b.detail
  | .park tag va => .stall (s.parkAt th.id i tag va)
  | .later => .stall s

end Sys2Proof.Machine
end

