-- ==== Sys2Proof/Machine/Memory.lean ====
section
/-! DEFINITION. Issue of loads, stores, atomics and line operations (04 R128 to R130, 09 R219 to R238), the steps in which they
read, perform and complete (01 R28, 08 R204 to R206), and the steps of remote accesses (20 R414 to R417). -/

namespace Sys2Proof.Machine

/-! ### Values -/

/-- What LD delivers for the bytes it read (04 R129). -/
def loadVal (ty : Ty) (bs : List Byte) : Nat :=
  let n := ofBytes bs
  if ty == .i8 then ((BitVec.ofNat 8 n).signExtend 32).toNat else n

/-- One element of an LDMX (09 R225): a NaN element or scale gives the canonical NaN without a flag. -/
def ldmxElem (dt fmt : Ty) (scale : BitVec 8) (e : Nat) : FRes :=
  if scale == 255#8 then { bits := rne dt (.nan false) }
  else match decodeF fmt e with
    | .fin n m x => roundTo dt .rne false (.fin n m (x + (scale.toNat : Int) - 127))
    | .inf n => roundTo dt .rne false (.inf n)
    | .nan _ => { bits := rne dt (.nan false) }

def ldmxTy (dt : Nat) : Ty :=
  match dt with
  | 0 => .f32
  | 1 => .f16
  | _ => .bf16

/-- What LDMX delivers: n elements packed, and its flags. -/
def ldmxVal (dt n : Nat) (fmt : Ty) (scale : BitVec 8) (bs : List Byte) : Nat × FFlags :=
  let rs := (unpack fmt.width n (ofBytes bs)).map (ldmxElem (ldmxTy dt) fmt scale)
  (pack (ldmxTy dt).width (rs.map (·.bits)), rs.foldl (fun f r => f ||| r.flags) 0)

/-- The new value of an atomic and its flags; none when a comparison fails (09 R226 to R228). -/
def atomNew (ty : Ty) (op old b c : Nat) : Option (Nat × FFlags) :=
  match op with
  | 0 => some (combine ty 1 old b)
  | 1 => some (combine ty 2 old b)
  | 2 => some (combine ty 3 old b)
  | 3 => some (combine ty 4 old b)
  | 4 => some (combine ty 5 old b)
  | 5 => some (combine ty 6 old b)
  | 6 => some (b, 0)
  | _ => if old == c then some (b, 0) else none

/-! ### Places -/

/-- Translates n bytes of one page for a thread. The place is answered whatever the state of the links: checks of its class come
before a failure on the way to it (09 R223). A page request names a thread as its source, for an intersection program's own access
too (log 77). -/
def State.placePage (s : State) (th : Thread) (sup : Bool) (va : Dword) (n : Nat) (k : Kind) : State × Place :=
  match s.translate (s.spaceOf th) va k sup with
  | (s1, .request) => let (s2, tag) := s1.requestPage (s.spaceOf th) va k 0; (s2, .waiting tag)
  | (s1, .fail f) => (s1, .failed f va)
  | (s1, .ok e lv) =>
    match s1.physClass e (leafPa e lv va) n (k == .write) (th.unit == .service && sup) with
    | .failed f _ => (s1, .failed f va)
    | p => (s1, p)

/-- The place of n bytes at va, or the failure on the way to it (20 R413, R417). -/
def State.linked (s : State) (p : Place) (va : Dword) (n : Nat) : Place :=
  match s.linkFail p n with
  | some f => .failed f (match p with
    | .dram pa _ => s.failVa f va pa n
    | _ => va)
  | none => p

/-- Translates an access; only an LDMX of 12 bytes can cross a page (09 R224). -/
def State.placeGlobal (s : State) (th : Thread) (sup : Bool) (va : Dword) (n : Nat) (k : Kind) :
    State × Place × Option (Nat × Place) :=
  let m := inPage va n
  match s.placePage th sup va m k with
  | (s1, p) =>
    if m == n || !p.known then (s1, p, none)
    else match s1.placePage th sup (va + BitVec.ofNat 64 m) (n - m) k with
      | (s2, q) => if q.known then (s2, p, some (m, q)) else (s2, q, none)

/-- The same for the pieces of an access. -/
def State.linkAll (s : State) (va : Dword) (size : Nat) (p : Place) (tail : Option (Nat × Place)) : Place × Option (Nat × Place) :=
  match tail with
  | none => (s.linked p va size, none)
  | some (m, q) =>
    let p1 := s.linked p va m
    let q1 := s.linked q (va + BitVec.ofNat 64 m) (size - m)
    if !p1.known then (p1, none) else if !q1.known then (q1, none) else (p1, some (m, q1))

/-- A floating-point type of an atomic. -/
def Ty.isFloat : Ty → Bool
  | .f16 | .bf16 | .f32 | .f64 => true
  | _ => false

/-- ATOM and RED do not execute at the place (09 R231, 18 R389). -/
def classTrap (op : MemOp) (p : Place) : Bool :=
  let at_ (ty : Ty) : Bool := match p with
    | .stack _ | .pcie .. => true
    | .host _ _ cache => Ty.isFloat ty || cache == 2
    | .dram _ cache | .remote _ _ cache => cache == 2
    | _ => false
  match op with
  | .atom ty .. | .red ty .. => at_ ty
  | _ => false

/-! ### Reads -/

/-- bs, which begin at base, with the bytes of a store that begin at b replaced. -/
def overlay (bs : List Byte) (base : Nat) (data : List Byte) (b : Nat) : List Byte :=
  (List.range bs.length).map fun i =>
    if b ≤ base + i && base + i < b + data.length then data.getD (base + i - b) 0 else bs.getD i 0

/-- Reads one piece at its place; `hint`: how caches take its lines, none for an atomic, which executes at its site. -/
def State.readPart (s : State) (th : Thread) (p : Place) (n : Nat) (hint : Option Nat := some 0) :
    State × Except (Option Fail) (List Byte) :=
  match p with
  | .spad o => (s, .ok (((s.group? th.group).map fun g => g.spad.load o n).getD []))
  | .stack o =>
    match s.readStack th o n (hint.getD 0) with
    | (s1, .ok bs) => (s1, .ok bs)
    | (s1, .error f) => (s1, .error (some f))
  | .dram pa cache | .host _ pa cache =>
    match s.readNear (.thread th.id) p n, s.cacheCore th, hint with
    | (s1, .ok bs), some core, some h => (s1.cacheRead core pa n cache h, .ok bs)
    | r, _, _ => r
  | _ => s.readNear (.thread th.id) p n

/-- Reads every piece. -/
def State.readParts (s : State) (th : Thread) (hint : Nat) : List (Place × Nat) → State × Except (Option Fail) (List Byte)
  | [] => (s, .ok [])
  | (p, n) :: rest =>
    match s.readPart th p n (some hint) with
    | (s1, .ok bs) =>
      match State.readParts s1 th hint rest with
      | (s2, .ok cs) => (s2, .ok (bs ++ cs))
      | r => r
    | r => r

/-- Accesses in the order of their identifiers. -/
def byId (l : List Access) : List Access :=
  l.foldl (fun l b => (l.takeWhile fun x => x.id < b.id) ++ b :: l.dropWhile fun x => x.id < b.id) []

/-- A store that has no place in coherence order yet: buffered, without a translation, or held before its banks. -/
def Access.unplaced (b : Access) : Bool :=
  b.buffered || !b.place.known || (match b.place with
    | .spad _ => b.queued == 0
    | _ => false)

/-- A release of the thread to a scope wider than the group waits for a read, and not for a store of another thread: the read does not
return that store before it performs, so that no release comes to wait for a store that is after it in coherence order (log 22). -/
def keptFrom (th : Thread) (a w : Access) : Bool :=
  let later (o : Order) (ws : List Nat) : Bool := o.agent != 1 && ws.contains a.id && !ws.contains w.id
  (match w.place with
    | .dram .. => true
    | _ => false)
  && ((th.ops.any fun b => b.order.rel && later b.order b.waits) || th.fences.any fun f => later f.order f.waits)

/-- The stores that a read of a thread sees before they perform: its own earlier ones (01 R25) and those its core already reads, in
coherence order; its own that have no place in that order yet come last. A store that its core already reads is returned by every
read that may be served early (log 22). -/
def State.unperformed (s : State) (th : Thread) (a : Access) : List Access :=
  let near := if th.unit == .device then s.coreSeen th else th.ops
  let own (b : Access) : Bool := th.ops.any fun x => x.id == b.id
  let seen := near.filter fun b => b.op.isSt && !b.fixed && overlap a b
    && ((own b && b.id < a.id) || (!own b && b.vis && !b.buffered && !keptFrom th a b))
  byId (seen.filter fun b => !b.unplaced) ++ byId (seen.filter (·.unplaced))

/-- An access may be served from a write of its core that has not performed (08 R206). -/
def earlyOk (th : Thread) (a : Access) : Bool :=
  th.unit == .device && a.op.isLoad && a.order.agent ≤ 1 && (match a.place with
    | .dram _ cache => cache != 2
    | .spad _ => true
    | _ => false)

/-- The device serves a read early from a store that its core holds. -/
def State.serveEarly (s : State) (th : Thread) (a : Access) : State :=
  match s.arg.early with
  | none => s
  | some w =>
    let ok (b : Access) : Bool := b.id == w && b.op.isSt && !b.fixed && !b.buffered && s.waitsDone b
      && overlap a b && (match b.place with
        | .dram _ cache => cache != 2
        | .spad _ => true
        | _ => false)
    let free (x : Thread) : Bool := x.ops.all fun b => b.id != w || !s.fenceBlock x b
    if earlyOk th a && (s.coreSeen th).any ok && s.threads.all free then
      s.mapThreads fun x => { x with ops := x.ops.map fun b => if ok b then { b with vis := true } else b }
    else s

/-- An access that is an acquire, or that an acquire fence of its thread waits for (08 R207): the place in program order of the first
such acquire. -/
def acquiring (th : Thread) (a : Access) : Option Nat :=
  if a.order.acq then some a.id
  else match (th.acqs.filter fun q => q.waits.contains a.id).map (·.at_) with
    | [] => none
    | x :: xs => some (xs.foldl min x)

/-- A read that has taken effect after later releases of its thread were issued gives them unperformed writes of others to wait for:
those that it returned, or acquired (08 R204). At group scope, where such writes are complete, they go on with what the release puts
before an acquirer (R208). `from_`: where the acquire stands; releases before it are not concerned. -/
def State.late (s : State) (t id from_ : Nat) (ids : List Nat) : State :=
  if ids.isEmpty then s
  else s.modThread t fun x =>
    let new := ids.filter fun i => !x.ops.any fun a => a.id == i
    let join (xs : List Nat) : List Nat := xs ++ new.filter fun i => !xs.contains i
    let hit (i : Nat) (ws : List Nat) : Bool := from_ ≤ i && ws.contains id
    let group (f : Fence) : Bool := f.order.agent == 1 && hit f.id f.waits
    let op (b : Access) : Access :=
      let mine := b.order.rel && hit b.id b.waits
      { b with
        waits := if mine then join b.waits else b.waits
        deps := if b.op.writes && ((mine && b.order.agent == 1) || x.fences.any fun f => group f && f.id < b.id) then join b.deps else b.deps }
    { x with
      ops := x.ops.map op
      fences := x.fences.map fun f => if hit f.id f.waits then { f with waits := join f.waits } else f
      acqs := x.acqs.map fun q => if q.fence != 0 && hit q.fence q.waits then { q with waits := join q.waits } else q
      relDeps := if x.fences.any group then join x.relDeps else x.relDeps }

/-- What a read learns from releases at group scope (08 R207, R208): the unperformed writes behind the values that it returned;
`near` are the writes that it returned before they performed. -/
def State.learn (s : State) (th : Thread) (a : Access) (near : List Access) : State :=
  let tags := (s.rels.filter fun t => t.group == th.group && a.parts.any fun p => partsMeet (t.place, 1) p).flatMap (·.deps)
  let mates := (s.threads.filter fun x => x.unit == .device && x.group == th.group).flatMap (·.ops)
  let ds := tags ++ (near.filter fun b => mates.any fun x => x.id == b.id).flatMap (·.deps)
  if ds.isEmpty then s
  else match acquiring th a with
    | some n => (s.see th.id ds).late th.id a.id n ds
    | none => s.modThread th.id fun x => { x with heard := x.heard ++ ds.filter fun i => !x.heard.contains i }

/-- The value a read takes now; its thread remembers the unperformed writes of others that it returned (08 R204). An error
without a failure means that the read has to wait. -/
def State.readAccess (s0 : State) (th : Thread) (a : Access) : State × Except (Option Fail) (List Byte) :=
  let s := s0.serveEarly th a
  let ws := s.unperformed th a
  let others := ws.filter fun b => !(th.ops.any fun x => x.id == b.id)
  if !others.isEmpty && !earlyOk th a then (s, .error none)
  else
    match s.readParts th a.hint a.parts with
    | (s1, .ok bs) =>
      let put (bs : List Byte) (n : Nat) (p : Place) (b : Access) : List Byte :=
        match placeKey p, placeKey b.place with
        | some (c, u, x), some (d, v, y) =>
          if c == d && u == v then bs.take n ++ overlay (bs.drop n) x b.stored y else bs
        | _, _ => bs
      let out := ws.foldl (fun bs b =>
        let bs1 := match a.tail with
          | some (m, _) => put (bs.take m) 0 a.place b ++ bs.drop m
          | none => put bs 0 a.place b
        match a.tail with
        | some (m, q) => put bs1 m q b
        | none => bs1) bs
      let ids := others.map (·.id)
      (((s1.see th.id ids).late th.id a.id a.id ids).learn th a others, .ok out)
    | r => r

/-! ### After each step -/

/-- A full fence of a thread is complete: it follows the full fences of its group that completed before it, and leaves what they and
its own writes leave behind at group scope (08 R209). -/
def State.fenceDone (s : State) (t : Nat) (q : Acq) : State :=
  match s.thread? t with
  | none => s
  | some th =>
    let ks := ((s.group? th.group).map fun g => (g.kdeps.filter fun e => e.1 == fenceKey).flatMap (·.2)).getD []
    let ds := ks.filter fun i => !th.ops.any fun a => a.id == i
    let s1 := (s.see t ds).modThread t fun x =>
      { x with
        acqs := x.acqs.map fun y => if y == q then { q with fence := 0 } else y
        relDeps := if q.order.agent == 1 then x.relDeps ++ ds.filter fun d => !x.relDeps.contains d else x.relDeps
        fences := x.fences.map fun f => if q.fence ≤ f.id then { f with waits := f.waits ++ ds } else f }
    if q.order.agent == 1 then s1.leave { th with ops := th.ops.filter fun a => a.id < q.fence, saw := th.saw ++ ds } fenceKey
    else s1

/-- Full fences that are complete take effect, thread by thread. -/
def State.fencesDone (s : State) : State :=
  s.threads.foldl (fun s x => x.acqs.foldl (fun s q =>
    if q.fence != 0 && q.waits.all (s.doneTo q.upto) then s.fenceDone x.id q else s) s) s

/-- Scratchpad accesses that nothing holds any more enter the queues of their banks (07 R192). -/
def State.queueUp (s : State) : State :=
  s.mapThreads fun x => { x with ops := x.ops.map fun a => match a.place with
    | .spad _ => if a.queued == 0 && !a.fixed && s.entersQueue x a then { a with queued := s.nextId } else a
    | _ => a }

/-- Accesses that have finished, and obligations that are met, are forgotten; requests that may leave are sent. -/
def State.sweep (s0 : State) : State :=
  let s := State.queueUp (State.fencesDone s0)
  let s1 := s.mapThreads fun x =>
    { x with ops := x.ops.filter fun a => !(a.fixed && !a.counted) || a.op.isLoad }
  let due (ids : List Nat) : List Nat := if ids.isEmpty then [] else ids.filter fun i => !s1.ended i
  State.pump { s1 with
    rels := if s1.rels.isEmpty then [] else s1.rels.filter fun t => !(due t.deps).isEmpty
    groups := s1.groups.map fun g =>
      if g.kdeps.isEmpty then g else { g with kdeps := g.kdeps.filter fun e => !(due e.2).isEmpty }
    threads := s1.threads.map fun x =>
      { x with
        acqs := x.acqs.filter fun q => !q.waits.all (s1.doneTo q.upto)
        saw := due x.saw
        heard := due x.heard
        relDeps := due x.relDeps
        park := x.park && x.ops.any Access.waitsPage
        fences := x.fences.filter fun f => !f.waits.all (s1.doneTo f.order) } }

/-! ### Issue -/

/-- What a member asks of memory. -/
structure Ask where
  op : MemOp
  va : Dword
  size : Nat
  align : Nat
  kind : Kind
  dst : Opnd := .zero
  order : Order := {}
  hint : Nat := 0
  deriving DecidableEq, Repr

/-- The address of the memory form: A plus the signed offset (09 R220). -/
def State.memAddr (s : State) (th : Thread) (x : Memf) : Dword := s.raw64 th x.toOps4 x.a + x.off.signExtend 64

/-- Order and scope of the memory form; at thread scope it is a plain operation (08 R202). -/
def memOrder (x : Memf) : Order :=
  if x.agent == 0#3 then {}
  else { acq := x.ord.getLsbD 0, rel := x.ord.getLsbD 1, agent := x.agent.toNat, store := x.store.toNat }

/-- The hint of LD, ST and LDMX (09 R221). -/
def memHint (x : Memf) : Nat := (x.mod8.extractLsb' 0 2).toNat

/-- The counter that an access raises. -/
def MemOp.isStore (o : MemOp) : Bool := !o.isLoad

def bump (o : MemOp) (c : Counters) : Counters := if o.isLoad then { c with loads := c.loads + 1 } else { c with stores := c.stores + 1 }
def unbump (o : MemOp) (c : Counters) : Counters := if o.isLoad then { c with loads := c.loads - 1 } else { c with stores := c.stores - 1 }

def counterFull (o : MemOp) (c : Counters) : Bool := if o.isLoad then c.loads ≥ 63 else c.stores ≥ 63

/-- Bytes of the release buffer that a store occupies, and those in use on a core (17 R380). -/
def bufBytes (a : Access) : Nat := if a.size == 16 then 32 else 16
def State.bufUsed (s : State) (core : Nat) : Nat :=
  (((s.coreOps core).filter (·.buffered)).map bufBytes).foldl (· + ·) 0

/-- The issuer that a record names for an access. -/
def Access.issuer (th : Thread) (a : Access) : Issuer := { thread := th.id, pc := a.pc, words := a.words }

/-- A reduction of local memory that does not perform owes its slot nothing (09 R234; log 26). -/
def MemOp.unslot : MemOp → MemOp
  | .red ty op b _ => .red ty op b none
  | op => op

/-- A release whose covered write has failed cannot be performed (08 R205): it fails with it, and a remote reduction with it faults its
slot (09 R234; log 26). A comparison with exchange that stays in the module fails only if it would write, since it orders nothing
otherwise (09 R227); and a release that waits for its page is retried and has its place before it fails. -/
def Access.uncover (b : Access) (f : Fail) : Access :=
  let later : Access := { b with uncovered := b.uncovered.or (some f) }
  let cas := match b.op with
    | .atom _ 7 _ _ => true
    | _ => false
  match b.place with
  | .waiting _ => later
  | p => if cas && !p.far then later
    else { b with place := .failed f b.va, op := if p.outside then b.op else b.op.unslot }

/-- A covered write has failed on the fabric: each release that waits for it raises FABRIC, and the releases that wait for that
release's own write (08 R205, 20 R417). A reduction among them that names a slot faults it if it is remote, by its own failure, and
not if it is local (DEDUCED, log 26). `fuel`: how far such a chain is followed. -/
def State.failReleases : Nat → State → Nat → Fail → State
  | 0, s, _, _ => s
  | fuel + 1, s, id, f =>
    let hit (b : Access) : Bool := b.order.rel && !b.fixed && !b.isFailed && b.waits.contains id
    let lost := (s.threads.flatMap (·.ops)).filter fun b => hit b && (b.uncover f).isFailed
    let s1 : State := { s with
      unacked := s.unacked.filter fun u => !lost.any fun b => b.id == u.2.1
      threads := s.threads.map fun x =>
        let bad := (x.fences ++ x.relAt.toList).filter fun e => e.waits.contains id
        { x with
          ops := x.ops.map fun b => if hit b then b.uncover f else b
          fences := x.fences.filter fun e => !e.waits.contains id
          relAt := x.relAt.filter fun e => !e.waits.contains id
          pend := if x.halted.isSome then x.pend else x.pend ++ bad.map fun e =>
            { cause := f.cause, pc := e.pc, words := e.words, detail := f.detail, defer := true, order := e.id } } }
    lost.foldl (fun s b => s.failReleases fuel b.id f) s1

/-- An access has failed: its bytes no longer count in a send window, and releases that cover a write that failed on the fabric fail
with it. -/
def State.accessFailed (s : State) (a : Access) (f : Fail) : State :=
  let s1 : State := { s with unacked := s.unacked.filter fun u => u.2.1 != a.id }
  if a.op.writes && f.cause == .fabric then s1.failReleases (s1.threads.flatMap (·.ops)).length a.id f else s1

/-- How an access fails when it has got its place: a release whose covered write failed while it waited for its page, or a store to a
line of its stack whose slice is out of order (08 R205, 23 R433). -/
def State.settleFail (s : State) (t : Nat) (a : Access) : Option Access :=
  match a.uncovered with
  | some f => if (a.uncover f).isFailed then some (a.uncover f) else none
  | none => match a.place, a.op with
    | .stack o, .st _ => if s.stackDead t o a.size then some { a with place := .failed { cause := .machine } a.va } else none
    | _, _ => none

/-- An access that has its place: a store of an OPEN region enters the release buffer (17 R380), and a stack access takes effect
at once, since only its thread reaches the bytes. -/
def State.settleAccess (s : State) (t id : Nat) : State :=
  match s.thread? t with
  | none => s
  | some th =>
    match th.ops.find? fun a => a.id == id with
    | none => s
    | some a =>
      if !a.place.known then (match a.place with
        | .failed f _ => s.accessFailed a f
        | _ => s)
      else if let some b := s.settleFail t a then
        (s.modAccess t id fun _ => b).accessFailed b (b.uncovered.getD { cause := .machine })
      else
        let mine := match th.region with
          | .opened _ since => since ≤ a.id
          | _ => false
        if a.op.isSt && mine && s.bufUsed (s.coreOf th) + bufBytes a ≤ 32768 then
          (s.modAccess t id fun x => { x with buffered := true, counted := false }).modThread t fun x =>
            { x with cnt := unbump a.op x.cnt }
        else
          let s1 := if a.op.isSt && mine then s.closeRegion t else s
          match a.place with
          | .stack _ =>
            if a.op.isSt then (s1.performAt th a.place a.stored false [] a.hint).modAccess t id fun x => { x with fixed := true }
            else if !a.op.isLoad then s1
            else match s1.readAccess ((s1.thread? t).getD th) a with
              | (s2, .ok bs) => s2.modAccess t id fun x => { x with fixed := true, value := bs }
              | (s2, .error (some f)) => s2.modAccess t id fun x => { x with place := .failed f a.va }
              | (s2, .error none) => s2
          | _ => s1

/-- A write to an arrival window of this device or of another (20 R411, R412). -/
def isWindow (op : MemOp) (p : Place) : Bool :=
  op.isSt && (match p with
    | .window _ => true
    | .remote _ pa _ => 0xF800000000000 ≤ pa && pa < 0xF800000040000
    | _ => false)

/-- Earlier writes of the thread, buffered ones among them, that have not performed. -/
def unendedWrites (th : Thread) (below : Nat) : List Nat :=
  (th.ops.filter fun b => b.id < below && b.op.writes && !b.fixed).map (·.id)

/-- What an acquire access holds: an LD every later access of its thread (09 R222), an ATOM or SGSTAT those of its storage
(08 R204). -/
def acqOf (id : Nat) (q : Ask) : List Acq :=
  if !q.order.acq then []
  else match q.op with
    | .atom .. | .sg .. => [{ waits := [id], upto := { agent := 6 }, order := q.order, at_ := id }]
    | _ => [{ waits := [id], upto := { agent := 6 }, order := { acq := true, agent := 6 }, all := true, at_ := id }]

/-- The level of the leaf through which an access reached its place; 1 for one without a leaf. -/
def State.placeLevel (s : State) (th : Thread) (va : Dword) (p : Place) : Nat :=
  let at_ (pa : Nat) : Nat := s.leafLevel (s.spaceOf th) va pa
  match p with
  | .dram pa _ | .host _ pa _ | .table pa | .pcie _ pa | .remote _ pa _ => at_ pa
  | .window w => at_ (0xF800000000000 + 64 * w)
  | _ => 1

/-- The same for the bytes after a page boundary. -/
def State.tailLevel (s : State) (th : Thread) (va : Dword) (tail : Option (Nat × Place)) : Nat :=
  match tail with
  | some (m, p) => s.placeLevel th (va + BitVec.ofNat 64 m) p
  | none => 1

/-- Issues an access whose checks have passed. -/
def State.issueAccess (s : State) (th : Thread) (i : Instr) (iss : Nat) (q : Ask) (p : Place) (tail : Option (Nat × Place)) :
    State :=
  let (id, s1) := s.newId
  let s2 := if q.order.rel then s1.markVis th.id q.order.agent else s1
  let a : Access :=
    { id := id, issue := iss, pc := th.pc, words := encode i, va := q.va, size := q.size, sup := th.sup, place := p, tail := tail
      level := s.placeLevel th q.va p, tailLevel := s.tailLevel th q.va tail
      op := q.op, dst := q.dst, order := q.order, hint := q.hint, born := s.cycle
      waits := if q.order.rel then s1.relWaits th q.order else []
      deps := if !q.op.writes then [] else th.relDeps ++ (if q.order.rel && q.order.agent == 1 then s1.deps th q.order else [])
      after := if isWindow q.op p then unendedWrites th id else [] }
  let a1 : Access := match p with
    | .spad _ => if s2.entersQueue th a then { a with queued := iss } else a
    | _ => a
  let s3 := s2.modThread th.id fun x =>
    { x with
      ops := x.ops ++ [a1]
      cnt := bump q.op x.cnt
      acqs := x.acqs ++ acqOf id q }
  ((s3.countOut a1).settleAccess th.id id).sweep

/-- An acquire of the thread holds accesses to a place (08 R204). -/
def acqHolds (th : Thread) (p : Place) : Bool := th.acqs.any fun q => q.all || covers q.order p

/-- One member's access: its checks in the order of 09 R223, the stalls of 01 R28 and 08 R204, and its issue. -/
def State.memOne (s : State) (i : Instr) (iss : Nat) (th : Thread) (q : Ask) : Res :=
  match s.classify th q.va q.size q.align with
  | .error b => .trap s b.cause b.addr b.detail
  | .ok c =>
    if !canonical (s.spaceOf th) (q.va + BitVec.ofNat 64 (q.size - 1)) then .trap s .range q.va 0
    else if c != .global && classTrap q.op (match c with | .stack o => .stack o | .spad o => .spad o | .global => .nowhere) then
      .trap s .prot q.va 0
    else if counterFull q.op th.cnt || (q.order.rel && parkedBy th q.order) then .stall s
    else
      let go (s1 : State) (p : Place) (tail : Option (Nat × Place)) : Res :=
        if acqHolds th p then .stall s else .done (s1.issueAccess th i iss q p tail)
      match c with
      | .spad o => go s (.spad o) none
      | .stack o => go s (.stack o) none
      | .global =>
        match s.placeGlobal th th.sup q.va q.size q.kind with
        | (s1, p, tail) =>
          if classTrap q.op p then .trap s1 .prot q.va 0
          else
            let (p1, tail1) := s1.linkAll q.va q.size p tail
            go s1 p1 tail1

/-- A destination whose send window an issue has overrun (20 R415). -/
def State.overWindow (s0 s1 : State) : Option Nat :=
  (s1.unacked.map (·.1)).find? fun d => s1.outTo d > s1.sendLimit d && s1.outTo d > s0.outTo d

/-- The whole team stalls at issue until a send window has room. -/
def State.holdWindow (s : State) (dev : Nat) (i : Instr) : State :=
  s.team.foldl (fun s t => match s.thread? t with
    | some th => if s.canIssue th then s.holdAt t i (.window dev) else s
    | none => s) s

/-- A memory instruction of a team; the members of one issue share its number. -/
def memTeam (i : Instr) (f : Nat → State → State → Thread → Res) (s : State) : Host.Outcome State Fault Refusal :=
  let (iss, s0) := s.newId
  match runTeam i (f iss) s0 with
  | .next s1 =>
    match s.overWindow s1 with
    | some d => .next (s.holdWindow d i)
    | none => .next s1
  | r => r

/-! ### LD, ST, LDMX -/

def ldAsk (x : Memf) (va : Dword) : Ask :=
  { op := .ld x.ty, va := va, size := x.ty.width / 8, align := x.ty.width / 8, kind := .read, dst := x.d, order := memOrder x
    hint := memHint x }

def ldTeam (i : Instr) (x : Memf) (s : State) : Host.Outcome State Fault Refusal :=
  memTeam i (fun iss s0 s1 th => s1.memOne i iss th (ldAsk x (s0.memAddr th x))) s

/-- LD, compact: 04 R128, R129. -/
def execLd (x : CI) (s : State) : Host.Outcome State Fault Refusal := ldTeam (.ld x) (x.toMemf 0x90 none) s

/-- LD, plain or acquire: 04 R129, 09 R222. -/
def execLd96 (x : MForm) (s : State) : Host.Outcome State Fault Refusal := ldTeam (.ld96 x) (x.toMemf 0x90) s

/-- The data of a store: the low bytes of B. -/
def State.storeData (s : State) (th : Thread) (x : Memf) : List Byte :=
  if x.ty == .b128 then toBytes 16 (State.src128 th x.b).toNat
  else toBytes (x.ty.width / 8) (s.arg' th (litOf x.toOps4) x.ty x.b)

def stAsk (x : Memf) (va : Dword) (data : List Byte) : Ask :=
  { op := .st data, va := va, size := x.ty.width / 8, align := x.ty.width / 8, kind := .write, order := memOrder x
    hint := memHint x }

def stTeam (i : Instr) (x : Memf) (s : State) : Host.Outcome State Fault Refusal :=
  memTeam i (fun iss s0 s1 th => s1.memOne i iss th (stAsk x (s0.memAddr th x) (s0.storeData th x))) s

/-- ST, compact: 04 R128, R130. -/
def execSt (x : CI) (s : State) : Host.Outcome State Fault Refusal := stTeam (.st x) (x.toMemf 0x91 none) s

/-- ST, plain or release: 04 R130, 09 R222. -/
def execSt96 (x : MForm) (s : State) : Host.Outcome State Fault Refusal := stTeam (.st96 x) (x.toMemf 0x91) s

/-- Elements and bytes of an LDMX (09 R224). -/
def ldmxCount (x : Memf) : Nat := 8 * 2 ^ (x.mod8.extractLsb' 4 2).toNat
def ldmxBytes (x : Memf) : Nat := ldmxCount x * x.ty.width / 8

def ldmxAsk (x : Memf) (va : Dword) (scale : Word) : Ask :=
  { op := .ldmx (x.mod8.extractLsb' 2 2).toNat (ldmxCount x) x.ty (scale.setWidth 8), va := va, size := ldmxBytes x
    align := if ldmxBytes x == 12 then 4 else ldmxBytes x, kind := .read, dst := x.d, order := memOrder x, hint := memHint x }

/-- LDMX: 09 R224, R225. -/
def execLdmx (x : Memf) (s : State) : Host.Outcome State Fault Refusal :=
  memTeam (.ldmx x) (fun iss s0 s1 th =>
    s1.memOne (.ldmx x) iss th (ldmxAsk x (s0.memAddr th x) (s0.raw32 th x.toOps4 x.b))) s

/-! ### ATOM, RED -/

def State.rmwArg (s : State) (th : Thread) (x : Memf) (o : Opnd) : Dword :=
  BitVec.ofNat 64 (s.arg' th (litOf x.toOps4) x.ty o)

def atomAsk (x : Memf) (va b c : Dword) : Ask :=
  { op := .atom x.ty (x.mod8.extractLsb' 0 5).toNat b c, va := va, size := x.ty.width / 8, align := x.ty.width / 8
    kind := .write, dst := x.d, order := memOrder x }

/-- ATOM: 09 R226 to R231. -/
def execAtom (x : Memf) (s : State) : Host.Outcome State Fault Refusal :=
  memTeam (.atom x) (fun iss s0 s1 th =>
    s1.memOne (.atom x) iss th (atomAsk x (s0.memAddr th x) (s0.rmwArg th x x.b) (s0.rmwArg th x x.c))) s

def redAsk (x : Memf) (va b : Dword) (slot : Option Nat) : Ask :=
  { op := .red x.ty (x.mod8.extractLsb' 0 5).toNat b slot, va := va, size := x.ty.width / 8, align := x.ty.width / 8
    kind := .write, order := memOrder x }

/-- Slots of a thread's group. -/
def State.slotCount (s : State) (th : Thread) : Nat :=
  match s.group? th.group with
  | some g => if th.unit == .device then g.hdr.slots else 0
  | none => 0

/-- RED: 09 R232 to R234. SLOT comes before the checks of the address (log 58). -/
def execRed (x : Memf) (s : State) : Host.Outcome State Fault Refusal :=
  memTeam (.red x) (fun iss s0 s1 th =>
    let slot : Option Nat := if x.mod8.getLsbD 5 then some (s0.raw32 th x.toOps4 x.c).toNat else none
    match slot with
    | some n =>
      if s1.slotCount th ≤ n then .trap s1 .slot 0 (BitVec.ofNat 32 n)
      else s1.memOne (.red x) iss th (redAsk x (s0.memAddr th x) (s0.rmwArg th x x.b) (some n))
    | none => s1.memOne (.red x) iss th (redAsk x (s0.memAddr th x) (s0.rmwArg th x x.b) none)) s

/-! ### FENCE, IFENCE -/

/-- An acquire fence comes after what the thread's earlier reads and k reads have learned (08 R207, R214; log 63). -/
def State.acquireHeard (s : State) (th : Thread) : State :=
  let ks := ((s.group? th.group).map fun g => (g.kdeps.filter fun e => e.1 < 256).flatMap (·.2)).getD []
  (s.see th.id (th.heard ++ ks)).modThread th.id fun x => if x.heard.isEmpty then x else { x with heard := [] }

/-- A FENCE by one member (08 R204, R209, 09 R235): an acquire fence holds later accesses behind earlier reads, a release fence
holds later writes behind earlier accesses, a full fence holds later accesses behind earlier accesses and takes its place among the
full fences of its group when these are complete. What a full fence acquires, its release half puts before later writes (R208). -/
def State.fenceOne (s : State) (i : Instr) (o : Order) (th0 : Thread) : Res :=
  if o.agent == 0 then .done s
  else if o.rel && parkedBy th0 o then .stall s
  else
    let (id, s1) := s.newId
    let s2 := if o.acq then s1.acquireHeard th0 else s1
    let th := (s2.thread? th0.id).getD th0
    let reads := (th.ops.filter fun a => (a.op.isLoad && !a.fixed) && covers o a.place).map (·.id)
    let waits := s2.relWaits th o
    let new : List Acq := if o.acq && o.rel then [{ waits := waits ++ reads, upto := o, order := o, at_ := id, fence := id }]
      else if o.acq then [{ waits := reads, upto := { agent := 6 }, order := o, at_ := id }] else []
    let s3 := if o.rel then s2.markVis th.id o.agent else s2
    let deps := if o.rel && o.agent == 1 then s2.deps th o else []
    let s4 := s3.modThread th.id fun x =>
      { x with
        acqs := x.acqs ++ new.filter fun q => q.fence != 0 || !q.waits.isEmpty
        relDeps := x.relDeps ++ deps.filter fun d => !x.relDeps.contains d
        fences := if o.rel then x.fences ++ [{ id := id, pc := th.pc, words := encode i, order := o, waits := waits }]
          else x.fences }
    .done s4.sweep

/-- FENCE: 09 R235. -/
def execFence (x : Memf) (s : State) : Host.Outcome State Fault Refusal :=
  runTeam (.fence x) (fun _ s1 th => s1.fenceOne (.fence x) (memOrder x) th) s

/-- IFENCE: 09 R236. It waits for the store counter, for the thread's stores to perform, for its acquires, and for the writes of
others that come before it. -/
def execIfence (x : Arith) (s : State) : Host.Outcome State Fault Refusal :=
  runTeam (.ifence x) (fun _ s1 th =>
    if th.cnt.stores == 0 && !th.writing && th.acqs.isEmpty && th.saw.all s1.ended then
      .done (s1.modThread th.id fun y => { y with fresh := s1.code.length })
    else .stall s1) s

/-! ### CWB, CINVAL, PREF -/

/-- The address of a line. -/
def lineVa (va : Dword) : Dword := va &&& ~~~127#64

/-- A line of local memory or of the thread's stack whose slice is out of order: no operation on it works (23 R433). -/
def State.lineDead (s : State) (t : Nat) (p : Place) : Bool :=
  match p with
  | .dram pa _ => s.deadLine (lineOf pa)
  | .stack o => s.stackDead t o 1
  | _ => false

/-- The place of a line operation, or its failure. -/
def State.lineAt (s : State) (t : Nat) (va : Dword) (p : Place) : Place :=
  if s.lineDead t p then .failed { cause := .machine } (lineVa va) else p

/-- Translation of a line operation: a read that never requests a page (09 R237), and that waits for a host whose table it reads
(20 R417). -/
def State.linePlace (s : State) (th : Thread) (va : Dword) : State × Place :=
  let sp := s.spaceOf th
  let line := lineVa va
  if (s.silentSite sp va).isSome then
    let (s1, tag) := s.requestPage sp va .read 0
    (s1, .waiting tag)
  else match s.walkFrom va .read th.sup (if sp.five then 5 else 4) sp.root with
  | (.request, ea) =>
    match s.readEntry ea with
    | .ok e => (s, if e.getLsbD 0 then .failed { cause := .prot } line else .nowhere)
    | .error f => (s, .failed f line)
  | (.fail f, _) => (s, .failed f line)
  | (.ok .., _) =>
    match s.walkTable sp va .read th.sup with
    | (s1, .ok e lv) =>
      match s1.physClass e (leafPa e lv va) 1 false (th.unit == .service && th.sup) with
      | .failed f _ => (s1, .failed f line)
      | p => (s1, s1.lineAt th.id va p)
    | (s1, _) => (s1, .nowhere)

/-- A line operation: CWB or CINVAL. A scratchpad address has no effect; the OWNER check is not made. -/
def lineTeam (i : Instr) (x : Memf) (op : MemOp) (s : State) : Host.Outcome State Fault Refusal :=
  memTeam i (fun iss s0 s1 th =>
    let va := s0.memAddr th x
    let q : Ask := { op := op, va := va, size := 1, align := 1, kind := .read }
    let go (s2 : State) (p : Place) : Res :=
      if counterFull op th.cnt || acqHolds th p then .stall s1 else .done (s2.issueAccess th i iss q p none)
    match s1.classify th va 1 1 with
    | .error b => if b.cause == .owner then go s1 .nowhere else .trap s1 b.cause b.addr b.detail
    | .ok (.spad _) => go s1 .nowhere
    | .ok (.stack o) => go s1 (s1.lineAt th.id va (.stack o))
    | .ok .global => match s1.linePlace th va with
      | (s2, p) => go s2 p) s

/-- CWB: 09 R237. -/
def execCwb (x : Memf) (s : State) : Host.Outcome State Fault Refusal :=
  lineTeam (.cwb x) x (.cwb (x.mod8.extractLsb' 0 2).toNat) s

/-- CINVAL: 09 R237. -/
def execCinval (x : Memf) (s : State) : Host.Outcome State Fault Refusal :=
  lineTeam (.cinval x) x (.cinval (x.mod8.extractLsb' 0 2).toNat) s

/-- A line of the caches that a line operation acts on: local memory, host memory or the thread's stack. -/
def lineKey (t : Nat) (p : Place) : Option Nat :=
  match p with
  | .dram pa _ | .host _ pa _ => some (lineOf pa)
  | .stack o => some (lineOf (stackPa t o))
  | _ => none

/-- The effect of a line operation on the caches (09 R237); the levels beyond the home slice are every unit's. -/
def State.lineEffect (s : State) (th : Thread) (a : Access) : State :=
  match lineKey th.id a.place with
  | none => s
  | some l =>
    match a.op, s.cacheCore th with
    | .cwb 1, _ => (s.l1WriteBack l).writeBack l
    | .cinval 2, _ =>
      let s1 := (List.range 16).foldl (fun s c => s.dropL1 c l) s
      State.writeBack { s1 with caches := { s1.caches with slc := s1.caches.slc.filter fun e => e != l } } l
    | .cwb _, some core => if s.caches.l1mod.contains (core / 32, l) then s.l1WriteBack l else s
    | .cinval 0, some core =>
      { s with caches := { s.caches with l0 := s.caches.l0.filter fun e => !(e.1 == core && e.2 == l) } }
    | .cinval _, some core => s.dropL1 (core / 32) l
    | _, _ => s

/-- A line is requested into the caches from a level on: 0 L0, 1 L1, 2 SLC. A unit without caches of its own has the SLC. -/
def State.prefetch (s : State) (core : Option Nat) (level pa cache : Nat) : State :=
  match core with
  | some co => s.cacheRead co pa 1 (if level == 2 && cache == 0 then 1 else cache) (if level == 1 then 2 else 0)
  | none => if cache == 2 then s else s.fillSlc (lineOf pa)

/-- PREF: 09 R238. It brings the line of an address that would not fault into the caches from its level on, and has no other
effect. -/
def execPref (x : Memf) (s : State) : Host.Outcome State Fault Refusal :=
  runTeam (.pref x) (fun s0 s1 th =>
    let va := s0.memAddr th x
    let sp := s1.spaceOf th
    .done (match s1.classify th va 1 1 with
      | .ok .global =>
        if (s1.silentSite sp va).isSome then s1
        else match s1.walkFrom va .read th.sup (if sp.five then 5 else 4) sp.root with
        | (.ok e lv, _) =>
          match s1.physPlace e (leafPa e lv va) 1 false false with
          | .dram pa cache | .host _ pa cache => s1.prefetch (s1.cacheCore th) (x.mod8.extractLsb' 0 2).toNat pa cache
          | _ => s1
        | _ => s1
      | _ => s1)) s

/-! ### Completion -/

/-- The access with an identifier, and its thread. -/
def State.access? (s : State) (id : Nat) : Option (Thread × Access) :=
  s.threads.findSome? fun th => (th.ops.find? fun a => a.id == id).map fun a => (th, a)

/-- Delivers an LDMX span. -/
def Thread.putSpan (th : Thread) (o : Opnd) (n : Nat) (v : Nat) : Thread :=
  match o with
  | .v b => (List.range n).foldl (fun th i => th.setV (b + BitVec.ofNat 8 i) (BitVec.ofNat 32 (v / 2 ^ (32 * i)))) th
  | _ => th

/-- A load delivers its value and completes (01 R28). -/
def State.finishLoad (s : State) (th : Thread) (a : Access) (v : Nat) (f : FFlags) : State :=
  let s1 := match a.op with
    | .ld ty | .atom ty .. => s.deliver th.id a.dst ty.regWidth (BitVec.ofNat 128 v)
    | .ldmx dt n _ _ => s.modThread th.id fun x => x.putSpan a.dst (if dt == 0 then n else n / 2) v
    | .sg kind .. => s.deliver th.id a.dst (if kind == 3 then 64 else 32) (BitVec.ofNat 128 v)
    | _ => s
  State.sweep ((s1.dropAccess th.id a.id).modThread th.id fun x =>
    let y := x.raise f
    { y with cnt := unbump a.op y.cnt })

/-- The bytes of a load become its result. -/
def State.finishRead (s : State) (th : Thread) (a : Access) (bs : List Byte) : State :=
  match a.op with
  | .ld ty => s.finishLoad th a (loadVal ty bs) 0
  | .ldmx dt n fmt scale => let r := ldmxVal dt n fmt scale bs; s.finishLoad th a r.1 r.2
  | _ => s.finishLoad th a (ofBytes bs) 0

/-- Flags of a floating-point atomic go to the launch's sticky flag word (09 R229). -/
def State.stickyFlags (s : State) (th : Thread) (f : FFlags) : State :=
  match s.launchOf th with
  | some l => if f == 0#5 || l.lr.flagWord >>> 2 == 0#64 then s else s.setLaunch { l with flagOrs := l.flagOrs ++ [f] }
  | none => s

/-- An atomic or a reduction executes at its site: the old value and its flags, or a failure (09 R227, R231). -/
def State.rmw (s : State) (th : Thread) (a : Access) (ty : Ty) (op : Nat) (b c : Dword) :
    State × Except (Option Fail) (Nat × FFlags) :=
  match s.readPart th a.place a.size none with
  | (s1, .error f) => (s1, .error f)
  | (s1, .ok bs) =>
    let s2 := s1.learn th a []
    let old := ofBytes bs
    match atomNew ty op old b.toNat c.toNat with
    | none => (s2, .ok (old, 0))
    | some (new, f) => ((s2.performAt th a.place (toBytes a.size new) true a.deps).stickyFlags th f, .ok (old, f))

/-- The access fails at its place (17 R359). -/
def State.failAt (s : State) (th : Thread) (a : Access) (f : Fail) : State :=
  State.sweep ((s.modAccess th.id a.id fun x => { x with place := .failed f a.va }).accessFailed a f)

/-- The part of an access that a step names: its mark, and the offset and length of its bytes. 1 and 2 are the pieces of an access
that takes effect piece by piece, 0 what is left of it that lies outside the module (`far`), or that does not. -/
def halfOf (a : Access) (n : Nat) (far : Bool := false) : Nat × Nat × Nat :=
  let cut := match a.tail with
    | some (m, _) => m
    | none => 8
  let one := (1, 0, cut)
  let two := (2, cut, a.size - cut)
  if !a.apart then (3, 0, a.size)
  else if n == 1 then one else if n == 2 then two
  else if a.half == 1 then two else if a.half == 2 then one
  else if a.split then (3, 0, a.size)
  else if a.place.far == far then one else two

/-- A part of an access as an access of its own. -/
def Access.part (a : Access) (o n : Nat) : Access :=
  if n == a.size then a
  else { a with
    va := a.va + BitVec.ofNat 64 o
    size := n
    place := match a.tail with
      | some (m, q) => if m ≤ o then q.plus (o - m) else a.place.plus o
      | none => a.place.plus o
    tail := none
    op := match a.op with
      | .st d => .st ((d.drop o).take n)
      | op => op }

/-- Bytes put at an offset into those that a load has so far. -/
def putBytes (size : Nat) (old : List Byte) (o : Nat) (bs : List Byte) : List Byte :=
  patch ((old ++ List.replicate size 0).take size) o bs

/-- A part of a load has its bytes. -/
def State.gotPart (s : State) (th : Thread) (a : Access) (h o : Nat) (bs : List Byte) : State :=
  let v := putBytes a.size a.value o bs
  if (a.half ||| h) == 3 then s.finishRead th a v
  else s.modAccess th.id a.id fun x => { x with half := a.half ||| h, value := v }

/-- The host that an access asks for a part of its bytes; a line operation asks none. -/
def Access.hostSite (a : Access) : Option Nat :=
  a.pieces.findSome? fun p => match p.1 with
    | .host site _ _ => some site
    | _ => none

/-- Whether the host of an access that may take effect now lets it: nothing yet, when the step's argument says that it is silent, or
a failure, when its time is over (20 R417). -/
def State.hostLets (s : State) (a : Access) : Except (Option Fail) Unit :=
  match a.hostSite with
  | none => .ok ()
  | some site =>
    if s.timedOut a.born then .error (some (fabricFail 1 3 site)) else if s.arg.detail == some 3 then .error none else .ok ()

/-- The 8-byte words of n bytes from o (07 R192). -/
def wordsOf (o n : Nat) : List Nat := (List.range ((o + n - 1) / 8 + 1 - o / 8)).map (· + o / 8)

/-- Two scratchpad accesses name a common word. -/
def sameWord (a b : Access) : Bool :=
  match a.place, b.place with
  | .spad x, .spad y => (wordsOf x a.size).any (wordsOf y b.size).contains
  | _, _ => false

/-- Accesses of xs that share a word with one of those found so far, and so on. -/
def wordClosure (xs : List Access) : Nat → List Access → List Access
  | 0, found => found
  | fuel + 1, found =>
    wordClosure xs fuel (found ++ xs.filter fun b => !(found.any fun c => c.id == b.id) && found.any (sameWord b))

/-- Scratchpad loads or stores of one issue that are merged with an access: they name its word, or one of theirs, and entered the
queues with it. A merged request is served at one instant (07 R192). -/
def State.merged (s : State) (th : Thread) (a : Access) : List Access :=
  let load (b : Access) : Bool := b.op.isLoad && !b.op.writes && !b.op.isEvent
  let xs := (s.threads.filter fun x => x.group == th.group && x.unit == th.unit).flatMap fun x => x.ops.filter fun b =>
    b.issue == a.issue && b.queued == a.queued && !b.fixed && !b.buffered && load b == load a && b.op.isSt == a.op.isSt
  match a.place with
  | .spad _ => if a.queued == 0 then [a] else byId (wordClosure xs xs.length [a])
  | _ => [a]

/-- The loads merged with one of them take their values; none does unless all may. -/
def State.fixLoads (s : State) : List Access → Option State
  | [] => some s
  | b :: rest =>
    match s.access? b.id with
    | none => none
    | some (x, b) =>
      if !s.mayRead x b then none
      else match s.readAccess x b with
        | (s1, .ok bs) => (s1.modAccess x.id b.id fun y => { y with fixed := true, value := bs }).fixLoads rest
        | _ => none

/-- A load takes the bytes of its part h, or the value that it has already. -/
def State.loadNow (s : State) (th : Thread) (a : Access) : State :=
  let (h, o, n) := halfOf a s.arg.n
  let b := a.part o n
  if a.fixed then s.finishRead th a a.value
  else if !b.place.known || b.place.far || (a.half &&& h) != 0 || !s.mayRead th a then s
  else match s.merged th a with
  | [] | [_] =>
    match s.hostLets b with
    | .error (some f) => s.failAt th a f
    | .error none => s
    | .ok _ =>
      match s.readAccess th b with
      | (s1, .ok bs) => s1.gotPart th a h o bs
      | (s1, .error (some f)) => s1.failAt th a f
      | (s1, .error none) => s1
  | ms =>
    match s.fixLoads ms with
    | none => s
    | some s1 =>
      match s1.access? a.id with
      | some (th1, a1) => s1.finishRead th1 a1 a1.value
      | none => s

/-- An atomic executes at its site. A comparison with exchange whose comparison fails writes nothing: no release half and no release
fence holds it (09 R227, R235). -/
def State.atomNow (s : State) (th : Thread) (a : Access) (ty : Ty) (op : Nat) (b c : Dword) : State :=
  if !s.inTurn th a || a.place.far then s
  else match s.hostLets a with
  | .error (some f) => s.failAt th a f
  | .error none => s
  | .ok _ =>
    if s.mayWrite th a then
      match s.rmw th a ty op b c with
      | (s1, .ok (old, f)) => s1.finishLoad th a old (if a.dst == .zero then 0 else f)
      | (s1, .error (some f)) => s1.failAt th a f
      | (s1, .error none) => s1
    else if op != 7 then s
    else match s.readPart th a.place a.size none with
      | (s1, .ok bs) =>
        if (atomNew ty 7 (ofBytes bs) b.toNat c.toNat).isNone then (s1.learn th a []).finishLoad th a (ofBytes bs) 0
        else match a.uncovered with
          | some f => s.failAt th a f
          | none => s
      | (s1, .error (some f)) => s1.failAt th a f
      | (s1, .error none) => s1

/-- LOAD_COMPLETE: a load, atomic or event takes effect and its destination receives the value (01 R28, 04 R129, 09 R225, R227). A
16-byte load of remote memory takes its halves one by one (08 R211). -/
def execLoadComplete (s : State) : Host.Outcome State Fault Refusal :=
  match s.access? s.arg.a with
  | none => .next s
  | some (th, a) =>
    .next (match a.op with
      | .ld _ | .ldmx .. => s.loadNow th a
      | .atom ty op b c => s.atomNow th a ty op b c
      | .sg .. => if a.fixed then s.finishLoad th a (ofBytes a.value) 0 else s
      | _ => s)

/-- A store performs, or the part of it that the step names. -/
def State.storeNow (s : State) (th : Thread) (a : Access) : State :=
  let (h, o, n) := halfOf a s.arg.n
  if (a.half &&& h) != 0 then s
  else
    let b := a.part o n
    State.sweep ((s.performAt th b.place b.stored false a.deps a.hint).modAccess th.id a.id fun x =>
      { x with half := a.half ||| h, fixed := (a.half ||| h) == 3 })

/-- The stores merged with one of them perform, a higher lane's bytes over a lower one's (07 R193); none does unless all may. -/
def State.storeAll (s : State) : List Access → Option State
  | [] => some s
  | b :: rest =>
    match s.access? b.id with
    | none => none
    | some (x, b) => if s.mayWrite x b then (s.storeNow x b).storeAll rest else none

/-- A write performs at its bank or home slice, or at its host site (08 R206); a 16-byte one at a host half by half (R211). -/
def State.performAccess (s : State) (th : Thread) (a : Access) : State :=
  if a.buffered || a.place.far || !s.inTurn th a then s
  else match s.hostLets a, s.writeFail a.place a.size with
  | .error none, _ => s
  | .error (some f), _ | _, some f => if s.mayWrite th a then s.failAt th a f else s
  | .ok _, none =>
    match a.op with
    | .st _ => (s.storeAll (s.merged th a)).getD s
    | .red ty op b _ =>
      if !s.mayWrite th a then s else
      match s.rmw th a ty op b 0 with
      | (s1, .ok _) => State.sweep (s1.modAccess th.id a.id fun x => { x with fixed := true })
      | (s1, .error (some f)) => s1.failAt th a f
      | (s1, .error none) => s1
    | _ => s

/-- WRITE_PERFORM: a write without a release performs (08 R206). -/
def execWritePerform (s : State) : Host.Outcome State Fault Refusal :=
  match s.access? s.arg.a with
  | some (th, a) => .next (if a.order.rel then s else s.performAccess th a)
  | none => .next s

/-- RELEASE_WRITE_PERFORM: a release write performs once its covered accesses have completed to its scope (08 R204, R205). -/
def execReleaseWritePerform (s : State) : Host.Outcome State Fault Refusal :=
  match s.access? s.arg.a with
  | some (th, a) => .next (if a.order.rel then s.performAccess th a else s)
  | none => .next s

/-- A reduction whose arrival on a slot, or whose fault of it, is still to come (09 R234). -/
def Access.owes (a : Access) (n : Nat) : Bool :=
  a.op.redSlot == some n && (match a.place with
    | .failed f _ => f.cause == .fabric
    | _ => true)

/-- An event of one of the thread's reductions on slot n is still to come: the events of one thread keep its program order
(11 R243). -/
def Thread.owesArrival (th : Thread) (n : Nat) : Bool := th.ops.any fun a => a.owes n

/-- A reduction's event on its slot follows those of its thread's earlier reductions on the slot (11 R243). -/
def arrivesNext (th : Thread) (a : Access) : Bool :=
  match a.op.redSlot with
  | some n => !th.ops.any fun b => b.id < a.id && b.owes n
  | none => true

/-- A store counts as complete: no later access of its thread can observe the old value and it cannot fail (01 R28). A plain or
released store to the scratchpad or local memory may complete before it performs; one to local memory only when no earlier access
holds it, so that a shoot-down never waits for more than its performing (18 R395). -/
def mayComplete (s : State) (th : Thread) (a : Access) : Bool :=
  a.counted && (match a.op with
    | .st _ => a.fixed || (s.waitsDone a && (match a.place with
      | .spad _ => true
      | .dram .. => !s.fenceBlock th a && !ownBlock th a && !s.issueBlock a
      | _ => false))
    | .red .. => a.fixed && arrivesNext th a
    | .cwb _ | .cinval _ => a.place.known || a.place == .nowhere
    | _ => false)

/-- STORE_COMPLETE: the store counter falls; a line operation takes effect, and a reduction sends its arrival
(01 R28, 09 R234, R237). A line whose slice has gone out of order since fails its operation (23 R433). -/
def execStoreComplete (s : State) : Host.Outcome State Fault Refusal :=
  match s.access? s.arg.a with
  | none => .next s
  | some (th, a) =>
    .next (if !mayComplete s th a then s
      else if !a.op.touches && s.lineDead th.id a.place then
        s.modAccess th.id a.id fun x => { x with place := s.lineAt th.id a.va a.place }
      else
      let s1 := s.modThread th.id fun x => { x with cnt := unbump a.op x.cnt }
      let s2 := match a.op with
        | .st _ => s1.modAccess th.id a.id fun x => { x with counted := false }
        | _ => s1.dropAccess th.id a.id
      let s3 := match a.op with
        | .red _ _ _ (some n) => s2.slotEvent th.group n 1 0 0 (some (a.issuer th))
        | .cwb _ | .cinval _ => s2.lineEffect th a
        | _ => s2
      s3.sweep)

/-! ### Failures -/

/-- A reduction that fails on the fabric faults the slot that it names in place of its arrival (09 R234, 20 R417). -/
def State.redLost (s : State) (th : Thread) (a : Access) (f : Fail) : State :=
  match a.op with
  | .red _ _ _ (some n) => if f.cause == .fabric then s.faultSlot th.group n f a.va (some (a.issuer th)) else s
  | _ => s

/-- DEFERRED_FAULT: an access that failed is abandoned, its counter falls and its trap becomes pending (17 R359). A reduction that
failed on the fabric faults its slot, after the events of its thread's earlier reductions (11 R243). -/
def execDeferredFault (s : State) : Host.Outcome State Fault Refusal :=
  match s.access? s.arg.a with
  | none => .next s
  | some (th, a) =>
    match a.place with
    | .failed f at_ =>
      let w := match a.op with
        | .ld ty | .atom ty .. => ty.regWidth
        | .ldmx dt n _ _ => if dt == 0 then 32 * n else 16 * n
        | .sg kind .. => if kind == 3 then 64 else 32
        | _ => 0
      let tr : Trap :=
        { cause := f.cause, pc := a.pc, words := a.words, addr := at_, detail := f.detail, defer := true, order := a.id
          dst := a.dst, wide := w }
      if f.cause == .fabric && !arrivesNext th a then .next s else
      let s1 := s.redLost th a f
      .next (State.sweep ((State.dropAccess { s1 with unacked := s1.unacked.filter fun u => u.2.1 != a.id } th.id a.id).modThread th.id fun x =>
        { x with
          cnt := if a.counted then unbump a.op x.cnt else x.cnt
          pend := if x.exited || x.halted.isSome then x.pend else x.pend ++ [tr] }))
    | _ => .next s

/-- The OR of flags f at a place: an atomic, with the restrictions of one (09 R229, R231, 18 R389); remote memory is asked to
do it (20 R416). -/
def State.orAt (s : State) (l : Nat) (va : Dword) (p : Place) (f : FFlags) : State × Except (Option Fail) Unit :=
  let b : Dword := f.setWidth 64
  let r : Request := .atomic (farPa p) .b32 4 b 0 false
  let o : Owner := .side l 1
  if (s.asked o va r).isSome || (!classTrap (.red .b32 4 b none) p && (remoteDev p).isSome) then
    match s.farAsk o va p r 4 with
    | (s1, .ok _) => (s1, .ok ())
    | (s1, .error e) => (s1, .error e)
  else if classTrap (.red .b32 4 b none) p then (s, .error (some { cause := .prot }))
  else match s.readNear o p 4 with
    | (s1, .ok bs) => s1.writeNear o p (toBytes 4 (ofBytes bs ||| f.toNat))
    | (s1, .error e) => (s1, .error e)

/-- FLAGWORD_OR: one OR of the sticky flag word performs (09 R229). -/
def execFlagwordOr (s : State) : Host.Outcome State Fault Refusal :=
  match s.launch? s.arg.l with
  | none => .next s
  | some l =>
    match l.flagOrs with
    | [] => .next s
    | f :: rest =>
      let va := l.lr.flagWord &&& ~~~3#64
      let drop (s : State) : State := (s.farDrop (.side l.id 1)).modLaunch l.id fun x => { x with flagOrs := rest, flagTag := none }
      let lost (s : State) (f : Fail) : State := (drop s).faultRecord l.id { source := 5, cause := f.cause.code, addr := va }
      match s.translate l.space va .write false with
      | (s1, .request) =>
        let (s2, tag) := s1.requestPage l.space va .write 3
        .next (s2.modLaunch l.id fun x => { x with flagTag := some tag })
      | (s1, .fail e) => .next (lost s1 e)
      | (s1, .ok e lv) =>
        let p := s1.physClass e (leafPa e lv va) 4 true false
        match s1.orAt l.id va (if classTrap (.red .b32 4 0 none) p then p else s1.linked p va 4) f with
        | (s2, .ok _) => .next (drop s2)
        | (s2, .error (some e)) => .next (lost s2 e)
        | (s2, .error none) => .next s2

/-! ### The fabric and the ports (20 R414 to R417) -/

/-- Kind and number of a far destination as a failure names them. -/
def farFail (p : Place) (code : Nat) : Fail :=
  match p with
  | .remote dev _ _ => fabricFail 0 code dev
  | .host site _ _ => fabricFail 1 code site
  | .pcie port _ => fabricFail 2 code port
  | _ => { cause := .fabric }

/-- The end of a request of another agent: its bytes no longer count in the send window, and its owner finds the answer. -/
def State.answerFar (s : State) (id : Nat) (x : Answer) : State :=
  let s1 : State := { s with unacked := s.unacked.filter fun u => u.2.1 != id }
  State.pump { s1 with far := (s1.far.map fun y => if y.id == id then { y with answer := x } else y).filter fun y =>
    !(y.id == id && y.owner.lone) }

/-- A part of a thread's far access has its answer: its bytes no longer count in the send window of their destination. -/
def State.uncount (s : State) (a b : Access) (whole : Bool) : State :=
  { s with unacked := if whole then s.unacked.filter fun u => u.2.1 != a.id
      else match remoteDev b.place with
        | some dev => s.unacked.erase (dev, a.id, b.size)
        | none => s.unacked }

/-- The answer to part n of a thread's far access: data, an acknowledgement or a failure; none counts once its time is over (20 R414,
R416, R417). -/
def State.answerAccess (s : State) (th : Thread) (a : Access) : State :=
  let (h, o, n) := halfOf a s.arg.n true
  let p := a.part o n
  if !p.place.far || !a.sent || a.fixed || (a.half &&& h) != 0 then s
  else if s.timedOut a.born then s.failAt th a (farFail p.place 3)
  else match s.arg.detail with
  | some c => if reportable c then s.failAt th a (farFail p.place c.toNat) else s
  | none =>
      let s1 := s.uncount a p (h == 3)
      let bs := (s.arg.data ++ List.replicate n 0).take n
      match a.op with
      | .ld _ | .ldmx .. =>
        let full := a.bufs.foldl (fun bs (x, d) => overlay bs (farPa p.place) d x) bs
        s1.gotPart th a h o full
      | .atom .. => (s1.stickyFlags th s.arg.flags).finishLoad th a (ofBytes bs) (if a.dst == .zero then 0 else s.arg.flags)
      | _ =>
        let s2 := if a.op.isSt then s1 else s1.stickyFlags th s.arg.flags
        State.sweep (s2.modAccess th.id a.id fun x => { x with half := a.half ||| h, fixed := (a.half ||| h) == 3 })

/-- SEND_WINDOW_ROOM: a team that stalled for a send window issues again when it has room (20 R415). -/
def execSendWindowRoom (s : State) : Host.Outcome State Fault Refusal :=
  .next (State.pump (s.mapThreads fun x =>
    match x.hold with
    | .window d => if s.outTo d < s.sendLimit d then { x with hold := .none } else x
    | _ => x))

/-- The destination outside the module that an access waits for: a far piece without an answer, or a host that may answer now. -/
def State.awaited (s : State) (th : Thread) (a : Access) : Option Place :=
  let (h, o, n) := halfOf a 0 true
  let p := (a.part o n).place
  if a.fixed then none
  else if p.far then (if a.sent && (a.half &&& h) == 0 then some p else none)
  else if if a.op.writes then s.mayWrite th a else s.mayRead th a then a.hostSite.map fun site => .host site 0 0
  else none

/-- Every access and request to the devices named that has no answer yet fails (20 R417). -/
def State.loseFar (s : State) (lost : Nat → Bool) : State :=
  let gone (p : Place) : Bool := match remoteDev p with
    | some dev => lost dev
    | none => false
  let s1 := s.threads.foldl (fun s x => x.ops.foldl (fun s a =>
    match (a.pieces.find? fun p => gone p.1), a.fixed with
    | some p, false => s.failAt x a (farFail p.1 4)
    | _, _ => s) s) s
  s1.far.foldl (fun s x => if gone x.place && x.answer == .none then s.answerFar x.id (.fail (farFail x.place 4)) else s) s1

/-- FABRIC_PATH_LOSS: every path to a device is lost; accesses to it fail, now and later (20 R417). -/
def execFabricPathLoss (s : State) : Host.Outcome State Fault Refusal :=
  let dev := s.arg.n
  .next (State.loseFar { s with lostPaths := if s.lostPaths.contains dev then s.lostPaths else s.lostPaths ++ [dev] } (· == dev))

end Sys2Proof.Machine
end

