-- ==== Sys2Proof/Machine/Params.lean ====
section
/-! DEFINITION. The parameter block of MMA (13 R294 to R299) and the geometry of a harness (12 R271, R273). -/

namespace Sys2Proof.Machine

/-- The fields of a parameter block. -/
structure Params where
  ta : Option Ty
  tb : Option Ty
  sca : Nat
  scb : Nat
  group : Nat
  flags : Nat
  m : Nat
  accRow : Nat
  frame : Nat
  k : Nat
  aStr : Nat
  saExt : Nat
  sbExt : Nat
  saStr : Nat
  sbStr : Nat
  aAddr : Dword
  saAddr : Dword
  sbAddr : Dword
  deriving DecidableEq, Repr

def tyAt (b : List Byte) (o : Nat) : Option Ty := if field b o 1 < 32 then Ty.ofCode (BitVec.ofNat 5 (field b o 1)) else none

def parseParams (b : List Byte) : Params :=
  { ta := tyAt b 0x0C, tb := tyAt b 0x0D, sca := field b 0x0E 1, scb := field b 0x0F 1, group := field b 0x10 1
    flags := field b 0x11 1, m := field b 0x12 1, accRow := field b 0x14 2, frame := field b 0x16 2, k := field b 0x18 4
    aStr := field b 0x1C 4, saExt := field b 0x20 2, sbExt := field b 0x22 2, saStr := field b 0x24 2, sbStr := field b 0x26 2
    aAddr := dword b 0x28, saAddr := dword b 0x30, sbAddr := dword b 0x38 }

def Params.sparse (p : Params) : Bool := p.flags.testBit 2
def Params.isat (p : Params) : Bool := p.flags.testBit 1
def Params.acci (p : Params) : Bool := p.flags.testBit 0
def Params.fa (p : Params) : Ty := p.ta.getD .b8
def Params.fb (p : Params) : Ty := p.tb.getD .b8

/-- Dense k of one cell and cycle (12 R271). -/
def cellK (ty : Ty) : Nat :=
  match ty with
  | .e2m1 | .i4 => 64
  | .f16 | .bf16 => 16
  | .tf32 => 8
  | _ => 32

/-- Kc: a core's k in one pass (12 R271). -/
def Params.kc (p : Params) : Nat := (if p.sparse then 16 else 8) * min (cellK p.fa) (cellK p.fb)

/-- L: elements of a block (13 R297). -/
def Params.l (p : Params) : Nat := if p.sca == 1 || p.scb == 1 then 32 else 32 * 2 ^ p.group

/-- Number of passes at a depth. -/
def Params.passes (p : Params) (dp : Nat) : Nat := p.k / (p.kc * dp)

/-- Bytes of a scale of a mode. -/
def scaleSize (mode : Nat) : Nat := if mode == 1 then 1 else 4

/-- Offsets from AADDR, with the length, of the slices that depth z reads (13 R301 step 5). -/
def Params.aSlices (p : Params) (dp z : Nat) : List (Nat × Nat) :=
  (List.range p.m).flatMap fun m => (List.range (p.passes dp)).map fun i =>
    (m * p.aStr + (i * p.kc * dp + z * p.kc) * p.fa.width / 8, p.kc * p.fa.width / 8)

/-- Offsets of A's scales from SAADDR, row by row, and of B's from SBADDR, column by column. -/
def Params.saSlices (p : Params) : List (Nat × Nat) :=
  if p.sca == 0 then [] else (List.range p.m).map fun m => (m * p.saStr, p.saExt * scaleSize p.sca)
def Params.sbSlices (p : Params) : List (Nat × Nat) :=
  if p.scb == 0 then [] else (List.range 16).map fun c => (c * p.sbStr, p.sbExt * scaleSize p.scb)

/-- The ranges that the group at (x, z) supplies, each with its handle (13 R299). -/
def Params.supplied (p : Params) (dp x z : Nat) : List (Dword × Nat × Nat) :=
  (if x == 0 then (p.aSlices dp z).map fun r => (p.aAddr, r.1, r.2) else [])
    ++ (if x == 0 && z == 0 then p.saSlices.map fun r => (p.saAddr, r.1, r.2) else [])
    ++ (if z == 0 then p.sbSlices.map fun r => (p.sbAddr, r.1, r.2) else [])

end Sys2Proof.Machine
end

