-- ==== Sys2Proof/Machine/Slots.lean ====
section
/-! DEFINITION. Slot instructions (11 R251 to R255), block ownership (R262 to R264) and tile queues (R266 to R269). -/

namespace Sys2Proof.Machine

/-! ### Operands of the descriptor form -/

def State.dst32 (s : State) (th : Thread) (x : Desc) : Word := s.raw32 th x.toOps4 x.d
def State.a32 (s : State) (th : Thread) (x : Desc) : Word := s.raw32 th x.toOps4 x.a
def State.b32 (s : State) (th : Thread) (x : Desc) : Word := s.raw32 th x.toOps4 x.b
def State.a64 (s : State) (th : Thread) (x : Desc) : Dword := s.raw64 th x.toOps4 x.a
def State.b64 (s : State) (th : Thread) (x : Desc) : Dword := s.raw64 th x.toOps4 x.b

/-- The predicate field in the low bits of word 2. -/
def descPd (x : Desc) : BitVec 3 := x.fld 0 3

/-- Writes a predicate of a thread. -/
def State.putPred (s : State) (t : Nat) (n : BitVec 3) (b : Bool) : State := s.modThread t fun x => x.setPred n b

/-- The issuer that a record names for the instruction at a thread's PC. -/
def issuerOf (th : Thread) (i : Instr) : Issuer := { thread := th.id, pc := th.pc, words := encode i }

/-- SLOT for a slot number (11 R251). -/
def State.slotOk (s : State) (th : Thread) (n : Word) : Bool := n.toNat < s.slotCount th

/-- DETAIL of SLOT for a mask: the lowest bit at or beyond SLOTS, 64 for a mask of zero; none for a good mask. -/
def maskBad (slots : Nat) (m : Dword) : Option Nat :=
  if m == 0#64 then some 64 else (List.range 64).find? fun b => slots ≤ b && m.getLsbD b

def State.slotAt (s : State) (th : Thread) (n : Nat) : Slot := (((s.group? th.group).bind fun g => g.slots[n]?)).getD {}

/-- Slots of a thread's group, as masks. -/
def State.slotMask (s : State) (th : Thread) (f : Slot → Bool) : Dword :=
  match s.group? th.group with
  | some g => slotBits g.slots f
  | none => 0

/-! ### Arming (11 R252) -/

/-- The scope of the release that an event of a thread on a slot is: device scope when it may insert a continuation (08 R213), else
group scope (11 R252). -/
def Slot.scope (sl : Slot) : Nat := if sl.cont.isSome then 4 else 1

/-- One member's SLOTARM. -/
def slotarmOne (i : Instr) (n a b : Word) (s : State) (th : Thread) : Res :=
  let sl := s.slotAt th n.toNat
  if !s.slotOk th n then .trap s .slot 0 n
  else if a.toNat < 1 || 65535 < a.toNat || 2 ^ 27 - 1 < b.toNat then .trap s .range 0 0
  else if sl.armed && sl.target != a.setWidth 16 then .trap s .slot 0 n
  else if th.owesArrival n.toNat then .stall s
  else s.afterRelease th sl.scope (.done (
    let s0 := s.leave th (256 + n.toNat)
    let s1 := if sl.armed then s0 else s0.modSlot th.group n.toNat fun y =>
      { y with armed := true, target := a.setWidth 16, remain := a.setWidth 16 }
    s1.slotEvent th.group n.toNat 0 b.toNat 0 (some (issuerOf th i))))

/-- SLOTARM: 11 R252. -/
def execSlotarm (x : Desc) (s : State) : Host.Outcome State Fault Refusal :=
  runTeam (.slotarm x) (fun s0 s1 th => slotarmOne (.slotarm x) (s0.dst32 th x) (s0.a32 th x) (s0.b32 th x) s1 th) s

/-- SARRIVE: 11 R252. -/
def execSarrive (x : Desc) (s : State) : Host.Outcome State Fault Refusal :=
  runTeam (.sarrive x) (fun s0 s1 th =>
    let n := s0.dst32 th x
    let a := s0.a32 th x
    if !s1.slotOk th n then .trap s1 .slot 0 n
    else if 2 ^ 27 - 1 < a.toNat then .trap s1 .range 0 0
    else if th.owesArrival n.toNat then .stall s1
    else s1.afterRelease th (s1.slotAt th n.toNat).scope (.done ((s1.leave th (256 + n.toNat)).slotEvent th.group n.toNat 1 a.toNat 0 (some (issuerOf th (.sarrive x)))))) s

/-! ### Waiting (11 R253) -/

/-- One member's SACQ. Its event, like that of ONDONE, comes after those that its thread's earlier reductions owe the slot (R243). -/
def sacqOne (i : Instr) (n : Word) (pd : BitVec 3) (s : State) (th : Thread) : Res :=
  let sl := s.slotAt th n.toNat
  if !s.slotOk th n then .trap s .slot 0 n
  else if th.owesArrival n.toNat then .stall s
  else if sl.fault then .done (s.putPred th.id pd false)
  else if sl.ready && (s.firstSacq th.group n.toNat).isNone then
    .done ((((s.modSlot th.group n.toNat fun y => { y with ready := false }).putPred th.id pd true).meet th (256 + n.toNat)).settle
      th.group n.toNat 65)
  else .stall (s.holdAt th.id i (.sacq n.toNat pd.toNat))

/-- SACQ: 11 R253. -/
def execSacq (x : Desc) (s : State) : Host.Outcome State Fault Refusal :=
  runTeam (.sacq x) (fun s0 s1 th => sacqOne (.sacq x) (s0.dst32 th x) (descPd x) s1 th) s

/-- One member's SWAIT. -/
def swaitOne (i : Instr) (m : Dword) (all : Bool) (pd : BitVec 3) (d : Opnd) (s : State) (th : Thread) : Res :=
  match maskBad (s.slotCount th) m with
  | some n => .trap s .slot 0 (BitVec.ofNat 32 n)
  | none =>
    let rdy := m &&& s.slotMask th (·.ready)
    let flt := m &&& s.slotMask th (·.fault)
    if flt != 0#64 || (if all then rdy == m else rdy != 0#64) then
      let s1 := (s.result th.id d 64 (rdy.setWidth 128)).putPred th.id pd (flt == 0#64)
      .done (if flt == 0#64 then s1.meetSlots th rdy else s1)
    else .stall (s.holdAt th.id i (.swait m all pd.toNat d))

/-- SWAIT: 11 R253. -/
def execSwait (x : Desc) (s : State) : Host.Outcome State Fault Refusal :=
  runTeam (.swait x) (fun s0 s1 th => swaitOne (.swait x) (s0.a64 th x) (!x.w2.getLsbD 3) (descPd x) x.d s1 th) s

/-- SFIRST: 11 R253. -/
def execSfirst (x : Desc) (s : State) : Host.Outcome State Fault Refusal :=
  runTeam (.sfirst x) (fun s0 s1 th =>
    let m := s0.a64 th x
    match maskBad (s1.slotCount th) m with
    | some n => .trap s1 .slot 0 (BitVec.ofNat 32 n)
    | none =>
      let r := m &&& s1.slotMask th fun y => y.ready && !y.fault
      let n := (List.range 64).find? fun b => r.getLsbD b
      let s2 := (s1.result th.id x.d 32 (BitVec.ofNat 128 (n.getD 64))).putPred th.id (descPd x) n.isSome
      .done (match n with
        | some n => s2.meet th (256 + n)
        | none => s2)) s

/-! ### SRESET (11 R254), ONDONE (R255) -/

/-- A command or a reduction of the group that names the slot has not retired; a member that waits for its gang is such a command
(13 R302). -/
def State.slotNamed (s : State) (gid n : Nat) : Bool :=
  (match s.group? gid with
    | some g => g.cmds.any fun c => c.slot == some n
    | none => false)
    || s.threads.any fun x => x.unit == .device && x.group == gid && ((match x.hold with
      | .mma _ slot => slot == some n
      | _ => false)
      || x.ops.any fun a => match a.op with
      | .red _ _ _ slot => slot == some n
      | _ => false)

/-- Waiters on a slot are released with failure. -/
def State.failWaiters (s : State) (gid n : Nat) : State :=
  (s.live gid).foldl (fun s th =>
    match th.hold with
    | .sacq m pd => if m == n then s.modThread th.id fun y => (y.setPred (BitVec.ofNat 3 pd) false).release else s
    | .swait mask _ pd d =>
      if mask.getLsbD n then
        (s.result th.id d 64 ((mask &&& s.slotMask th (·.ready)).setWidth 128)).modThread th.id fun y =>
          (y.setPred (BitVec.ofNat 3 pd) false).release
      else s
    | _ => s) s

/-- A slot returns to its Reset state. -/
def State.resetSlot (s : State) (gid n : Nat) : State := (s.modSlot gid n fun _ => {}).failWaiters gid n

/-- SRESET: 11 R254. -/
def execSreset (x : Desc) (s : State) : Host.Outcome State Fault Refusal :=
  runTeam (.sreset x) (fun s0 s1 th =>
    let n := s0.dst32 th x
    if !s1.slotOk th n then .trap s1 .slot 0 n
    else if s1.slotNamed th.group n.toNat then .stall (s1.holdAt th.id (.sreset x) (.sreset n.toNat))
    else .done (s1.resetSlot th.group n.toNat)) s

/-- SRESET_DONE: the last command that names the slot has retired (11 R254). -/
def execSresetDone (s : State) : Host.Outcome State Fault Refusal :=
  match s.thread? s.arg.t with
  | none => .next s
  | some th =>
    match th.hold with
    | .sreset n =>
      .next (if s.slotNamed th.group n then s else (s.resetSlot th.group n).modThread th.id fun y => y.release)
    | _ => .next s

/-- ONDONE: 11 R255. On a slot that is ready it inserts the continuation, as a release at device scope (08 R213, 11 R246). -/
def execOndone (x : Desc) (s : State) : Host.Outcome State Fault Refusal :=
  runTeam (.ondone x) (fun s0 s1 th =>
    let n := s0.dst32 th x
    let entry := s0.a64 th x
    if !s1.slotOk th n then .trap s1 .slot 0 n
    else
      let (s2, r) := s1.spawnCheck th entry
      r.res s2 th (.ondone x) fun _ =>
        if th.owesArrival n.toNat then .stall s2 else
        let sl := s2.slotAt th n.toNat
        let go : Res := .done (s2.registerCont th.group n.toNat { entry := entry, arg := s0.b64 th x })
        if sl.cont.isSome || sl.fault then .trap s2 .slot 0 n
        else if sl.ready then s2.afterRelease th 4 go else go) s

/-! ### Ownership (11 R262 to R264) -/

/-- The operand checks of GIVE: the blocks named, or the trap. -/
def State.blocksAt (s : State) (th : Thread) (a : Dword) (n : Word) : Except Bad (List Nat) :=
  if a.toNat % 1024 != 0 then .error { cause := .misalign, addr := a }
  else if !canonical (s.spaceOf th) a || !inWindow s.img.spBase a then .error { cause := .range, addr := a }
  else
    let o := (a - s.img.spBase).toNat
    if n.toNat < 1 || 512 < n.toNat then .error { cause := .range }
    else if s.scratch th < o + 1024 * n.toNat then .error { cause := .range, addr := a }
    else .ok ((List.range n.toNat).map (· + o / 1024))

/-- Inserts a block number into a rising list. -/
def insertNat (n : Nat) : List Nat → List Nat
  | [] => [n]
  | x :: xs => if n < x then n :: x :: xs else if n == x then x :: xs else x :: insertNat n xs

/-- GIVE: 11 R263. It is a release of the scratchpad at group scope (08 R213). -/
def execGive (x : Desc) (s : State) : Host.Outcome State Fault Refusal :=
  runTeam (.give x) (fun s0 s1 th =>
    match s1.blocksAt th (s0.a64 th x) (s0.b32 th x) with
    | .error b => .trap s1 b.cause b.addr b.detail
    | .ok bs =>
      s1.afterRelease th 1 (.done (s1.modGroup th.group fun g =>
        { g with engine := (bs.filter fun b => !g.taking.contains b).foldl (fun e b => insertNat b e) g.engine })) (store := 1)) s

/-- Bytes of an address range that a command's data occupy in the scratchpad. -/
def spadRange (base : Dword) (a : Dword) (n : Nat) : List (Nat × Nat) :=
  if inWindow base a then [((a - base).toNat, n)] else []

/-- Storage that a command touches: class (0 scratchpad, 1 accumulator window, 2 A window), first byte, length, written. -/
structure Touch where
  cls : Nat
  off : Nat
  len : Nat
  wr : Bool
  deriving DecidableEq, Repr

def touchRange (cls : Nat) (wr : Bool) (rs : List (Nat × Nat)) : List Touch :=
  rs.map fun r => { cls := cls, off := r.1, len := r.2, wr := wr }

/-- Bytes of a shape record's box (11 R261). -/
def boxElems (r : List Byte) : Nat := ((List.range 5).map fun d => field r (0x0B + d) 1 + 1).foldl (· * ·) 1
def boxTy (r : List Byte) : Ty := (Ty.ofCode (BitVec.ofNat 5 (field r 8 1))).getD .b8
def boxBytes (r : List Byte) : Nat := boxElems r * (boxTy r).width / 8

/-- Row bytes of an ACCST format (13 R311). -/
def accstDt (w2 : Word) : Ty := (Ty.ofCode (w2.extractLsb' 8 5)).getD .b32
def accstRow (w2 : Word) : Nat := 16 * (accstDt w2).width / 8
def accstPitch (w2 : Word) : Nat := if w2.extractLsb' 16 16 == 0#16 then accstRow w2 else (w2.extractLsb' 16 16).toNat
def accstGroup (w2 : Word) : Nat := 32 * 2 ^ (w2.extractLsb' 4 2).toNat

/-- Scale bytes that an ACCST of n rows writes. -/
def accstScales (n : Nat) (w2 : Word) : Nat :=
  if w2.getLsbD 1 then 16 * (n / 32)
  else if Ty.isInt (accstDt w2) then 64 * (n / accstGroup w2)
  else 0

/-- From A to the last byte that an ACCST writes (13 R311). -/
def accstLen (n : Nat) (w2 : Word) : Nat :=
  if accstScales n w2 == 0 then (n - 1) * accstPitch w2 + accstRow w2 else n * accstPitch w2 + accstScales n w2

/-- Scratchpad and window bytes of a command (11 R265); those of a grid operation are the ranges its group supplies
and, on an accumulating core, its accumulator rows. -/
def Cmd.touches (base : Dword) (c : Cmd) : List Touch :=
  match c.kind with
  | .copy dst src n => touchRange 0 true (spadRange base dst n) ++ touchRange 0 false (spadRange base src n)
  | .copyt load a r _ => [{ cls := 0, off := a, len := boxBytes r, wr := load }]
  | .bload _ sp _ src spad _ => if spad then [{ cls := 0, off := src.toNat, len := if sp then 8192 else 4096, wr := false }] else []
  | .grid _ b dp x z =>
    let p := parseParams b
    touchRange 0 false ((p.supplied dp x z).filterMap fun r => if r.1.getLsbD 0 then none else some (r.1.toNat + r.2.1, r.2.2))
      ++ (if z + 1 == dp then [{ cls := 1, off := 64 * p.accRow, len := 64 * p.m, wr := true }] else [])
  | .accz r0 n => [{ cls := 1, off := 64 * r0, len := 64 * n, wr := true }]
  | .accld a r0 n => [{ cls := 0, off := a, len := 64 * n, wr := false }, { cls := 1, off := 64 * r0, len := 64 * n, wr := true }]
  | .accst a r0 n w2 =>
    [{ cls := 0, off := a, len := accstLen n w2, wr := true }, { cls := 1, off := 64 * r0, len := 64 * n, wr := false }]

/-- Targets a window: a tile command other than BLOAD. -/
def Cmd.window (c : Cmd) : Bool :=
  match c.kind with
  | .grid .. | .accz .. | .accld .. | .accst .. => true
  | _ => false

/-- Touches one of the blocks. -/
def Cmd.inBlocks (base : Dword) (blocks : List Nat) (c : Cmd) : Bool :=
  (c.touches base).any fun t => t.cls == 0 && blocks.any fun b => meets t.off t.len (1024 * b) 1024

/-- A TAKE whose commands have retired: the blocks flip (11 R264). -/
def State.takeFlip (s : State) (gid : Nat) (blocks : List Nat) : State :=
  s.modGroup gid fun g =>
    { g with
      engine := g.engine.filter fun b => !blocks.contains b
      taking := g.taking.filter fun b => !blocks.contains b }

/-- Commands of a group that meet a test, those of members that wait for their gang among them: such a member is a command with the
number at which it began to wait (13 R302). -/
def State.cmdsWhere (s : State) (gid : Nat) (f : Cmd → Bool) : List Nat :=
  match s.group? gid with
  | none => []
  | some g =>
    let h := g.hitched.getD { w := 0, dp := 0 }
    let member (x : Thread) : Option Cmd := match x.hold with
      | .mma block slot => some
          { id := x.holdSeq, thread := x.id, pc := x.pc, words := x.holdWords, slot := slot
            kind := .grid 0 block (2 ^ h.dp) (g.idx % 2 ^ h.w) (g.idx / 2 ^ h.w) }
      | _ => none
    ((g.cmds ++ (s.live gid).filterMap member).filter f).map (·.id)

/-- Commands that other TAKEs of a group wait for, of those that share a block. -/
def State.otherTakes (s : State) (gid : Nat) (blocks : List Nat) : List Nat :=
  (s.live gid).flatMap fun x => match x.hold with
    | .take bs cmds => if bs.any blocks.contains then cmds else []
    | _ => []

/-- TAKE of blocks by one member. A block that another TAKE has made taking is left to that one. -/
def takeOne (i : Instr) (bs : List Nat) (s : State) (th : Thread) : Res :=
  match s.group? th.group with
  | none => .done s
  | some g =>
    let named := bs.filter g.engine.contains
    let mine := named.filter fun b => !g.taking.contains b
    let cmds := s.cmdsWhere th.group (Cmd.inBlocks s.img.spBase named)
      ++ s.otherTakes th.group (named.filter g.taking.contains)
    if cmds.isEmpty then .done (s.takeFlip th.group mine)
    else .stall ((s.modGroup th.group fun g => { g with taking := mine.foldl (fun e b => insertNat b e) g.taking }).holdAt th.id i
      (.take mine cmds))

/-- TAKE: 11 R264. -/
def execTake (x : Desc) (s : State) : Host.Outcome State Fault Refusal :=
  runTeam (.take x) (fun s0 s1 th =>
    if x.w2.getLsbD 0 then
      let cmds := s1.cmdsWhere th.group Cmd.window
      if cmds.isEmpty then .done s1 else .stall (s1.holdAt th.id (.take x) (.takeWin cmds))
    else match s1.blocksAt th (s0.a64 th x) (s0.b32 th x) with
      | .error b => .trap s1 b.cause b.addr b.detail
      | .ok bs => takeOne (.take x) bs s1 th) s

/-- None of the commands is unretired. -/
def State.retired (s : State) (gid : Nat) (cmds : List Nat) : Bool := (s.cmdsWhere gid fun c => cmds.contains c.id).isEmpty

/-- TAKE_DONE: the commands that a TAKE waits for have retired; TAKEs of its group that wait for retired commands return with it
(11 R264). -/
def execTakeDone (s : State) : Host.Outcome State Fault Refusal :=
  match s.thread? s.arg.t with
  | none => .next s
  | some th =>
    match th.hold with
    | .take _ cmds =>
      .next (if s.retired th.group cmds then
        (s.live th.group).foldl (fun s x => match x.hold with
          | .take blocks cs => if s.retired th.group cs then (s.takeFlip th.group blocks).modThread x.id fun y => y.release else s
          | _ => s) s
      else s)
    | .takeWin cmds => .next (if s.retired th.group cmds then s.modThread th.id fun y => y.release else s)
    | _ => .next s

/-! ### Tile queues (11 R266 to R269) -/

/-- The queue number in the low bits of word 2. -/
def descQueue (x : Desc) : Nat := (x.fld 0 3).toNat

def State.queueAt (s : State) (gid q : Nat) : TQueue := (((s.group? gid).bind fun g => g.queues[q]?)).getD {}

def State.modQueue (s : State) (gid q : Nat) (f : TQueue → TQueue) : State :=
  s.modGroup gid fun g => { g with queues := g.queues.modify q f }

/-- QINIT: 11 R267. B's limit comes before the OWNER check of the ring (log 67). -/
def execQinit (x : Desc) (s : State) : Host.Outcome State Fault Refusal :=
  runTeam (.qinit x) (fun s0 s1 th =>
    let a := s0.a64 th x
    let n := (s0.b32 th x).toNat
    if a.toNat % 8 != 0 then .trap s1 .misalign a 0
    else if !canonical (s1.spaceOf th) a || !inWindow s1.img.spBase a then .trap s1 .range a 0
    else
      let o := (a - s1.img.spBase).toNat
      if n < 1 || 4096 < n then .trap s1 .range 0 0
      else if s1.scratch th < o + 8 * n then .trap s1 .range a 0
      else match s1.ownerTrap th o (8 * n) false with
        | some b => .trap s1 b.cause b.addr b.detail
        | none => .done (s1.modQueue th.group (descQueue x) fun _ => { init := true, cap := n, head := 0, count := 0, ring := o })) s

/-- A push takes place: its entry is checked for OWNER. It is a release at group scope (11 R269). -/
def State.pushNow (s : State) (th : Thread) (q : Nat) (v : Dword) : State × Option Bad :=
  let t := s.queueAt th.group q
  let o := t.ring + 8 * ((t.head + t.count) % t.cap)
  match s.ownerTrap th o 8 false with
  | some b => (s, some b)
  | none =>
    (((s.leave th (320 + q)).modGroup th.group fun g => { g with spad := g.spad.store o (toBytes 8 v.toNat) }).modQueue th.group q fun t =>
      { t with count := t.count + 1 }, none)

/-- A pop takes place: the acquire side of the push (11 R269). -/
def State.popNow (s : State) (th : Thread) (q : Nat) (d : Opnd) : State × Option Bad :=
  let t := s.queueAt th.group q
  let o := t.ring + 8 * t.head
  match s.ownerTrap th o 8 false with
  | some b => (s, some b)
  | none =>
    let v := ofBytes ((((s.group? th.group).map fun g => g.spad.load o 8)).getD [])
    (((s.meet th (320 + q)).modQueue th.group q fun t => { t with head := (t.head + 1) % t.cap, count := t.count - 1 }).result th.id d 64
      (BitVec.ofNat 128 v), none)

/-- The thread that has waited longest to push (true) or to pop on a queue. -/
def State.firstWaiter (s : State) (gid q : Nat) (push : Bool) : Option Thread :=
  (s.live gid).foldl (fun best th =>
    let mine := match th.hold with
      | .qpush n _ => push && n == q
      | .qpop n _ => !push && n == q
      | _ => false
    if !mine then best
    else match best with
      | some b => if th.holdSeq < b.holdSeq then some th else best
      | none => some th) none

/-- A push would wait: the queue is full, or an earlier push waits. -/
def State.pushWaits (s : State) (gid q : Nat) : Bool :=
  let t := s.queueAt gid q
  t.count == t.cap || (s.firstWaiter gid q true).isSome

def State.popWaits (s : State) (gid q : Nat) : Bool :=
  (s.queueAt gid q).count == 0 || (s.firstWaiter gid q false).isSome

/-- The outcome of a queue access for the member at the instruction. -/
def queueRes (r : State × Option Bad) : Res :=
  match r with
  | (s, none) => .done s
  | (s, some b) => .trap s b.cause b.addr b.detail

/-- A fence or an acquire of the thread holds its accesses to the ring (08 R204, R209). -/
def State.ringHeld (s : State) (th : Thread) (push : Bool) : Bool :=
  (th.acqs.any fun q => q.all || covers q.order (.spad 0))
    || (push && th.fences.any fun f => covers f.order (.spad 0) && !f.waits.all (s.doneTo f.order))

/-- QPUSH: 11 R268. A push is a release at group scope (R269). -/
def execQpush (x : Desc) (s : State) : Host.Outcome State Fault Refusal :=
  runTeam (.qpush x) (fun s0 s1 th =>
    if !(s1.queueAt th.group (descQueue x)).init then .trap s1 .desc 0 0
    else if s1.ringHeld th true then .stall s1
    else s1.afterRelease th 1 (
      if s1.pushWaits th.group (descQueue x) then
        .stall (s1.holdAt th.id (.qpush x) (.qpush (descQueue x) (s0.a64 th x)))
      else queueRes (s1.pushNow th (descQueue x) (s0.a64 th x)))) s

/-- QPOP: 11 R268. Its read of the ring follows the thread's earlier writes (01 R25). -/
def execQpop (x : Desc) (s : State) : Host.Outcome State Fault Refusal :=
  runTeam (.qpop x) (fun _ s1 th =>
    if !(s1.queueAt th.group (descQueue x)).init then .trap s1 .desc 0 0
    else if th.writing || s1.ringHeld th false then .stall s1
    else if s1.popWaits th.group (descQueue x) then .stall (s1.holdAt th.id (.qpop x) (.qpop (descQueue x) x.d))
    else queueRes (s1.popNow th (descQueue x) x.d)) s

/-- QTRY.push: 11 R268. -/
def execQtryPush (x : Desc) (s : State) : Host.Outcome State Fault Refusal :=
  runTeam (.qtryPush x) (fun s0 s1 th =>
    let pd : BitVec 3 := x.fld 4 3
    if !(s1.queueAt th.group (descQueue x)).init then .trap s1 .desc 0 0
    else if s1.pushWaits th.group (descQueue x) then .done (s1.putPred th.id pd false)
    else if s1.ringHeld th true then .stall s1
    else s1.afterRelease th 1 (
      let (s2, b) := s1.pushNow th (descQueue x) (s0.a64 th x)
      queueRes (if b.isNone then s2.putPred th.id pd true else s2, b))) s

/-- QTRY.pop: 11 R268. -/
def execQtryPop (x : Desc) (s : State) : Host.Outcome State Fault Refusal :=
  runTeam (.qtryPop x) (fun _ s1 th =>
    let pd : BitVec 3 := x.fld 4 3
    if !(s1.queueAt th.group (descQueue x)).init then .trap s1 .desc 0 0
    else if th.writing || s1.ringHeld th false then .stall s1
    else if s1.popWaits th.group (descQueue x) then .done (s1.putPred th.id pd false)
    else
      let (s2, b) := s1.popNow th (descQueue x) x.d
      queueRes (if b.isNone then s2.putPred th.id pd true else s2, b)) s

/-- A held thread traps at its instruction. -/
def State.trapHeld (s : State) (th : Thread) (c : Cause) (addr : Dword) (detail : Word) : State :=
  s.trapSoon th th.holdWords c addr detail

/-- The thread that is served next on a queue: of the longest waiting push, when there is room, and the longest waiting pop, when
there is an entry, the one that began to wait first (11 R268). -/
def State.nextServed (s : State) (gid q : Nat) : Option Thread :=
  let t := s.queueAt gid q
  let push := if t.init && t.count < t.cap then s.firstWaiter gid q true else none
  let pop := if t.init && 0 < t.count then s.firstWaiter gid q false else none
  match push, pop with
  | some a, some b => some (if a.holdSeq < b.holdSeq then a else b)
  | some a, none => some a
  | none, b => b

/-- QUEUE_WAIT_SERVED: the next push or pop that waits on queue n of group g takes place (11 R268). -/
def execQueueWaitServed (s : State) : Host.Outcome State Fault Refusal :=
  let q := s.arg.n
  let fin (th : Thread) (r : State × Option Bad) : State :=
    match r with
    | (s1, none) => s1.modThread th.id fun y => y.release
    | (s1, some b) => s1.trapHeld th b.cause b.addr b.detail
  match s.nextServed s.arg.g q with
  | none => .next s
  | some th =>
    match th.hold with
    | .qpush _ v => .next (fin th (s.pushNow th q v))
    | .qpop _ d => .next (fin th (s.popNow th q d))
    | _ => .next s

end Sys2Proof.Machine
end

