-- ==== Sys2Proof/Machine/Copies.lean ====
section
/-! DEFINITION. Copies (11 R256 to R261): their checks, their progress byte by byte, their retirement and their faults; the order
of engine commands (R265). -/

namespace Sys2Proof.Machine

/-! ### Ranges -/

/-- Where bytes of a copy lie. -/
inductive Side where
  | spad (o : Nat)
  | glob (va : Dword)
  | none
  deriving DecidableEq, Repr

def Side.add (x : Side) (n : Nat) : Side :=
  match x with
  | .spad o => .spad (o + n)
  | .glob va => .glob (va + BitVec.ofNat 64 n)
  | .none => .none

/-- A side of a copy as its address names it. -/
def sideOf (base a : Dword) : Side := if inWindow base a then .spad (a - base).toNat else .glob a

/-- The checks of one range of an engine command of n bytes (11 R257): canonical, not in the stack window, wholly global or
wholly in the scratchpad, within SCRATCH and engine-owned. -/
def State.engineRange (s : State) (th : Thread) (a : Dword) (n : Nat) : Option Bad :=
  let last := a + BitVec.ofNat 64 (n - 1)
  let stk := inWindow s.img.stkBase a || inWindow s.img.stkBase last
  if !canonical (s.spaceOf th) a || !canonical (s.spaceOf th) last then some { cause := .range, addr := a }
  else if stk then some { cause := .prot, addr := if inWindow s.img.stkBase a then a else s.img.stkBase }
  else if inWindow s.img.spBase a != inWindow s.img.spBase last then some { cause := .range, addr := a }
  else if inWindow s.img.spBase a then
    let o := (a - s.img.spBase).toNat
    if s.scratch th < o + n then some { cause := .range, addr := a } else s.ownerTrap th o n true
  else none

/-! ### Engine commands -/

def State.cmd? (s : State) (id : Nat) : Option (Group × Cmd) :=
  s.groups.findSome? fun g => (g.cmds.find? fun c => c.id == id).map fun c => (g, c)

def State.modCmd (s : State) (gid id : Nat) (f : Cmd → Cmd) : State :=
  s.modGroup gid fun g => { g with cmds := g.cmds.map fun c => if c.id == id then f c else c }

def State.dropCmd (s : State) (gid id : Nat) : State :=
  s.modGroup gid fun g => { g with cmds := g.cmds.filter fun c => c.id != id }

/-- Accesses of a thread to any of the given address ranges that have not taken effect (01 R25). -/
def accessesTo (th : Thread) (rs : List (Dword × Nat)) : List Nat :=
  (th.ops.filter fun a => !a.fixed && a.op.touches && rs.any fun r => meets a.va.toNat a.size r.1.toNat r.2).map (·.id)

/-- Every access of a thread that has not taken effect. -/
def earlierAccesses (th : Thread) : List Nat := (th.ops.filter fun a => !a.fixed && a.op.touches).map (·.id)

/-- The accesses that a command follows have taken effect. -/
def State.beforeDone (s : State) (c : Cmd) : Bool :=
  c.before.all fun i => !(s.threads.any fun th => th.ops.any fun a => a.id == i && !a.fixed)

def touchConflict (x y : Touch) : Bool := x.cls == y.cls && (x.wr || y.wr) && meets x.off x.len y.off y.len

/-- Issues a command of a thread. -/
def State.issueCmd (s : State) (th : Thread) (i : Instr) (kind : CmdKind) (slot : Option Nat) (left : List (Nat × Nat))
    (before : List Nat) : State :=
  let (id, s1) := s.newId
  s1.modGroup th.group fun g =>
    { g with
      seq := g.seq + 1
      cmds := g.cmds ++ [{ id := id, seq := g.seq, thread := th.id, pc := th.pc, words := encode i, kind := kind, slot := slot
                           left := left, before := before }] }

def Cmd.issuer (c : Cmd) : Issuer := { thread := c.thread, pc := c.pc, words := c.words }

/-- The slot operand of a command with an S bit. -/
def State.slotOperand (s : State) (th : Thread) (x : Desc) : Option Word := if x.w2.getLsbD 0 then some (s.dst32 th x) else none

/-- SLOT for that operand. -/
def State.slotBad (s : State) (th : Thread) (n : Option Word) : Option Word :=
  match n with
  | some w => if s.slotOk th w then none else some w
  | none => none

/-- A command's failure goes to its slot, or to the fault queue (11 R258). -/
def State.cmdFault (s : State) (g : Group) (c : Cmd) (f : Fail) (addr : Dword) : State :=
  match c.slot with
  | some n => s.faultSlot g.id n f addr (some c.issuer)
  | none => s.faultRecord g.launch { source := 3, cause := f.cause.code, addr := addr, by_ := some c.issuer }

/-! ### CPY (11 R257) -/

/-- Issues a copy. -/
def State.issueCopy (s : State) (th : Thread) (i : Instr) (kind : CmdKind) (slot : Option Word) (n : Nat)
    (rs : List (Dword × Nat)) : Res :=
  if 63 ≤ th.cnt.copies then .stall s
  else .done ((s.issueCmd th i kind (slot.map (·.toNat)) [(0, n)] (accessesTo th rs)).modThread th.id fun y =>
    { y with cnt := { y.cnt with copies := y.cnt.copies + 1 } })

/-- CPY: 11 R257. -/
def execCpy (x : Desc) (s : State) : Host.Outcome State Fault Refusal :=
  runTeam (.cpy x) (fun s0 s1 th =>
    let slot := s0.slotOperand th x
    let dst := s0.a64 th x
    let src := s0.b64 th x
    let n := (s0.raw32 th x.toOps4 x.c).toNat
    match s1.slotBad th slot with
    | some w => .trap s1 .slot 0 w
    | none =>
      if n < 1 || 2 ^ 26 < n then .trap s1 .range 0 0
      else match s1.engineRange th dst n, s1.engineRange th src n with
        | some b, _ => .trap s1 b.cause b.addr b.detail
        | none, some b => .trap s1 b.cause b.addr b.detail
        | none, none => s1.issueCopy th (.cpy x) (.copy dst src n) slot n [(dst, n), (src, n)]) s

/-! ### CPYT (11 R259 to R261) -/

/-- DESC on a shape record (11 R260). -/
def shapeOk (r : List Byte) : Bool :=
  let dims := field r 9 1
  let size (d : Nat) : Nat := field r (0x10 + 4 * d) 4
  let stride (d : Nat) : Nat := field r (0x24 + 4 * (d - 1)) 4
  let box (d : Nat) : Nat := field r (0x0B + d) 1
  zeros r 0x34 12 && field r 0x0A 1 ≤ 1
    && (match tyAt r 8 with
      | some ty => ty != .b128 && (8 ≤ ty.width || (size 0 % 32 == 0 && (box 0 + 1) % 32 == 0))
      | none => false)
    && 1 ≤ dims && dims ≤ 5
    && ((List.range 5).all fun d => if d < dims then size d != 0 else size d == 1 && box d == 0 && (d == 0 || stride d == 0))
    && field r 0 8 % 16 == 0

/-- A coordinate of the box. -/
def coord (c : List Word) (d : Nat) : Int := (c.getD d 0).toInt

/-- Some element of the box lies outside the tensor (11 R261). -/
def boxOutside (r : List Byte) (c : List Word) : Bool :=
  (List.range 5).any fun d => coord c d < 0 || (field r (0x10 + 4 * d) 4 : Int) < coord c d + field r (0x0B + d) 1 + 1

/-- A run of consecutive bytes of a copy: first byte of the copy, length, destination, source. -/
structure Run where
  off : Nat
  len : Nat
  dst : Side
  src : Side
  deriving DecidableEq, Repr

/-- The row of a box with index (i1, .., i4) = row in dimension order: its runs. -/
def boxRow (load : Bool) (a : Nat) (r : List Byte) (c : List Word) (row : Nat) : List Run :=
  let box (d : Nat) : Nat := field r (0x0B + d) 1 + 1
  let w := (boxTy r).width
  let n := box 0
  let i (d : Nat) : Nat :=
    match d with
    | 1 => row % box 1
    | 2 => row / box 1 % box 2
    | 3 => row / (box 1 * box 2) % box 3
    | _ => row / (box 1 * box 2 * box 3)
  let e (d : Nat) : Int := coord c d + i d
  let inside := [1, 2, 3, 4].all fun d => 0 ≤ e d && e d < field r (0x10 + 4 * d) 4
  let c0 := coord c 0
  let size0 : Int := field r 0x10 4
  let clip (x : Int) : Nat := (min (max x 0) (n : Int)).toNat
  let lo := if inside then clip (-c0) else n
  let hi := if inside then max lo (clip (size0 - c0)) else n
  let base : Int := field r 0 8 + 16 * (([1, 2, 3, 4].map fun d => e d * (field r (0x24 + 4 * (d - 1)) 4 : Int)).foldl (· + ·) 0)
  let rowOff := row * n * w / 8
  let out (x y : Nat) : List Run :=
    if x < y then
      [{ off := rowOff + x * w / 8, len := (y - x) * w / 8, dst := if load then .spad (a + rowOff + x * w / 8) else .none
         src := .none }]
    else []
  let mid : List Run :=
    if lo < hi then
      let sp : Side := .spad (a + rowOff + lo * w / 8)
      let gl : Side := .glob (BitVec.ofInt 64 (base + (c0 + lo) * w / 8))
      [{ off := rowOff + lo * w / 8, len := (hi - lo) * w / 8, dst := if load then sp else gl, src := if load then gl else sp }]
    else []
  out 0 lo ++ mid ++ out hi n

/-- The runs of a copy. -/
def Cmd.runs (base : Dword) (c : Cmd) : List Run :=
  match c.kind with
  | .copy dst src n => [{ off := 0, len := n, dst := sideOf base dst, src := sideOf base src }]
  | .copyt load a r cs =>
    (List.range (boxElems r / (field r 0x0B 1 + 1))).flatMap fun row => boxRow load a r cs row
  | .bload _ sp _ src spad _ =>
    [{ off := 0, len := if sp then 8192 else 4096, dst := .none, src := if spad then .spad src.toNat else .glob src }]
  | _ => []

/-- The global ranges of a tensor copy, for accesses of its thread. -/
def boxRanges (load : Bool) (a : Nat) (r : List Byte) (c : List Word) : List (Dword × Nat) :=
  ((List.range (boxElems r / (field r 0x0B 1 + 1))).flatMap fun row => boxRow load a r c row).filterMap fun x =>
    match x.dst, x.src with
    | .glob va, _ => some (va, x.len)
    | _, .glob va => some (va, x.len)
    | _, _ => none

/-- Checks 3 to 5 of CPYT on its record (11 R261), and its issue. -/
def cpytRecord (i : Instr) (load : Bool) (slot : Option Word) (a : Dword) (c : List Word) (r : List Byte) (s : State)
    (th : Thread) : Res :=
  let o := (a - s.img.spBase).toNat
  let w := (boxTy r).width
  if !shapeOk r then .trap s .desc 0 0
  else if (w < 8 && coord c 0 % 32 != 0) || (boxOutside r c && field r 0x0A 1 == 0) then .trap s .shape 0 0
  else if s.scratch th < o + boxBytes r then .trap s .range a 0
  else match s.ownerTrap th o (boxBytes r) true with
    | some b => .trap s b.cause b.addr b.detail
    | none => s.issueCopy th i (.copyt load o r c) slot (boxBytes r) ((a, boxBytes r) :: boxRanges load o r c)

/-- Registers of a v span. -/
def Thread.spanRegs (th : Thread) (o : Opnd) (n : Nat) : List Word :=
  match o with
  | .v b => (List.range n).map fun i => th.getV (b + BitVec.ofNat 8 i)
  | _ => []

/-- CPYT: 11 R261. -/
def execCpyt (x : Desc) (s : State) : Host.Outcome State Fault Refusal :=
  runTeam (.cpyt x) (fun s0 s1 th =>
    let slot := s0.slotOperand th x
    let a := s0.a64 th x
    let b := s0.b64 th x
    match s1.slotBad th slot with
    | some w => .trap s1 .slot 0 w
    | none =>
      if a.toNat % 16 != 0 then .trap s1 .misalign a 0
      else if !canonical (s1.spaceOf th) a || !inWindow s1.img.spBase a then .trap s1 .range a 0
      else if b.toNat % 64 != 0 then .trap s1 .misalign b 0
      else if inWindow s1.img.stkBase b then .trap s1 .prot b 0
      else
        let (s2, r) := s1.ownRead th b 64 64 true
        r.res s2 th (.cpyt x) fun bs => cpytRecord (.cpyt x) (!x.w2.getLsbD 1) slot a (th.spanRegs x.c 5) bs s2 th) s

/-! ### Progress (11 R256) -/

/-- Bytes o to o + n - 1 are taken from a list of runs that are left. -/
def takeOut (o n : Nat) : List (Nat × Nat) → List (Nat × Nat)
  | [] => []
  | (x, l) :: rest =>
    if x ≤ o && o + n ≤ x + l then
      (if x < o then [(x, o - x)] else []) ++ (if o + n < x + l then [(o + n, x + l - (o + n))] else []) ++ rest
    else (x, l) :: takeOut o n rest

/-- The run of a copy that holds byte o. -/
def runAt (rs : List Run) (o : Nat) : Option Run := rs.find? fun r => r.off ≤ o && o < r.off + r.len

/-- Touches of a piece. -/
def pieceTouches (r : Run) : List Touch :=
  (match r.dst with
    | .spad o => [{ cls := 0, off := o, len := r.len, wr := true }]
    | _ => [])
  ++ (match r.src with
    | .spad o => [{ cls := 0, off := o, len := r.len, wr := false }]
    | _ => [])

/-- Bytes o to o + n - 1 of a run. -/
def Run.sub (r : Run) (o n : Nat) : Run := { off := o, len := n, dst := r.dst.add (o - r.off), src := r.src.add (o - r.off) }

/-- The runs of a copy or a BLOAD that are not yet done. -/
def Cmd.leftRuns (base : Dword) (c : Cmd) : List Run :=
  (c.runs base).flatMap fun r => c.left.filterMap fun l =>
    let lo := max r.off l.1
    let hi := min (r.off + r.len) (l.1 + l.2)
    if lo < hi then some (r.sub lo (hi - lo)) else none

/-- What a command of a group may still touch: the bytes that a copy or BLOAD has left, and of a grid operation's rows those without
their final value (13 R304). -/
def State.touchesNow (s : State) (c : Cmd) : List Touch :=
  match c.kind with
  | .grid op b dp _ _ =>
    let p := parseParams b
    let ts := c.touches s.img.spBase
    match s.grids.find? fun o => o.id == op with
    | none => ts
    | some o =>
      if p.passes dp ≤ o.pass then []
      else ts.map fun t =>
        if t.cls == 1 && o.pass + 1 == p.passes dp then { t with off := t.off + 64 * o.rows, len := t.len - 64 * o.rows } else t
  | .copy .. | .copyt .. | .bload .. => (c.leftRuns s.img.spBase).flatMap pieceTouches
  | _ => c.touches s.img.spBase

/-- An earlier command of the group conflicts with bytes or words that a command is about to touch (11 R265). -/
def State.conflicts (s : State) (g : Group) (c : Cmd) (ts : List Touch) : Bool :=
  g.cmds.any fun x => x.id < c.id && (s.touchesNow x).any fun t => ts.any fun u => touchConflict t u

/-- Bytes to the end of a 256-byte block for a global side: the most that one request to a far place asks for (20 R415), so a piece
that is acknowledged has its event although a later one fails (11 R258). -/
def sideBlock (x : Side) (n : Nat) : Nat :=
  match x with
  | .glob va => min n (256 - va.toNat % 256)
  | _ => n

/-- The next piece of a command: where the step's arguments begin in what is left, cut to one run and one 256-byte block of each side. -/
def State.nextPiece (s : State) (c : Cmd) : Option (Nat × Nat × Run) :=
  let o := if c.left.any fun l => l.1 ≤ s.arg.n && s.arg.n < l.1 + l.2 then s.arg.n else (c.left.headD (0, 0)).1
  match c.left.find? fun l => l.1 ≤ o && o < l.1 + l.2, runAt (c.runs s.img.spBase) o with
  | some l, some r =>
    let n := min (l.1 + l.2 - o) (r.off + r.len - o)
    let n := sideBlock (r.src.add (o - r.off)) (sideBlock (r.dst.add (o - r.off)) n)
    let n := if s.arg.q == 0 then n else min n s.arg.q
    some (o, n, r.sub o n)
  | _, _ => none

/-- The address space of a group's launch. -/
def State.groupSpace (s : State) (g : Group) : Space := ((s.launch? g.launch).map Launch.space).getD {}

/-- An address of a tensor that is no global address: the copy stops there with the cause that 11 R257 names (log 64). -/
def State.globBad (s : State) (sp : Space) (va : Dword) : Option Fail :=
  if !canonical sp va || inWindow s.img.spBase va then some { cause := .range }
  else if inWindow s.img.stkBase va then some { cause := .prot } else none

/-- Reads a piece of an engine command. -/
def State.pieceRead (s : State) (g : Group) (c : Nat) (x : Side) (n : Nat) : State × Got (List Byte) :=
  match x with
  | .spad o => (s, .ok (g.spad.load o n))
  | .glob va =>
    match s.globBad (s.groupSpace g) va with
    | some f => (s, .fail f va)
    | none => s.agentRead (.cmd c) (s.groupSpace g) false 1 false 2 va n
  | .none => (s, .ok (List.replicate n 0))

/-- Writes a piece of an engine command. -/
def State.pieceWrite (s : State) (g : Group) (c : Nat) (x : Side) (bs : List Byte) : State × Got Unit :=
  match x with
  | .spad o => (s.modGroup g.id fun y => { y with spad := y.spad.store o bs }, .ok ())
  | .glob va =>
    match s.globBad (s.groupSpace g) va with
    | some f => (s, .fail f va)
    | none => s.agentWrite (.cmd c) (s.groupSpace g) false 1 false 2 va bs
  | .none => (s, .ok ())

/-- An earlier access of the command's thread reaches, under another address, bytes of a global side (01 R25). -/
def State.aliased (s : State) (g : Group) (c : Cmd) (x : Side) (n : Nat) : Bool :=
  match x, s.thread? c.thread with
  | .glob va, some th =>
    let sp := s.groupSpace g
    (th.ops.any fun a => a.id < c.id && !a.fixed && a.op.touches) &&
    (match s.walkFrom va .read true (if sp.five then 5 else 4) sp.root with
      | (.ok e lv, _) =>
        let p := s.physClass e (leafPa e lv va) n false false
        th.ops.any fun a => a.id < c.id && !a.fixed && a.op.touches && a.parts.any fun y => partsMeet (p, n) y
      | _ => false)
  | _, _ => false

/-- Grid operations, BLOADs and accumulator commands of a group run while it is resident (17 R375). -/
def engineRuns (g : Group) : Bool := g.res == .running || g.res == .ended

/-- A piece that waits for a page, has failed, or waits for an answer from outside. -/
def State.pieceStop {α : Type} (s : State) (g : Group) (c : Cmd) (r : Got α) : State :=
  match r with
  | .wait 0 _ => s
  | .wait tag va => s.modCmd g.id c.id fun x => { x with tag := some (tag, va) }
  | .fail f va => s.modCmd g.id c.id fun x => { x with fault := some (f, va) }
  | .ok _ => s

/-- COPY_PROGRESS: of a resident group or of one that is saved (17 R375), bytes of a copy are written and complete to system scope, and its slot receives their event; the bytes of the
last event wait for COPY_RETIRE. `n` chooses the first byte, `q` bounds the length. -/
def execCopyProgress (s : State) : Host.Outcome State Fault Refusal :=
  match s.cmd? s.arg.a with
  | none => .next s
  | some (g, c) =>
    let isCopy := match c.kind with
      | .copy .. | .copyt .. => true
      | _ => false
    .next (
      if !isCopy || c.fault.isSome || c.tag.isSome || !s.beforeDone c then s
      else match s.nextPiece c with
      | none => s
      | some (o, n, r) =>
        if s.conflicts g c (pieceTouches r) || s.aliased g c r.src n || s.aliased g c r.dst n then s
        else match s.pieceRead g c.id r.src n with
          | (s1, .ok bs) =>
            match s1.pieceWrite g c.id r.dst bs with
            | (s2, .ok _) =>
              let left := takeOut o n c.left
              let s3 := (s2.farDone (.cmd c.id)).modCmd g.id c.id fun x =>
                { x with left := left, started := true, sent := if left.isEmpty then x.sent else x.sent + n }
              (match c.slot, left.isEmpty with
                | some k, false => s3.slotEvent g.id k 0 0 n (some c.issuer)
                | _, _ => s3)
            | (s2, w) => s2.pieceStop g c w
          | (s1, w) => s1.pieceStop g c w)

/-- Bytes of a copy: the b total of its events. -/
def Cmd.total (c : Cmd) : Nat :=
  match c.kind with
  | .copy _ _ n => n
  | .copyt _ _ r _ => boxBytes r
  | _ => 0

/-- A copy leaves its thread's counter. -/
def State.retireCopy (s : State) (g : Group) (c : Cmd) : State :=
  ((s.farDrop (.cmd c.id)).dropCmd g.id c.id).modThread c.thread fun x => { x with cnt := { x.cnt with copies := x.cnt.copies - 1 } }

/-- COPY_RETIRE: the last event of a finished copy is applied, and its counter falls (11 R256). -/
def execCopyRetire (s : State) : Host.Outcome State Fault Refusal :=
  match s.cmd? s.arg.a with
  | none => .next s
  | some (g, c) =>
    match c.kind with
    | .copy .. | .copyt .. =>
      .next (if !c.left.isEmpty || c.fault.isSome then s
        else
          let s1 := match c.slot with
            | some k => s.slotEvent g.id k 1 0 (c.total - c.sent) (some c.issuer)
            | none => s
          s1.retireCopy g c)
    | _ => .next s

/-- COPY_FAULT: a copy that met a fault stops, its slot faults or a record is written, and it retires (11 R258). -/
def execCopyFault (s : State) : Host.Outcome State Fault Refusal :=
  match s.cmd? s.arg.a with
  | none => .next s
  | some (g, c) =>
    match c.kind, c.fault with
    | .copy .., some (f, a) | .copyt .., some (f, a) => .next ((s.cmdFault g c f a).retireCopy g c)
    | _, _ => .next s

end Sys2Proof.Machine
end

