-- ==== Sys2Proof/Machine/Harness.lean ====
section
/-! DEFINITION. Harnessed lanes: HITCH and UNHITCH, the B store with BLOAD and BSWAP (12 R273, R278 to R288). -/

namespace Sys2Proof.Machine

/-! ### The harness of a gang -/

/-- A thread of a group that waits at HITCH or UNHITCH. -/
def State.hitchWaiter (s : State) (gid : Nat) : Option Thread :=
  (s.live gid).find? fun x => match x.hold with
    | .hitch .. | .unhitch => true
    | _ => false

def State.unhitchPending (s : State) (gid : Nat) : Bool :=
  (s.live gid).any fun x => x.hold == .unhitch

/-- Groups that a gang has. -/
def State.gangSize (s : State) (g : Group) : Nat :=
  match s.launch? g.launch with
  | some l => if g.spawned == 0 then l.lr.gx * l.lr.gy * l.lr.gz else 1
  | none => 1

/-- A group that has ended. -/
def Group.over (g : Group) : Bool := g.res == .ended || g.res == .retained

/-- A group that has no thread left: it has ended, or is away with commands that are still to retire. -/
def State.finished (s : State) (g : Group) : Bool := g.over || (s.live g.id).isEmpty

/-- A group that a save or an eviction takes along: it runs threads, or has commands that are still to retire (05 R138, 12 R291). -/
def Group.kept (g : Group) : Bool := !g.over || (g.res == .ended && !g.cmds.isEmpty)

/-- A group of the gang has ended, so that the gang can no longer act as one. -/
def State.gangBroken (s : State) (g : Group) : Bool :=
  (s.gangGroups g.gang).any s.finished || (s.gangGroups g.gang).length != s.gangSize g

/-- Position of a hitched group: x along N, z along K (12 R273). -/
def Group.posX (g : Group) : Nat := match g.hitched with
  | some h => g.idx % 2 ^ h.w
  | none => 0
def Group.posZ (g : Group) : Nat := match g.hitched with
  | some h => g.idx / 2 ^ h.w
  | none => 0

/-- HITCH completes when every group of the gang has one pending: the gang is hitched, or the waiting threads raise HARNESS
(12 R284). -/
def State.tryHitch (s : State) (gang : Nat) : State :=
  let gs := s.gangGroups gang
  let ws := gs.filterMap fun g => (s.hitchWaiter g.id).bind fun th => match th.hold with
    | .hitch w dp => some (th, w, dp)
    | _ => none
  match gs, ws with
  | g :: _, (_, w, dp) :: _ =>
    if ws.length != gs.length || gs.length != s.gangSize g then s
    else if ws.all fun x => x.2.1 == w && x.2.2 == dp then
      gs.foldl (fun s g => s.modGroup g.id fun y => { y with hitched := some { w := w, dp := dp }, frames := [] })
        (ws.foldl (fun s x => s.modThread x.1.id fun y => y.release) s)
    else ws.foldl (fun s x => s.trapHeld x.1 .harness 0 0) s
  | _, _ => s

/-- HITCH: 12 R284. Arrival is a release at gang scope. -/
def execHitch (x : Desc) (s : State) : Host.Outcome State Fault Refusal :=
  let w := (x.fld 0 3).toNat
  let dp := (x.fld 4 2).toNat
  runTeam (.hitch x) (fun _ s1 th =>
    match s1.group? th.group with
    | none => .trap s1 .harness 0 0
    | some g =>
      if s1.gangSize g != 2 ^ w * 2 ^ dp || g.hdr.accwin == 0 || g.hdr.awin == 0 || g.hitched.isSome
          || (s1.hitchWaiter g.id).isSome || s1.gangBroken g then .trap s1 .harness 0 0
      else s1.afterRelease th 2 (.stall ((s1.holdAt th.id (.hitch x) (.hitch w dp)).tryHitch g.gang))) s

/-- UNHITCH: 12 R285. -/
def execUnhitch (x : Desc) (s : State) : Host.Outcome State Fault Refusal :=
  runTeam (.unhitch x) (fun _ s1 th =>
    match s1.group? th.group with
    | none => .trap s1 .harness 0 0
    | some g =>
      if g.hitched.isNone || s1.unhitchPending g.id then .trap s1 .harness 0 0
      else .stall (s1.holdAt th.id (.unhitch x) .unhitch)) s

/-- A command that touches a window or a copy. -/
def Cmd.tile (c : Cmd) : Bool :=
  c.window || (match c.kind with
    | .bload .. => true
    | _ => false)

/-- A member of an MMA that waits for the others' is a command of its group (11 R254, 12 R285). -/
def Hold.isMma : Hold → Bool
  | .mma .. => true
  | _ => false

/-- UNHITCH_COMPLETE: a gang unhitches when every group waits in UNHITCH or has ended and its commands have retired
(12 R285). -/
def execUnhitchComplete (s : State) : Host.Outcome State Fault Refusal :=
  match s.group? s.arg.g with
  | none => .next s
  | some g =>
    let gs := s.gangGroups g.gang
    .next (
      if g.hitched.isSome && gs.all (fun y => (s.finished y || s.unhitchPending y.id) && !(y.cmds.any Cmd.tile)
          && !((s.live y.id).any fun x => x.hold.isMma)) then
        gs.foldl (fun s y =>
          let s1 := s.modGroup y.id fun z => { z with hitched := none, frames := [] }
          (s.live y.id).foldl (fun s th => if th.hold == .unhitch then s.modThread th.id fun z => z.release else s) s1) s
      else s)

/-! ### The B store (12 R278 to R281) -/

def Group.frameAt (g : Group) (f : Nat) : Frame := (g.frames.find? fun x => x.index == f).getD { index := f }

def Group.setFrame (g : Group) (x : Frame) : Group :=
  { g with frames := if g.frames.any fun y => y.index == x.index then g.frames.map fun y => if y.index == x.index then x else y
    else g.frames ++ [x] }

def Frame.copy (x : Frame) (plane : Bool) : FrameCopy := if plane then x.plane1 else x.plane0
def Frame.setCopy (x : Frame) (plane : Bool) (c : FrameCopy) : Frame :=
  if plane then { x with plane1 := c } else { x with plane0 := c }

/-- The group is hitched with no UNHITCH pending (12 R286). -/
def State.harnessed (s : State) (th : Thread) : Bool :=
  match s.group? th.group with
  | some g => g.hitched.isSome && !s.unhitchPending g.id
  | none => false

/-- A BLOAD resolves its targets: the shadow copies become LOADING (12 R281, R286). -/
def Group.loadFrames (g : Group) (f : Nat) (sp hold : Bool) (src : Dword) (spad : Bool) (id : Nat) (by_ : Issuer) : Group :=
  let one (g : Group) (f : Nat) (kind : CopyKind) (src : Dword) : Group :=
    let x := g.frameAt f
    let c := x.copy (!x.live)
    g.setFrame { (x.setCopy (!x.live) { c with
        st := .loading, kind := kind, pair := id, old := if c.st == .valid then some c.source else c.old
        source := { src := src, spad := spad, thread := by_.thread, pc := by_.pc, words := by_.words } }) with
      fresh := if hold then x.fresh else true }
  if sp then one (one g f .values src) (f + 1) .meta_ (src + 4096) else one g f .dense src

/-- Issues a BLOAD whose checks have passed. -/
def State.issueBload (s : State) (th : Thread) (i : Instr) (slot : Option Word) (a : Dword) (f : Nat) (sp hold : Bool) : State :=
  match s.group? th.group with
  | none => s
  | some g =>
    let spad := inWindow s.img.spBase a
    let src := if spad then a - s.img.spBase else a
    let n := if sp then 8192 else 4096
    let planes := if sp then [!(g.frameAt f).live, !(g.frameAt (f + 1)).live] else [!(g.frameAt f).live]
    let id := s.nextId
    let s1 := s.issueCmd th i (.bload f sp hold src spad planes) (slot.map (·.toNat)) [(0, n)] (earlierAccesses th)
    (s1.modGroup g.id fun y => y.loadFrames f sp hold src spad id (issuerOf th i)).modThread th.id fun y =>
      { y with cnt := { y.cnt with tiles := y.cnt.tiles + 1 } }

/-- BLOAD: 12 R286. -/
def execBload (x : Desc) (s : State) : Host.Outcome State Fault Refusal :=
  let sp := x.w2.getLsbD 1
  runTeam (.bload x) (fun s0 s1 th =>
    let slot := s0.slotOperand th x
    let a := s0.a64 th x
    let f := (s0.b32 th x).toNat
    match s1.slotBad th slot with
    | some w => .trap s1 .slot 0 w
    | none =>
      if !s1.harnessed th then .trap s1 .harness 0 0
      else if 511 < f || (sp && f % 2 != 0) then .trap s1 .range 0 0
      else if a.toNat % 256 != 0 then .trap s1 .misalign a 0
      else match s1.engineRange th a (if sp then 8192 else 4096) with
        | some b => .trap s1 b.cause b.addr b.detail
        | none => if 63 ≤ th.cnt.tiles then .stall s1
          else .done (s1.issueBload th (.bload x) slot a f sp (x.w2.getLsbD 2))) s

/-- BSWAP: 12 R288. It has a place in the group's issue order (R281, R292). -/
def execBswap (x : Desc) (s : State) : Host.Outcome State Fault Refusal :=
  runTeam (.bswap x) (fun s0 s1 th =>
    let a := (s0.a32 th x).toNat
    let n := (s0.b32 th x).toNat
    if !s1.harnessed th then .trap s1 .harness 0 0
    else if n < 1 || 512 < a + n then .trap s1 .range 0 0
    else .done (s1.modGroup th.group fun g =>
      (List.range n).foldl (fun g i => let y := g.frameAt (a + i); g.setFrame { y with live := !y.live, fresh := false })
        { g with seq := g.seq + 1 })) s

/-- Copies that a BLOAD writes: frame and plane. -/
def Cmd.loads (c : Cmd) : List (Nat × Bool) :=
  match c.kind with
  | .bload f _ _ _ _ planes => (List.range planes.length).map fun i => (f + i, planes.getD i false)
  | _ => []

/-- Copies that a grid operation reads on a group. -/
def State.opPlanes (s : State) (gid op : Nat) : List (Nat × Bool) :=
  match s.grids.find? fun o => o.id == op with
  | some o => (o.planes.filter fun p => p.1 == gid).map fun p => p.2
  | none => []

/-- An earlier command conflicts with a BLOAD on one of its copies (12 R281). -/
def State.copyBlocked (s : State) (g : Group) (c : Cmd) : Bool :=
  g.cmds.any fun x => x.id < c.id && (match x.kind with
    | .bload .. => x.loads.any c.loads.contains
    | .grid op .. => (s.opPlanes g.id op).any c.loads.contains
    | _ => false)

/-- The source of a BLOAD's copy i. -/
def Cmd.loadSource (c : Cmd) (i : Nat) : Option CopySource :=
  match c.kind with
  | .bload _ _ _ src spad _ => some { src := src + BitVec.ofNat 64 (4096 * i), spad := spad, thread := c.thread, pc := c.pc, words := c.words }
  | _ => none

/-- Puts what a BLOAD read into its copies, each in the state given; a copy that a later BLOAD has taken keeps its state. -/
def Group.fillFrames (g : Group) (c : Cmd) (st : CopyState) (data : Option (List Byte)) : Group :=
  (List.range c.loads.length).foldl (fun g i =>
    let (f, plane) := c.loads.getD i (0, false)
    let x := g.frameAt f
    let y := x.copy plane
    let y1 := if y.pair == c.id then { y with st := st, old := none } else y
    let y2 := match data with
      | some bs =>
        { y1 with
          data := Memory.store [] 0 ((bs.drop (4096 * i)).take 4096)
          old := if y.pair == c.id then none else c.loadSource i }
      | none => y1
    g.setFrame (x.setCopy plane y2)) g

/-- A tile command leaves its thread's counter. -/
def State.retireTile (s : State) (gid : Nat) (c : Cmd) : State :=
  ((s.farDrop (.cmd c.id)).dropCmd gid c.id).modThread c.thread fun x => { x with cnt := { x.cnt with tiles := x.cnt.tiles - 1 } }

/-- BLOAD_RETIRE: the bytes are read and written, the copies become VALID and the slot receives its event (12 R286). -/
def execBloadRetire (s : State) : Host.Outcome State Fault Refusal :=
  match s.cmd? s.arg.a with
  | none => .next s
  | some (g, c) =>
    match c.kind with
    | .bload _ sp _ src spad _ =>
      let n := if sp then 8192 else 4096
      .next (
        if !engineRuns g || c.fault.isSome || c.tag.isSome || !s.beforeDone c || s.copyBlocked g c
            || s.conflicts g c (c.touches s.img.spBase) then s
        else
          let r := if spad then (s, Got.ok (g.spad.load src.toNat n)) else s.agentRead (.cmd c.id) (s.groupSpace g) false 1 false 4 src n
          match r with
          | (s1, .ok bs) =>
            let s2 := s1.modGroup g.id fun y => y.fillFrames c .valid (some bs)
            let s3 := match c.slot with
              | some k => s2.slotEvent g.id k 1 0 n (some c.issuer)
              | none => s2
            s3.retireTile g.id c
          | (s1, w) => s1.pieceStop g c w)
    | _ => .next s

/-- The BLOAD whose data an operation's member reads in a copy that it resolved is c: the latest one before the member. -/
def Group.readsLoad (g : Group) (c : Cmd) (member : Nat) (copy : Nat × Bool) : Bool :=
  c.id < member && c.loads.contains copy && !(g.cmds.any fun y => c.id < y.id && y.id < member && y.loads.contains copy)

/-- Operations that wait for a copy which becomes BROKEN stop with HARNESS (12 R281, 13 R306); no address of theirs has failed, and
their record holds 0 (log 72). -/
def State.breakOps (s : State) (g : Group) (hit : Nat → Nat × Bool → Bool) : State :=
  { s with grids := s.grids.map fun o =>
      if o.fault.isNone && o.members.any (fun m => m.1 == g.id && o.planes.any fun p => p.1 == g.id && hit m.2 p.2)
      then { o with fault := some ({ cause := .harness }, 0) } else o }

/-- BLOAD_FAULT: a BLOAD that met a fault stops; its copies become BROKEN, and operations that wait for them stop (12 R287). -/
def execBloadFault (s : State) : Host.Outcome State Fault Refusal :=
  match s.cmd? s.arg.a with
  | none => .next s
  | some (g, c) =>
    match c.kind, c.fault with
    | .bload .., some (f, a) =>
      let s1 := s.modGroup g.id fun y => y.fillFrames c .broken none
      .next (((s1.breakOps g (g.readsLoad c)).cmdFault g c f a).retireTile g.id c)
    | _, _ => .next s

end Sys2Proof.Machine
end

