-- ==== Sys2Proof/Machine/Lanes.lean ====
section
/-! DEFINITION. Instructions that hold threads, elect among them or read other lanes (06 R160 to R174, R183). -/

namespace Sys2Proof.Machine

/-! ### The members of an issue -/

/-- Team position (06 R160). -/
def Thread.pos (th : Thread) : Nat := th.lane % 32

/-- The active members of an issue that complete the instruction, before any of them executes it: guard true, no trap of decoding
or pending, operands ready (06 R160, R161, 17 R360). Lanes rise along the team. -/
def State.active (s : State) (i : Instr) : List Thread :=
  (s.team.filterMap s.thread?).filter fun th =>
    s.canIssue th && th.pend.isEmpty && (s.decodeTrap th i).isNone && th.guard i.guard && !stallsAt th i

/-- A mask with one bit for each of the given positions. -/
def posMask (ps : List Nat) : Nat := pack 1 ((List.range 32).map fun p => if ps.contains p then 1 else 0)

/-- The member at a position. -/
def atPos (ms : List Thread) (p : Nat) : Option Thread := ms.find? fun th => th.pos == p

/-- A predicate field with its negate bit. -/
def Arith.ps (x : Arith) (th : Thread) (lo : Nat) : Bool := th.pred (x.fld lo 3) != (x.fld (lo + 3) 1 == 1#1)

/-- A cross-lane instruction: what a member receives from the state before the issue and its active members. -/
def laneTeam (i : Instr) (f : State → List Thread → Thread → Out) (s : State) : Host.Outcome State Fault Refusal :=
  aluTeam i (fun s0 th => f s0 (s0.active i) th) s

/-! ### JOIN and BAR -/

/-- The set that a JOIN names (06 R163). -/
def joinSet (x : Arith) (a : Word) : JoinSet :=
  match (x.fld 16 2).toNat with
  | 0 => .stage
  | 1 => .group
  | _ => .mask a

/-- A JOIN by a member: the checks of a mask, then the hold; the last arrival releases the set (05 R148, 06 R163). -/
def joinOne (x : Arith) (a : Word) (s : State) (th : Thread) : Res :=
  let set := joinSet x a
  let bad := match set with
    | .mask m => !m.getLsbD (th.lane % 32) || 128 < (s.setMembers th .stage).length
    | _ => false
  if bad then .trap s .range 0 0
  else .stall (((s.holdAt th.id (.join x) (.join set)).releaseSets th.group).settleGroup th.group)

/-- JOIN: 06 R163. -/
def execJoin (x : Arith) (s : State) : Host.Outcome State Fault Refusal :=
  runTeam (.join x) (fun s0 s1 th => joinOne x (s0.raw32 th x.toOps4 x.a) s1 th) s

/-- A BAR by a member: its arrival is a release at group scope (06 R165, R167). -/
def barOne (x : Arith) (a : Word) (s : State) (th : Thread) : Res :=
  let op := (x.fld 18 4).toNat
  let pay : Option BarPay := if op == 0 then none else some { op := op, ty := x.ty, value := a, d := x.d }
  s.afterRelease th 1
    (.stall (((s.holdAt th.id (.bar x) (.bar (x.fld 24 3).toNat (x.fld 16 2 == 1#2) pay)).releaseSets
      th.group).settleGroup th.group))

/-- BAR: 06 R165, R166. A payload is read as its type (02 R50). -/
def execBar (x : Arith) (s : State) : Host.Outcome State Fault Refusal :=
  runTeam (.bar x) (fun s0 s1 th =>
    barOne x (if x.fld 18 4 == 0#4 then 0 else BitVec.ofNat 32 (s0.argA th x)) s1 th) s

/-! ### LEAD -/

/-- LEAD: 06 R164. -/
def execLead (x : Arith) (s : State) : Host.Outcome State Fault Refusal :=
  laneTeam (.lead x) (fun _ ms th =>
    let qs := (ms.filter fun m => Arith.ps x m 19).map Thread.pos
    let sel := if x.fld 23 1 == 1#1 then qs.getLast? else qs.head?
    { d := x.d, w := 32, val := sel.getD 32, pd := some (x.fld 16 3, sel == some th.pos) }) s

/-! ### SPAWN (06 R168, 05 R150) -/

/-- Inserts by the order in which waits began; members of one issue begin in ascending lane order. -/
def insertWait (x : Thread) : List Thread → List Thread
  | [] => [x]
  | y :: ys => if x.holdSeq < y.holdSeq then x :: y :: ys else y :: insertWait x ys

/-- The waiting members of a SPAWN issue insert their threads as one step, by ascending lane, when the pool has room for them
all. -/
def State.trySpawn (s : State) (issue : Nat) : State :=
  let ms := (s.threads.filter fun x => match x.hold with
    | .spawn i _ _ => i == issue && !x.exited
    | _ => false).foldr insertWait []
  match ms with
  | [] => s
  | m :: _ =>
    match s.launchOf m with
    | none => s
    | some l =>
      if !l.waiting.isEmpty || l.lr.poolCap < l.pending + ms.length then s
      else
        let ps := ms.filterMap fun x => match x.hold with
          | .spawn _ e a => some { entry := e, arg := a, origin := Origin.spawn : PendThread }
          | _ => none
        ms.foldl (fun s x => s.modThread x.id fun y => y.release) (s.insertAll l.id ps)

/-- One member of a SPAWN: its checks, then it waits for the issue's insertion. -/
def spawnOne (x : Arith) (issue : Nat) (entry arg : Dword) (s : State) (th : Thread) : Res :=
  s.afterRelease th 4 (
    let (s1, r) := s.spawnCheck th entry
    r.res s1 th (.spawn x) fun _ => .stall (s1.holdAt th.id (.spawn x) (.spawn issue entry arg)))

/-- A member of an issue waits before its release at device scope, so that the issue waits as one (05 R150); a member that is parked
does not hold up the others (18 R391). -/
def State.issueWaits (s : State) (i : Instr) : Bool :=
  (s.active i).any fun m => !s.released m 4 0 && !parkedBy m { rel := true, agent := 4 }

/-- A member's entry header is still to be read (17 R358), so that the issue waits as one for its step (06 R168, 15 R345). -/
def State.headersWait (s : State) (i : Instr) (entry : Thread → Dword) : Bool :=
  (s.active i).any fun m => (s.spawnCheck m (entry m)).2 == .later

/-- A member of an issue that waits for a header reads its own: it may trap or park. -/
def headerOne (i : Instr) (entry : Dword) (s : State) (th : Thread) : Res :=
  let (s1, r) := s.spawnCheck th entry
  r.res s1 th i fun _ => .stall s1

/-- SPAWN: 06 R168. -/
def execSpawn (x : Arith) (s : State) : Host.Outcome State Fault Refusal :=
  let (issue, s0) := s.newId
  match runTeam (.spawn x) (fun b s1 th =>
      let entry (m : Thread) : Dword := b.raw64 m x.toOps4 x.a
      if b.issueWaits (.spawn x) then .stall s1
      else if b.headersWait (.spawn x) entry then headerOne (.spawn x) (entry th) s1 th
      else spawnOne x issue (b.raw64 th x.toOps4 x.a) (b.raw64 th x.toOps4 x.b) s1 th) s0 with
  | .next s1 => .next (s1.trySpawn issue)
  | r => r

/-- SPAWN_POOL_ROOM: a SPAWN that waits for room inserts when its whole team fits (05 R150). -/
def execSpawnPoolRoom (s : State) : Host.Outcome State Fault Refusal :=
  match (s.thread? s.arg.t).map Thread.hold with
  | some (.spawn issue _ _) => .next (s.trySpawn issue)
  | _ => .next s

/-! ### Data across lanes -/

/-- Source position of an XCH member (06 R169), if it lies in the team. -/
def xchSource (x : Arith) (t : Nat) (b : Word) : Option Nat :=
  let off := 32 / 2 ^ ((x.fld 20 3).toNat + 1)
  match (x.fld 16 3).toNat with
  | 0 => some (b.toNat % 32)
  | 1 => if off ≤ t then some (t - off) else none
  | 2 => if t + off < 32 then some (t + off) else none
  | 3 => some (t ^^^ off)
  | _ => some ((t + off) % 32)

/-- XCH: 06 R169. -/
def execXch (x : Arith) (s : State) : Host.Outcome State Fault Refusal :=
  laneTeam (.xch x) (fun s0 ms th =>
    let src := (xchSource x th.pos (s0.raw32 th x.toOps4 x.b)).bind (atPos ms)
    { d := x.d, w := x.ty.regWidth, val := (src.map fun m => s0.argA m x).getD 0
      pd := some (x.fld 24 3, src.isSome) }) s

/-- The identity of an exclusive scan (06 R170). -/
def scanIdentity (ty : Ty) (op : Nat) : Nat :=
  match op with
  | 2 => if ty == .f32 then 0x7F800000 else encodeI ty false (Ty.range ty).2
  | 3 => if ty == .f32 then 0xFF800000 else encodeI ty false (Ty.range ty).1
  | 4 => ones ty
  | _ => 0

/-- XLRED: every active member receives the whole fold (06 R171). -/
def execXlred (x : Arith) (s : State) : Host.Outcome State Fault Refusal :=
  laneTeam (.xlred x) (fun s0 ms _ =>
    let r := ((prefixes x.ty (x.fld 16 4).toNat (ms.map fun m => s0.argA m x)).getLast?).getD (0, 0)
    { d := x.d, w := x.ty.regWidth, val := r.1, flags := r.2 }) s

/-- XLSCAN: a member receives the fold up to itself, or of those before it (06 R171). -/
def execXlscan (x : Arith) (s : State) : Host.Outcome State Fault Refusal :=
  laneTeam (.xlscan x) (fun s0 ms th =>
    let op := (x.fld 16 4).toNat
    let rs := prefixes x.ty op (ms.map fun m => s0.argA m x)
    let i := (ms.takeWhile fun m => m.pos != th.pos).length
    let r : Nat × FFlags := if x.fld 20 1 == 1#1 then
        (if i == 0 then (scanIdentity x.ty op, 0) else rs.getD (i - 1) (0, 0))
      else rs.getD i (0, 0)
    { d := x.d, w := x.ty.regWidth, val := r.1, flags := r.2 }) s

/-- BALLOT: 06 R172. -/
def execBallot (x : Arith) (s : State) : Host.Outcome State Fault Refusal :=
  laneTeam (.ballot x) (fun _ ms _ =>
    { d := x.d, w := x.ty.regWidth, val := posMask ((ms.filter fun m => Arith.ps x m 16).map Thread.pos) }) s

/-- The test of a QUORUM mode on c true of m (06 R173). -/
def quorumMet (mode n c m : Nat) : Bool :=
  match mode with
  | 0 => c == 0
  | 1 => decide (1 ≤ c)
  | 2 => c == m
  | 3 => c == 0 || c == m
  | 4 => decide (n ≤ c)
  | _ => decide (m < 2 * c)

/-- QUORUM: 06 R173. -/
def execQuorum (x : Arith) (s : State) : Host.Outcome State Fault Refusal :=
  laneTeam (.quorum x) (fun _ ms _ =>
    let c := (ms.filter fun m => Arith.ps x m 16).length
    { d := x.d, w := 32, val := c
      pd := some (x.fld 20 3, quorumMet (x.fld 23 3).toNat (x.fld 26 6).toNat c ms.length) }) s

/-- PEER: 06 R174. -/
def execPeer (x : Arith) (s : State) : Host.Outcome State Fault Refusal :=
  laneTeam (.peer x) (fun s0 ms th =>
    let a := s0.argA th x
    let cls := (ms.filter fun m => s0.argA m x == a).map Thread.pos
    match (x.fld 16 2).toNat with
    | 0 => { d := x.d, w := 32, val := posMask cls, pd := some (x.fld 20 3, decide (1 < cls.length)) }
    | 1 => { d := x.d, w := 32, val := cls.length, pd := some (x.fld 20 3, cls.head? == some th.pos) }
    | _ =>
      let all := cls.length == ms.length
      { d := x.d, w := 32, val := if all then posMask cls else 0, pd := some (x.fld 20 3, all) }) s

/-! ### QBLK (06 R183) -/

/-- Largest exponent of a narrow format. -/
def emax : Ty → Int
  | .e4m3 => 8
  | .e5m2 => 15
  | .e3m2 => 4
  | _ => 2

/-- floor(log2) of a non-zero finite value. -/
def ilog2 : FVal → Int
  | .fin _ m e => e + Nat.log2 m
  | _ => 0

def absV : FVal → FVal
  | .fin _ m e => .fin false m e
  | .inf _ => .inf false
  | v => v

/-- The largest magnitude of a list of finite values. -/
def amaxV (vs : List FVal) : FVal := vs.foldl (fun m v => if ltV m (absV v) then absV v else m) (.fin false 0 0)

/-- An MX block's scale code and, when the block is finite and not all zero, the exponent of its scale. -/
def mxScale (fmt : Ty) (vs : List FVal) : Nat × Option Int :=
  if vs.any fun v => v.isNan || v.isInf then (0xFF, none)
  else
    let am := amaxV vs
    if am.isZero then (0, none)
    else
      let e := ilog2 am - emax fmt
      let e := if e < -127 then -127 else e
      ((e + 127).toNat, some e)

/-- One element under a block scale: x * 2^(-e) rounded to nearest, saturated. -/
def mxElem (fmt : Ty) (e : Option Int) (v : FVal) : FRes :=
  match e, v with
  | some e, .fin n m q => roundTo fmt .rne true (.fin n m (q - e))
  | _, _ => { bits := 0, flags := 0 }

/-- QBLK: the team's FP32 values as one MX block; absent positions count as zero (06 R183). -/
def execQblk (x : Arith) (s : State) : Host.Outcome State Fault Refusal :=
  laneTeam (.qblk x) (fun s0 ms th =>
    let val (m : Thread) : FVal := decodeF .f32 (s0.arg' m (litOf x.toOps4) .f32 x.a)
    let (sc, e) := mxScale x.ty (ms.map val)
    let r := mxElem x.ty e (val th)
    { d := x.d, w := 32, val := sc * 256 + r.bits, flags := r.flags ||| nvIf (val th).isSnan }) s

end Sys2Proof.Machine
end

