-- ==== Sys2Proof/Machine/Matrix.lean ====
section
/-! DEFINITION. Matrix operations: MMA and its grid operations, ACCZ, ACCLD and ACCST (12 R271 to R277, R281; 13). -/

namespace Sys2Proof.Machine

/-! ### The checks of an MMA (13 R301) -/

/-- The block in eight uniform registers (13 R295). -/
def State.blockAt (s : State) (th : Thread) (o : Opnd) : List Byte :=
  match o with
  | .k n => (List.range 8).flatMap fun i => toBytes 8 (s.getK th (n + BitVec.ofNat 8 i)).toNat
  | _ => []

/-- Class of an operand format (13 R297): narrow, half, TF32, integer. -/
def mmaClass (ty : Option Ty) : Nat :=
  match ty with
  | some .e4m3 | some .e5m2 | some .e3m2 | some .e2m3 | some .e2m1 => 1
  | some .f16 | some .bf16 => 2
  | some .tf32 => 3
  | some .i8 | some .i4 => 4
  | _ => 0

/-- A scale mode that a class accepts. -/
def modeOk (cls mode : Nat) (acci : Bool) : Bool := mode == 0 || (mode == 2 && !acci) || (mode == 1 && cls == 1)

/-- A handle that breaks 13 R296. -/
def handleBad (h : Dword) : Bool := !h.getLsbD 0 && h.toNat ≥ 2 ^ 32

/-- DESC (13 R301 step 3), over the fields read from the group at (x, z) of a harness of depth dp. -/
def mmaDesc (b : List Byte) (dp x z accwin : Nat) : Bool :=
  let p := parseParams b
  let step := p.kc * dp
  let wa := p.fa.width
  let frames := if p.sparse then 2 * p.passes dp else p.passes dp
  let saNone := p.sca == 0 && (p.saAddr != 0#64 || p.saStr != 0 || p.saExt != 0)
  let sbNone := p.scb == 0 && (p.sbAddr != 0#64 || p.sbStr != 0 || p.sbExt != 0)
  !zeros b 2 10 || !zeros b 0x13 1 || p.flags ≥ 8 || field b 0x16 2 ≥ 512 || field b 0 2 != 1
    || mmaClass p.ta == 0 || mmaClass p.ta != mmaClass p.tb || (p.acci && mmaClass p.ta != 4)
    || !modeOk (mmaClass p.ta) p.sca p.acci || !modeOk (mmaClass p.tb) p.scb p.acci
    || p.group ≥ 3 || (p.group != 0 && (p.sca == 1 || p.scb == 1)) || (p.isat && !p.acci)
    || p.m == 0 || 128 < p.m || p.k == 0 || p.k % step != 0 || step % p.l != 0
    || (p.sparse && p.frame % 2 != 0) || 512 < p.frame + frames || 8 * accwin < p.accRow + p.m
    || (x == 0 && (handleBad p.aAddr || p.aAddr.extractLsb' 1 3 != 0#3 || p.aStr % 16 != 0
      || (1 < p.m && p.aStr < (p.k * wa + 7) / 8)))
    || (x == 0 && z == 0 && (saNone || handleBad p.saAddr || (p.sca == 2 && p.saAddr.getLsbD 1)))
    || (z == 0 && (sbNone || handleBad p.sbAddr || (p.scb == 2 && p.sbAddr.getLsbD 1)))

/-- SCALE (13 R301 step 4). -/
def mmaScale (b : List Byte) (x z : Nat) : Bool :=
  let p := parseParams b
  (x == 0 && z == 0 && p.sca != 0 && (p.saExt * p.l < p.k || (1 < p.m && p.saStr < p.saExt * scaleSize p.sca)))
    || (z == 0 && p.scb != 0 && (p.sbExt * p.l < p.k || p.sbStr < p.sbExt * scaleSize p.scb))

/-- One range of step 5: its handle, offset and length. A non-canonical address is reported as R362 has addresses, a scratchpad range
beyond its end with ADDR 0 (DEDUCED, logs 15 and 33). -/
def State.mmaRange (s : State) (th : Thread) (r : Dword × Nat × Nat) : Option Bad :=
  let (h, o, n) := r
  if n == 0 then none
  else if h.getLsbD 0 then
    let a := (h &&& ~~~1#64) + BitVec.ofNat 64 o
    let last := a + BitVec.ofNat 64 (n - 1)
    if !canonical (s.spaceOf th) a || !canonical (s.spaceOf th) last then some { cause := .range, addr := a }
    else if inWindow s.img.stkBase a then some { cause := .prot, addr := a }
    else if inWindow s.img.stkBase last then some { cause := .prot, addr := s.img.stkBase }
    else none
  else if s.scratch th < h.toNat + o + n then some { cause := .range }
  else s.ownerTrap th (h.toNat + o) n true

/-- Every check of an MMA after SLOT, in order. -/
def State.mmaBad (s : State) (th : Thread) (g : Group) (b : List Byte) : Option Bad :=
  match g.hitched with
  | none => some { cause := .harness }
  | some h =>
    if s.unhitchPending g.id || s.gangBroken g then some { cause := .harness }
    else if mmaDesc b (2 ^ h.dp) g.posX g.posZ g.hdr.accwin then some { cause := .desc }
    else if mmaScale b g.posX g.posZ then some { cause := .scale }
    else ((parseParams b).supplied (2 ^ h.dp) g.posX g.posZ).findSome? (s.mmaRange th)

/-! ### Forming an operation (13 R302) -/

/-- The group's next member: its MMA issued first. -/
def State.mmaWaiter (s : State) (gid : Nat) : Option Thread :=
  (s.live gid).foldl (fun best th =>
    match th.hold with
    | .mma .. => match best with
      | some b => if th.holdSeq < b.holdSeq then some th else best
      | none => some th
    | _ => best) none

/-- A member of an operation: its group, its thread, its block and its slot. -/
structure Member where
  g : Group
  th : Thread
  block : List Byte
  slot : Option Nat
  deriving DecidableEq, Repr

/-- The fields that all groups must agree on (13 R299). -/
def agreed (b : List Byte) : List Byte :=
  b.take 2 ++ (b.drop 0x0C).take 7 ++ (b.drop 0x14).take 2 ++ (b.drop 0x18).take 4

/-- Frames that an operation reads on one core. -/
def Params.frames (p : Params) (dp : Nat) : List Nat :=
  (List.range (if p.sparse then 2 * p.passes dp else p.passes dp)).map (· + p.frame)

/-- The plane that an operation reads: the live one, after the swap of a FRESH frame (12 R281). -/
def Frame.opPlane (x : Frame) : Bool := x.live != x.fresh

/-- The copies that an operation reads are usable (12 R281). -/
def copiesOk (g : Group) (p : Params) (dp : Nat) : Bool :=
  let at_ (f : Nat) : FrameCopy := let x := g.frameAt f; x.copy x.opPlane
  (List.range (p.passes dp)).all fun i =>
    if p.sparse then
      let a := at_ (p.frame + 2 * i)
      let b := at_ (p.frame + 2 * i + 1)
      (a.st == .loading || a.st == .valid) && (b.st == .loading || b.st == .valid) && a.kind == .values && b.kind == .meta_
        && a.pair == b.pair
    else
      let a := at_ (p.frame + i)
      (a.st == .loading || a.st == .valid) && a.kind == .dense

/-- A TAKE that waits for a member waits for its command from now on. -/
def Hold.follow (h : Hold) (old new : Nat) : Hold :=
  let f (l : List Nat) : List Nat := l.map fun i => if i == old then new else i
  match h with
  | .take bs cmds => .take bs (f cmds)
  | .takeWin cmds => .takeWin (f cmds)
  | h => h

/-- A group's part of a formed operation: FRESH frames swap, its command takes its place, its thread goes on. -/
def State.joinOp (s : State) (op : Nat) (m : Member) (dp : Nat) : State × (Nat × Nat) :=
  let (id, s1) := s.newId
  let p := parseParams m.block
  let c : Cmd :=
    { id := id, thread := m.th.id, pc := m.th.pc, words := m.th.holdWords, slot := m.slot, before := earlierAccesses m.th
      kind := .grid op m.block dp m.g.posX m.g.posZ }
  let s2 := s1.modGroup m.g.id fun g =>
    let g1 := (p.frames dp).foldl (fun g f => let x := g.frameAt f; g.setFrame { x with live := x.opPlane, fresh := false }) g
    { g1 with seq := g1.seq + 1, cmds := g1.cmds ++ [{ c with seq := g1.seq }] }
  let s3 := s2.mapThreads fun y => if y.group == m.g.id && y.hold.isTake then { y with hold := y.hold.follow m.th.holdSeq id } else y
  (s3.modThread m.th.id fun y => { y.release with cnt := { y.cnt with tiles := y.cnt.tiles + 1 } }, (m.g.id, id))

/-- GRID_OP_FORM: the last member has arrived (13 R302). Where the blocks differ, the threads that wait for this operation trap, one of
each group; a second thread of a group waits for a later operation and stays (DESIGN CHOICE, log 33). -/
def State.tryForm (s : State) (g0 : Group) : State :=
  let gs := s.gangGroups g0.gang
  let ms := gs.filterMap fun g => (s.mmaWaiter g.id).bind fun th => match th.hold with
    | .mma b slot => some ({ g := g, th := th, block := b, slot := slot } : Member)
    | _ => none
  match g0.hitched, ms with
  | some h, m0 :: _ =>
    let dp := 2 ^ h.dp
    if ms.length != gs.length then s
    else if (ms.all fun m => agreed m.block == agreed m0.block) && (ms.all fun m => copiesOk m.g (parseParams m.block) dp) then
      let (op, s1) := s.newId
      let planes := ms.flatMap fun m => ((parseParams m.block).frames dp).map fun f => (m.g.id, f, (m.g.frameAt f).opPlane)
      let (s2, cs) := ms.foldl (fun (a : State × List (Nat × Nat)) m =>
        match a.1.joinOp op m dp with
        | (t, c) => (t, a.2 ++ [c])) (s1, [])
      { s2 with grids := s2.grids ++ [{ id := op, gang := g0.gang, members := cs, blocks := ms.map fun m => (m.g.id, m.block)
                                        planes := planes }] }
    else ms.foldl (fun s m => s.trapHeld m.th .harness 0 0) s
  | _, _ => s

/-- MMA: 13 R300 to R302. -/
def execMma (x : Desc) (s : State) : Host.Outcome State Fault Refusal :=
  runTeam (.mma x) (fun s0 s1 th =>
    let slot := s0.slotOperand th x
    let b := s0.blockAt th x.a
    match s1.slotBad th slot, s1.group? th.group with
    | some w, _ => .trap s1 .slot 0 w
    | none, none => .trap s1 .harness 0 0
    | none, some g =>
      match s1.mmaBad th g b with
      | some e => .trap s1 e.cause e.addr e.detail
      | none => if 63 ≤ th.cnt.tiles then .stall s1
        else .stall ((s1.holdAt th.id (.mma x) (.mma b (slot.map (·.toNat)))).tryForm g)) s

/-! ### The grid (12 R271 to R273, 13 R303) -/

/-- The group of a harness at (x, z), with the block it supplied. -/
def State.cellGroup (s : State) (o : GridOp) (x z : Nat) : Option (Group × Params) :=
  o.blocks.findSome? fun (gid, b) => (s.group? gid).bind fun g =>
    if g.posX == x && g.posZ == z then some (g, parseParams b) else none

/-- Reads n bytes at an offset from a handle for an operation (13 R296). -/
def State.handleRead (s : State) (op : Nat) (g : Group) (h : Dword) (o n : Nat) : State × Got (List Byte) :=
  if h.getLsbD 0 then
    s.agentRead (.cmd op) (s.groupSpace g) false 1 false (n / 4096 + 2) ((h &&& ~~~1#64) + BitVec.ofNat 64 o) n
  else (s, .ok (g.spad.load (h.toNat + o) n))

/-- Reads several ranges, each from a group; a stop names the group. -/
def State.handleReads (s : State) (op : Nat) :
    List (Group × Dword × Nat × Nat) → State × Except (Group × Got (List Byte)) (List (List Byte))
  | [] => (s, .ok [])
  | (g, h, o, n) :: rest =>
    match s.handleRead op g h o n with
    | (s1, .ok bs) =>
      match State.handleReads s1 op rest with
      | (s2, .ok l) => (s2, .ok (bs :: l))
      | r => r
    | (s1, w) => (s1, .error (g, w))

/-- Bytes of an A slot (12 R277). -/
def Params.slotBytes (p : Params) : Nat := if p.sparse then 512 else 256

/-- The A slot in which row m of a row block stands; the device may choose any. -/
def aSlotAt (g : Group) (p : Params) (m : Nat) : Nat := p.slotBytes * (m % (512 * g.hdr.awin / p.slotBytes))

/-- B of one column of one core in a pass: for each k of the core, the element, or none where it is pruned (12 R278, R279). -/
def bColumn (g : Group) (planes : List (Nat × Nat × Bool)) (p : Params) (pass c : Nat) : List (Option Nat) :=
  let data (f : Nat) : Memory :=
    match planes.find? fun q => q.1 == g.id && q.2.1 == f with
    | some q => ((g.frameAt f).copy q.2.2).data
    | none => []
  let w := p.fb.width
  if p.sparse then
    let vs := ofBytes ((data (p.frame + 2 * pass)).load (256 * c) 256)
    let ms := ofBytes ((data (p.frame + 2 * pass + 1)).load (256 * c) 256)
    (List.range p.kc).map fun k =>
      let j := k / 4
      let nib := ms / 2 ^ (4 * j) % 16
      let v (i : Nat) : Nat := vs / 2 ^ (w * (2 * j + i)) % 2 ^ w
      if nib % 4 == k % 4 then some (v 0) else if nib / 4 == k % 4 then some (v 1) else none
  else (unpack w p.kc (ofBytes ((data (p.frame + pass)).load (256 * c) 256))).map some

/-- Scale j of a list of scale bytes. -/
def scaleAt (mode : Nat) (bs : List Byte) (j : Nat) : FVal :=
  match mode with
  | 0 => .fin false 1 0
  | 1 => scaleV (field bs j 1)
  | _ => decodeF .f32 (field bs (4 * j) 4)

/-- Pairs of one block that are not pruned. -/
def blockPairs (as_ : List Nat) (bs : List (Option Nat)) : List (Nat × Nat) :=
  (as_.zip bs).filterMap fun q => q.2.map fun b => (q.1, b)

/-- Blocks of one element in ascending k, floating point (03 R87, R89); j0 is the first block's place among the scales. -/
def sumFloat (p : Params) (sa sb : List Byte) (j0 : Nat) : Nat → List Nat → List (Option Nat) → FRes → FRes
  | 0, _, _, acc => acc
  | n + 1, as_, bs, acc =>
    let r := blockStep acc.bits (blockOf p.fa p.fb (blockPairs (as_.take p.l) (bs.take p.l))) (scaleAt p.sca sa j0)
      (scaleAt p.scb sb j0)
    sumFloat p sa sb (j0 + 1) n (as_.drop p.l) (bs.drop p.l) { r with flags := r.flags ||| acc.flags }

/-- Blocks of one element, integers (13 R303). -/
def sumInt (p : Params) : Nat → List Nat → List (Option Nat) → Int → Int
  | 0, _, _, acc => acc
  | n + 1, as_, bs, acc =>
    let x := (blockPairs (as_.take p.l) (bs.take p.l)).foldl (fun t q => t + decodeI p.fa q.1 * decodeI p.fb q.2) acc
    sumInt p n (as_.drop p.l) (bs.drop p.l) (decodeI .i32 (encodeI .i32 p.isat x))

/-- One accumulator word after a pass; the scale bytes are those of the pass's blocks. -/
def accWord (p : Params) (sa sb : List Byte) (nb : Nat) (as_ : List Nat) (bs : List (Option Nat)) (old : Nat) : FRes :=
  if p.acci then { bits := encodeI .i32 false (sumInt p nb as_ bs (decodeI .i32 old)) }
  else sumFloat p sa sb 0 nb as_ bs { bits := old }

/-- A group's accumulator word at a row and a column of its core (12 R276). -/
def Group.accAt (g : Group) (row c : Nat) : Nat := ofBytes (g.acc.load (64 * row + 4 * c) 4)

/-! ### GRID_PASS_END -/

/-- The operation's members with their commands. -/
def State.opMembers (s : State) (o : GridOp) : List (Group × Cmd) :=
  o.members.filterMap fun (gid, cid) => (s.group? gid).bind fun g => (g.cmds.find? fun c => c.id == cid).map fun c => (g, c)

/-- What rows r0 to r1 - 1 of a pass touch on one core (13 R304). -/
def rowTouches (base : Dword) (c : Cmd) (p : Params) (r0 r1 : Nat) : List Touch :=
  (c.touches base).map fun t => if t.cls == 1 then { t with off := 64 * (p.accRow + r0), len := 64 * (r1 - r0) } else t

/-- A BLOAD of the group that writes a copy of the pass has not retired. -/
def loadPending (g : Group) (c : Cmd) (o : GridOp) (fs : List Nat) : Bool :=
  g.cmds.any fun x => x.id < c.id && x.loads.any fun q => fs.contains q.1 && o.planes.any fun r => r.1 == g.id && r.2 == q

/-- A member may run rows r0 to r1 - 1 of the operation's pass. -/
def State.memberReady (s : State) (o : GridOp) (p : Params) (r0 r1 : Nat) (m : Group × Cmd) : Bool :=
  let f := (o.blocks.find? fun b => b.1 == m.1.id).map fun b => (parseParams b.2).frame
  let fs := if p.sparse then [f.getD 0 + 2 * o.pass, f.getD 0 + 2 * o.pass + 1] else [f.getD 0 + o.pass]
  engineRuns m.1 && m.2.fault.isNone && m.2.tag.isNone && s.beforeDone m.2 && !loadPending m.1 m.2 o fs
    && !s.conflicts m.1 m.2 (rowTouches s.img.spBase m.2 p r0 r1)

/-- Puts the A slices of a row block into the A windows of every core (12 R277, R291); `rows` holds, for each depth, the bytes
of each row. -/
def State.fillA (s : State) (ms : List (Group × Cmd)) (p : Params) (r0 : Nat) (rows : List (List (List Byte))) : State :=
  ms.foldl (fun s m => s.modGroup m.1.id fun g =>
    let mine := rows.getD g.posZ []
    (List.range mine.length).foldl (fun g i => { g with awin := g.awin.store (aSlotAt g p (r0 + i)) (mine.getD i []) }) g) s

/-- Row m of A as the cores of the harness at column block x hold it, depth by depth. -/
def State.rowA (s : State) (o : GridOp) (p : Params) (dp x m : Nat) : List Nat :=
  (List.range dp).flatMap fun z =>
    match s.cellGroup o x z with
    | some (g, _) => unpack p.fa.width p.kc (ofBytes (g.awin.load (aSlotAt g p m) (p.kc * p.fa.width / 8)))
    | none => []

/-- One row of one accumulating core. `cols` has its 16 columns of B with their scales. -/
def State.passRow (s : State) (o : GridOp) (p : Params) (dp x m : Nat) (sa : List Byte)
    (cols : List (List (Option Nat) × List Byte)) : State :=
  match s.cellGroup o x (dp - 1) with
  | none => s
  | some (g, _) =>
    let nb := p.kc * dp / p.l
    let as_ := s.rowA o p dp x m
    let rs := (List.range 16).map fun c =>
      let b := cols.getD c ([], [])
      accWord p sa b.2 nb as_ b.1 (g.accAt (p.accRow + m) c)
    let s1 := s.modGroup g.id fun y =>
      { y with acc := y.acc.store (64 * (p.accRow + m)) (rs.flatMap fun r => toBytes 4 r.bits) }
    { s1 with grids := s1.grids.map fun q =>
        if q.id == o.id then { q with flags := rs.foldl (fun f r => f ||| r.flags) q.flags } else q }

/-- Rows r0 to r1 - 1 of the current pass run on the whole harness. -/
def State.runRows (s : State) (o : GridOp) (ms : List (Group × Cmd)) (p : Params) (w dp r0 r1 : Nat)
    (sas : List (List Byte)) (sbs : List (List Byte)) (rows : List (List (List Byte))) : State :=
  (List.range (r1 - r0)).foldl (fun s i =>
    let s1 := s.fillA ms p (r0 + i) (rows.map fun l => [l.getD i []])
    (List.range w).foldl (fun s x =>
      let cols := (List.range 16).map fun c =>
        ((List.range dp).flatMap fun z => match s.cellGroup o x z with
          | some (g, q) => bColumn g o.planes q o.pass c
          | none => [], sbs.getD (16 * x + c) [])
      s.passRow o p dp x (r0 + i) (sas.getD i []) cols) s1) s

/-- The ranges that a row block reads: A's slices by depth, A's scales by row, B's scales by column; the scales are those of the
pass's blocks (13 R298). -/
def State.rowReads (s : State) (o : GridOp) (p : Params) (w dp r0 r1 : Nat) :
    List (Group × Dword × Nat × Nat) × List (Group × Dword × Nat × Nat) × List (Group × Dword × Nat × Nat) :=
  let n := p.kc * p.fa.width / 8
  let nb := p.kc * dp / p.l
  let as_ := (List.range dp).flatMap fun z => match s.cellGroup o 0 z with
    | some (g, q) => (List.range (r1 - r0)).map fun i =>
      (g, q.aAddr, (r0 + i) * q.aStr + (o.pass * p.kc * dp + z * p.kc) * p.fa.width / 8, n)
    | none => []
  let sas := if p.sca == 0 then [] else match s.cellGroup o 0 0 with
    | some (g, q) => (List.range (r1 - r0)).map fun i => (g, q.saAddr, (r0 + i) * q.saStr + o.pass * nb * scaleSize p.sca, nb * scaleSize p.sca)
    | none => []
  let sbs := if p.scb == 0 then [] else (List.range w).flatMap fun x => match s.cellGroup o x 0 with
    | some (g, q) => (List.range 16).map fun c => (g, q.sbAddr, c * q.sbStr + o.pass * nb * scaleSize p.scb, nb * scaleSize p.scb)
    | none => []
  (as_, sas, sbs)

/-- A read of an operation that waits for a page, or has failed. -/
def State.opStop (s : State) (o : GridOp) (e : Group × Got (List Byte)) : State :=
  match e with
  | (_, .fail f va) => { s with grids := s.grids.map fun q => if q.id == o.id then { q with fault := some (f, va) } else q }
  | (g, r) =>
    match o.members.find? fun m => m.1 == g.id with
    | some (_, cid) => match (s.cmd? cid).map (·.2) with
      | some c => s.pieceStop g c r
      | none => s
    | none => s

/-- Rows of the current pass up to r1 are done; the pass ends with the last. -/
def State.rowsDone (s : State) (op m r1 : Nat) : State :=
  { s with grids := s.grids.map fun q =>
      if q.id == op then (if m ≤ r1 then { q with pass := q.pass + 1, rows := 0 } else { q with rows := r1 }) else q }

/-- The grid of the group's gang admits no further row block: a halt of its launch has been requested, or a group of the gang is away
(12 R291, 17 R375). -/
def State.halting (s : State) (g : Group) : Bool :=
  (match s.launch? g.launch with
  | some l => l.state == .saving
  | none => false) || (s.gangGroups g.gang).any fun y => y.res == .saved || y.res == .evicted || y.res == .restoring

/-- Row blocks of an operation's pass: `n` of them, or all that are left. -/
def State.gridRun (s : State) (o : GridOp) (n : Nat) : State :=
  match o.blocks, s.opMembers o with
  | (_, b0) :: _, (g0, c0) :: ms0 =>
    let ms := (g0, c0) :: ms0
    let p := parseParams b0
    match g0.hitched with
    | none => s
    | some h =>
      let w := 2 ^ h.w
      let dp := 2 ^ h.dp
      let r0 := o.rows
      let r1 := if n == 0 then p.m else min p.m (r0 + 8 * n)
      if o.fault.isSome || p.passes dp ≤ o.pass || s.halting g0 || !(ms.all (s.memberReady o p r0 r1)) then s
      else
        let (ra, rsa, rsb) := s.rowReads o p w dp r0 r1
        match s.handleReads o.id (ra ++ rsa ++ rsb) with
        | (s1, .error e) => s1.opStop o e
        | (s1, .ok l) =>
          let k := r1 - r0
          let rows := (List.range dp).map fun z => (l.drop (z * k)).take k
          let s2 := (s1.farDone (.cmd o.id)).runRows o ms p w dp r0 r1 ((l.drop ra.length).take rsa.length) (l.drop (ra.length + rsa.length)) rows
          s2.rowsDone o.id p.m r1
  | _, _ => s

/-- GRID_PASS_END: row blocks of the pass run through the grid and their accumulator words are written; with the last the pass
ends (12 R272, R291, 13 R303). -/
def execGridPassEnd (s : State) : Host.Outcome State Fault Refusal :=
  match s.grids.find? fun o => o.id == s.arg.a with
  | some o => .next (s.gridRun o s.arg.n)
  | none => .next s

/-! ### Retirement and faults (13 R305, R306) -/

/-- Flags of a launch's engines, walks and atomics go to its sticky flag word (09 R229). -/
def State.stickyLaunch (s : State) (lid : Nat) (f : FFlags) : State :=
  s.modLaunch lid fun l => if f == 0#5 || l.lr.flagWord >>> 2 == 0#64 then l else { l with flagOrs := l.flagOrs ++ [f] }

/-- The flags of an operation are recorded in every group of its harness. -/
def State.recordFlags (s : State) (o : GridOp) : State :=
  let s1 := o.members.foldl (fun s m => s.modGroup m.1 fun g => { g with tileFlags := g.tileFlags ||| o.flags }) s
  match o.members.head?.bind fun m => s.group? m.1 with
  | some g => s1.stickyLaunch g.launch o.flags
  | none => s1

def State.dropOp (s : State) (op : Nat) : State :=
  State.farDrop { s with grids := s.grids.filter fun q => q.id != op } (.cmd op)

/-- GRID_OP_RETIRE: every accumulator word holds its final value; flags, slot events and counters follow (13 R305). -/
def execGridOpRetire (s : State) : Host.Outcome State Fault Refusal :=
  match s.grids.find? fun o => o.id == s.arg.a with
  | none => .next s
  | some o =>
    let done := (s.opMembers o).any fun m => match m.2.kind with
      | .grid _ b dp _ _ => (parseParams b).passes dp ≤ o.pass
      | _ => false
    .next (if !done || o.fault.isSome || !((s.opMembers o).all fun m => engineRuns m.1) then s
      else (s.opMembers o).foldl (fun s m =>
        let s1 := match m.2.slot with
          | some k => s.slotEvent m.1.id k 1 0 0 (some m.2.issuer)
          | none => s
        s1.retireTile m.1.id m.2) ((s.recordFlags o).dropOp o.id))

/-- GRID_OP_FAULT: an operation that met a fault stops with the passes that had finished (13 R306). -/
def execGridOpFault (s : State) : Host.Outcome State Fault Refusal :=
  match s.grids.find? fun o => o.id == s.arg.a with
  | none => .next s
  | some o =>
    let ms := s.opMembers o
    match (if o.fault.isSome then o.fault else ms.findSome? fun m => m.2.fault) with
    | none => .next s
    | some (f, a) =>
      .next (if !(ms.all fun m => engineRuns m.1) then s
        else ms.foldl (fun s m => (s.cmdFault m.1 m.2 f a).retireTile m.1.id m.2) ((s.recordFlags o).dropOp o.id))

/-! ### ACCZ, ACCLD, ACCST (13 R308 to R313) -/

/-- The checks of an accumulator command in the order of 13 R309's table: SLOT, HARNESS, the rows, then what the scratchpad range
needs (log 67). `extra`: a row count that R311 does not accept. -/
def State.accBad (s : State) (th : Thread) (slot : Option Word) (r0 n : Nat) (extra : Bool) (a : Option (Dword × Nat)) :
    Option Bad :=
  match s.slotBad th slot, s.group? th.group with
  | some w, _ => some { cause := .slot, detail := w }
  | none, none => some { cause := .harness }
  | none, some g =>
    if s.unhitchPending g.id then some { cause := .harness }
    else if n < 1 || 8 * g.hdr.accwin < r0 + n || extra then some { cause := .range }
    else match a with
      | none => none
      | some (va, len) =>
        if !canonical (s.spaceOf th) va || !inWindow s.img.spBase va then some { cause := .range, addr := va }
        else if va.toNat % 4 != 0 then some { cause := .misalign, addr := va }
        else
          let o := (va - s.img.spBase).toNat
          if s.scratch th < o + len then some { cause := .range, addr := va } else s.ownerTrap th o len true

/-- Issue of an accumulator command whose checks have passed. -/
def State.issueAcc (s : State) (th : Thread) (i : Instr) (kind : CmdKind) (slot : Option Word) (rs : List (Dword × Nat)) : Res :=
  if 63 ≤ th.cnt.tiles then .stall s
  else .done ((s.issueCmd th i kind (slot.map (·.toNat)) [] (accessesTo th rs)).modThread th.id fun y =>
    { y with cnt := { y.cnt with tiles := y.cnt.tiles + 1 } })

/-- The row count of the accumulator commands. -/
def State.rowCount (s : State) (th : Thread) (x : Desc) : Nat := (s.raw32 th x.toOps4 x.c).toNat

/-- ACCZ: 13 R310. -/
def execAccz (x : Desc) (s : State) : Host.Outcome State Fault Refusal :=
  runTeam (.accz x) (fun s0 s1 th =>
    let r0 := (s0.b32 th x).toNat
    let n := s0.rowCount th x
    match s1.accBad th none r0 n false none with
    | some e => .trap s1 e.cause e.addr e.detail
    | none => s1.issueAcc th (.accz x) (.accz r0 n) none []) s

/-- ACCLD: 13 R310. -/
def execAccld (x : Desc) (s : State) : Host.Outcome State Fault Refusal :=
  runTeam (.accld x) (fun s0 s1 th =>
    let slot := s0.slotOperand th x
    let r0 := (s0.b32 th x).toNat
    let n := s0.rowCount th x
    let a := s0.a64 th x
    match s1.accBad th slot r0 n false (some (a, 64 * n)) with
    | some e => .trap s1 e.cause e.addr e.detail
    | none => s1.issueAcc th (.accld x) (.accld (a - s1.img.spBase).toNat r0 n) slot [(a, 64 * n)]) s

/-- A row count that the format of an ACCST does not accept (13 R311). -/
def accstUneven (n : Nat) (w2 : Word) : Bool :=
  (w2.getLsbD 1 && n % 32 != 0) || (Ty.isInt (accstDt w2) && n % accstGroup w2 != 0)

/-- ACCST: 13 R311. -/
def execAccst (x : Desc) (s : State) : Host.Outcome State Fault Refusal :=
  runTeam (.accst x) (fun s0 s1 th =>
    let slot := s0.slotOperand th x
    let r0 := (s0.b32 th x).toNat
    let n := s0.rowCount th x
    let a := s0.a64 th x
    let len := accstLen n x.w2
    match s1.accBad th slot r0 n (accstUneven n x.w2) (some (a, len)) with
    | some e => .trap s1 e.cause e.addr e.detail
    | none => s1.issueAcc th (.accst x) (.accst (a - s1.img.spBase).toNat r0 n x.w2) slot [(a, len)]) s

/-- An integer group: its scale and codes (13 R313). -/
def quantInt (dt : Ty) (xs : List Nat) : Nat × List FRes :=
  let qmax : Int := if dt == .i4 then 7 else 127
  let vs := xs.map (decodeF .f32)
  let zero : FRes := { bits := 0 }
  if vs.any fun v => v.isNan || v.isInf then (0x7FC00000, vs.map fun v => { bits := 0, flags := nvIf v.isSnan })
  else
    match amaxV vs with
    | .fin _ m e =>
      if m == 0 then (0x3F800000, vs.map fun _ => zero)
      else
        let sc := rne .f32 (divFin false m e false qmax.toNat 0)
        let sc := if sc == 0 then 1 else sc
        match decodeF .f32 sc with
        | .fin _ sm se =>
          (sc, vs.map fun v => match v with
            | .fin n m e =>
              match divFin n m e false sm se with
              | .fin _ qm qe =>
                let (k, exact) := roundAt .rne n qm qe 0
                let i : Int := if n then -(k : Int) else k
                let j := max (-qmax) (min qmax i)
                { bits := encodeI dt false j, flags := if exact && i == j then 0 else fNX }
              | _ => zero
            | _ => zero)
        | _ => (sc, [])
    | _ => (0, [])

/-- An MX block: its scale code and element codes (13 R312). -/
def quantMx (dt : Ty) (xs : List Nat) : Nat × List FRes :=
  let vs := xs.map (decodeF .f32)
  let (sc, e) := mxScale dt vs
  (sc, vs.map fun v => let r := mxElem dt e v; { r with flags := r.flags ||| nvIf v.isSnan })

/-- The codes of one column of an ACCST with its scales: rows in blocks of `size`. -/
def accstColumn (dt : Ty) (mx sat : Bool) (size : Nat) (xs : List Nat) : List Nat × List FRes :=
  if mx || Ty.isInt dt then
    let bs := (List.range (xs.length / size)).map fun b =>
      (if mx then quantMx dt else quantInt dt) ((xs.drop (size * b)).take size)
    (bs.map (·.1), bs.flatMap (·.2))
  else if dt == .b32 then ([], xs.map fun x => { bits := x })
  else ([], xs.map fun x => cvtVal dt .f32 .rne sat x)

/-- What ACCST writes: the offset of each run of bytes with the bytes, how many it writes, and its flags. -/
def accstRuns (g : Group) (r0 n : Nat) (w2 : Word) : List (Nat × List Byte) × Nat × FFlags :=
  let dt := accstDt w2
  let mx := w2.getLsbD 1
  let size := if mx then 32 else accstGroup w2
  let cols := (List.range 16).map fun c =>
    accstColumn dt mx (w2.getLsbD 2) size ((List.range n).map fun i => g.accAt (r0 + i) c)
  let rows := (List.range n).map fun i =>
    (i * accstPitch w2, toBytes (accstRow w2) (pack dt.width (cols.map fun c => ((c.2[i]?).map FRes.bits).getD 0)))
  let nb := if accstScales n w2 == 0 then 0 else n / size
  let scales := (List.range nb).flatMap fun b => cols.flatMap fun c => toBytes (if mx then 1 else 4) (c.1.getD b 0)
  let fl := cols.foldl (fun f c => c.2.foldl (fun f r => f ||| r.flags) f) 0
  (rows ++ [(n * accstPitch w2, scales)], n * accstRow w2 + scales.length, fl)

/-- An accumulator command acts on its words: the bytes that its slot event counts and its flags (13 R310, R311). -/
def Group.accRun (g : Group) (k : CmdKind) : Group × Nat × FFlags :=
  match k with
  | .accz r0 n => ({ g with acc := g.acc.store (64 * r0) (List.replicate (64 * n) 0) }, 0, 0)
  | .accld a r0 n => ({ g with acc := g.acc.store (64 * r0) (g.spad.load a (64 * n)) }, 64 * n, 0)
  | .accst a r0 n w2 =>
    let (rs, total, f) := accstRuns g r0 n w2
    ({ g with spad := rs.foldl (fun m r => m.store (a + r.1) r.2) g.spad }, total, f)
  | _ => (g, 0, 0)

/-- ACC_CMD_RETIRE: an accumulator command's reads and writes are done; its flags, slot event and counter follow (13 R309). One that
met uncorrectable data stops as an operation does (R306). -/
def execAccCmdRetire (s : State) : Host.Outcome State Fault Refusal :=
  match s.cmd? s.arg.a with
  | none => .next s
  | some (g, c) =>
    match c.kind with
    | .accz .. | .accld .. | .accst .. =>
      .next (
        if !engineRuns g || !s.beforeDone c || s.conflicts g c (c.touches s.img.spBase) then s
        else match c.fault with
        | some (f, a) => (s.cmdFault g c f a).retireTile g.id c
        | none =>
          let (g1, b, f) := g.accRun c.kind
          let s1 := (s.setGroup { g1 with tileFlags := g1.tileFlags ||| f }).stickyLaunch g.launch f
          let s2 := match c.slot with
            | some k => s1.slotEvent g.id k 1 0 b (some c.issuer)
            | none => s1
          s2.retireTile g.id c)
    | _ => .next s

end Sys2Proof.Machine
end

