-- ==== Sys2Proof/Machine/Place.lean ====
section
/-! DEFINITION. The dispatcher: what fits a core, reservations and ageing (05 R137, 12 R274, 21 R428 to R430), the start of
groups (05 R136, R139, R152, R153), the end of groups and launches (05 R138, R155, 11 R247, 21 R424, R425). -/

namespace Sys2Proof.Machine

/-! ### What fits a core (05 R137) -/

/-- Words that a group takes on a lane; `n` threads of quadrant `q` for a spawned group. -/
def Header.words (h : Header) (n q lane : Nat) : Nat :=
  if n == 0 then
    ((List.range 4).map fun i =>
      let t := h.threads.getD i 0
      if lane < t then ((t - 1 - lane) / 128 + 1) * (h.regs.getD i 0) * 8 else 0).foldl (· + ·) (h.accwin + h.awin)
  else if 32 * q ≤ lane && lane < 32 * q + n then h.regs.getD 0 0 * 8 else 0

/-- A group that holds its core's registers. -/
def Group.holds (g : Group) : Bool := g.res == .running || g.res == .ended || g.res == .restoring

/-- Slots that a group holds on its core: a retained group only those with a continuation (11 R247). -/
def Group.slotsHeld (g : Group) : Nat :=
  if g.res == .retained then (g.slots.filter fun x => x.cont.isSome).length else if g.holds then g.hdr.slots else 0

def sum (l : List Nat) : Nat := l.foldl (· + ·) 0

/-- A group with this header fits beside those given; `n` and `q` as for a spawned group. -/
def fitsWith (gs : List Group) (h : Header) (n q : Nat) : Bool :=
  let rs := gs.filter Group.holds
  rs.length + 1 ≤ 16
    && sum (rs.map fun g => g.hdr.uniforms) + h.uniforms ≤ 4096
    && sum (rs.map fun g => g.hdr.scratch) + h.scratch ≤ 524288
    && sum (gs.map Group.slotsHeld) + h.slots ≤ 64
    && (h.accwin == 0 || rs.all fun g => g.hdr.accwin == 0)
    && (List.range 128).all fun l => sum (rs.map fun g => g.hdr.words g.spawned g.quad l) + h.words n q l ≤ 512

/-- Groups on a core position. -/
def State.onCore (s : State) (core : Nat) : List Group := s.groups.filter fun g => g.core == core

/-- Quadrants in which a gang's group fits a core; a group dealt from lane 0 has the one entry 0. -/
def State.quads (s : State) (core : Nat) (h : Header) (n : Nat) (q : Option Nat) : List Nat :=
  let gs := s.onCore core
  (if n == 0 then [0] else match q with
    | some q => [q]
    | none => [0, 1, 2, 3]).filter fun q => fitsWith gs h n q

/-! ### Which cores a gang may take (21 R428, R429) -/

/-- What a gang's groups need: the header, the threads of a spawned group, how many groups, a fixed quadrant. -/
structure Need where
  hdr : Header
  n : Nat
  count : Nat
  quad : Option Nat := none
  deriving DecidableEq, Repr

/-- Nothing outstanding can still write the image of a saved group (17 R376), and every write that comes before what its threads do
next has performed, since a save and a restore order them for any core (08 R213). An access that waits for a page, or behind one that
does, is retried after the restore (18 R391). -/
def State.quiet (s : State) (g : Group) : Bool :=
  let later := s.stuckIds
  let done (i : Nat) : Bool := later.contains i || s.ended i
  (s.threads.all fun x => !(x.unit == .device && x.group == g.id)
      || ((x.ops.all fun a => later.contains a.id) && (x.saw ++ x.heard).all done))
    && (g.kdeps.all fun e => e.2.all done) && (s.rels.all fun t => t.group != g.id || t.deps.all done)
    && !(g.cmds.any fun c => (c.touches s.img.spBase).any (fun t => t.cls == 0 && t.wr) && (match c.kind with
      | .copy .. | .copyt .. => true
      | _ => false))

/-- What a pending gang needs now; none when it cannot be considered. A gang of a saved launch is not, until the launch is resumed
(DESIGN CHOICE, log 52). -/
def State.need (s : State) (x : Gang) : Option Need :=
  match s.launch? x.launch with
  | none => none
  | some l =>
    if l.state != .live || x.tag.isSome then none
    else match x.saved with
      | g0 :: _ =>
        let gs := x.saved.filterMap s.group?
        match s.group? g0 with
        | some g =>
          if gs.all s.quiet then
            some { hdr := g.hdr, n := g.spawned, count := gs.length, quad := if g.spawned == 0 then none else some g.quad }
          else none
        | none => none
      | [] =>
        if x.spawned.isEmpty then some { hdr := l.hdr, n := 0, count := x.size }
        else match s.sideRead (.walk x.id) l x.entry 64 with
          | (_, .ok b) =>
            if spawnHeaderOk x.entry b then some { hdr := parseHeader b, n := x.spawned.length, count := 1 } else none
          | _ => none

/-- Class and acceptance of a gang's launch. -/
def State.rank (s : State) (x : Gang) : Nat × Nat :=
  match s.launch? x.launch with
  | some l => (l.lr.cls, l.accepted)
  | none => (4, 0)

/-- An aged gang keeps the core's cluster from groups of launches accepted later, of equal or lower class (21 R429). -/
def State.heldBack (s : State) (x : Gang) (cluster : Nat) : Bool :=
  s.gangs.any fun y => y.id != x.id && y.reserve == some cluster && (y.aged || y.since + 1400000 ≤ s.cycle)
    && (s.rank y).2 < (s.rank x).2 && (s.rank y).1 ≤ (s.rank x).1

/-- A core can take one of the gang's groups. Cores that a pending gang holds stay with it, also while its launch is saved (DESIGN CHOICE,
log 52). None can while the compute dies have no power (23 R438). -/
def State.able (s : State) (x : Gang) (nd : Need) (core : Nat) : Bool :=
  match x.at_ with
  | some c => c == core && !(s.quads core nd.hdr nd.n nd.quad).isEmpty
  | none =>
    s.power != .standby && !s.deadCores.contains core && !(s.gangs.any fun y => y.id != x.id && (y.cores.contains core || y.at_ == some core))
      && !s.heldBack x (core / 32) && !(s.quads core nd.hdr nd.n nd.quad).isEmpty

/-- Cores of a cluster that can take the gang's groups. -/
def State.ableIn (s : State) (x : Gang) (nd : Need) (cluster : Nat) : List Nat :=
  ((List.range 32).map (· + 32 * cluster)).filter (s.able x nd)

/-- The preferred stack of a launch's hints (21 R430). -/
def State.prefStack (s : State) (x : Gang) : Nat :=
  match s.launch? x.launch with
  | some l => field l.lr.hints 0x11 1
  | none => 255

/-- Clusters in which a gang fits; those of the preferred stack when there is a choice. -/
def State.clustersFor (s : State) (x : Gang) (nd : Need) : List Nat :=
  let cs := (List.range 16).filter fun c => nd.count ≤ (s.ableIn x nd c).length
  let mine := cs.filter fun c => c / 4 == s.prefStack x
  if mine.isEmpty then cs else mine

/-- Distinct numbers. -/
def distinct : List Nat → Bool
  | [] => true
  | x :: xs => !xs.contains x && distinct xs

/-- The cores that a gang takes: the ones the step names if they are right, otherwise the first that fit. -/
def State.coresFor (s : State) (x : Gang) (nd : Need) : Option (List Nat) :=
  match s.clustersFor x nd with
  | [] => none
  | c :: cs =>
    let a := s.arg.cores
    let right := a.length == nd.count && distinct a && (c :: cs).any fun k => a.all ((s.ableIn x nd k).contains)
    some (if right then a else (s.ableIn x nd c).take nd.count)

/-! ### The order of the dispatcher -/

/-- a comes before b. -/
def State.before (s : State) (a b : Gang) : Bool :=
  let (ca, ta) := s.rank a
  let (cb, tb) := s.rank b
  decide (ca < cb) || (ca == cb && (decide (ta < tb) || (ta == tb
    && (decide (a.index < b.index) || (a.index == b.index && decide (a.id < b.id))))))

def State.insertGang (s : State) (x : Gang) : List Gang → List Gang
  | [] => [x]
  | y :: ys => if s.before x y then x :: y :: ys else y :: s.insertGang x ys

/-- Pending gangs in order of class, acceptance and index. -/
def State.gangOrder (s : State) : List Gang := s.gangs.foldr s.insertGang []

/-- The cluster with the most cores for a gang, the lowest on a tie. -/
def State.bestCluster (s : State) (x : Gang) (nd : Need) : Nat :=
  ((List.range 16).foldl (fun (b : Nat × Nat) c =>
    let n := (s.ableIn x nd c).length
    if b.2 < n then (c, n) else b) (0, 0)).1

/-- SX.TVEC at group start (02 R66). -/
def vecAt (entry : Dword) (h : Header) : Dword := if h.tvec == 0 then 0 else entry + h.tvec.signExtend 64

/-- A new group of a gang. -/
def newGroup (id : Nat) (l : Launch) (x : Gang) (h : Header) (entry : Dword) (k : List Dword) (idx core quad : Nat) : Group :=
  { id := id, launch := l.id, gang := x.id, gangIdx := x.index, idx := idx, spawned := x.spawned.length, quad := quad, core := core
    hdr := h, entry := entry, k := Vector.ofFn fun i : Fin 256 => if i.val < h.uniforms then k.getD i.val 0 else 0
    slots := List.replicate h.slots {}, queues := List.replicate 8 {}, tvec := vecAt entry h }

/-- The module as the gangs after x find it once x is placed on its cores. -/
def State.withGang (s : State) (x : Gang) (nd : Need) (cores : List Nat) : State :=
  match s.launch? x.launch with
  | none => s
  | some l =>
    { s with
      gangs := s.gangs.filter fun y => y.id != x.id
      groups := s.groups ++ (List.range cores.length).map fun i =>
        let c := cores.getD i 0
        { newGroup s.nextId l x nd.hdr x.entry [] i c ((s.quads c nd.hdr nd.n nd.quad).headD 0) with spawned := nd.n } }

/-- A gang that does not fit reserves: its cluster once, then each core of it that can take a group. -/
def State.reserveFor (s : State) (x cluster : Nat) (cores : List Nat) : State :=
  { s with gangs := s.gangs.map fun g =>
      if g.id == x then
        { g with
          reserve := some cluster
          since := if g.reserve.isSome then g.since else s.cycle
          cores := g.cores ++ cores.filter fun c => !g.cores.contains c }
      else g }

/-- Gangs are considered in order: those that fit are answered, and each later one finds them placed; those that do not reserve, but
not a core that a gang before them is still to take. `v` is the module with the gangs so far placed, `used` their cores. -/
def State.consider (s v : State) (used : List Nat) (fits : List (Gang × Need)) : List Gang → State × List (Gang × Need)
  | [] => (s, fits)
  | x :: xs =>
    match v.need x with
    | none => s.consider v used fits xs
    | some nd =>
      match v.coresFor x nd with
      | some cs => s.consider (v.withGang x nd cs) (used ++ cs) (fits ++ [(x, nd)]) xs
      | none =>
        if x.at_.isSome then s.consider v used fits xs
        else
          let c := x.reserve.getD (v.bestCluster x nd)
          let cs := (v.ableIn x nd c).filter fun k => !used.contains k
          (s.reserveFor x.id c cs).consider (v.reserveFor x.id c cs) used fits xs

/-- Reservations are made (21 R428); the first gang that fits is answered with its cores. -/
def State.nextGang (s : State) : State × Option (Gang × Need × List Nat) :=
  match s.consider s [] [] s.gangOrder with
  | (s1, []) => (s1, none)
  | (s1, (x, nd) :: _) => (s1, (s1.coresFor x nd).map fun cs => (x, nd, cs))

/-! ### The start of groups (05 R136, R139) -/

/-- Threads of stage i of a group. -/
def stageThreads (h : Header) (gid : Nat) (entry : Dword) (code first i : Nat) : List Thread :=
  (List.range (h.threads.getD i 0)).map fun t =>
    { id := first + t, unit := .device, group := gid, pc := entry + 64, alloc := h.regs.getD i 0 * 8, stage := i, tid := t
      lane := t % 128, fresh := code }

/-- Starts one group with every thread of every stage. -/
def State.startGroup (s : State) (l : Launch) (x : Gang) (idx core : Nat) : State :=
  let gid := s.nextId
  let ths := (List.range 4).foldl (fun (ts : List Thread) i =>
    ts ++ stageThreads l.hdr gid l.lr.entry s.code.length (gid + 1 + ts.length) i) []
  { s with
    nextId := gid + 1 + ths.length
    groups := s.groups ++ [newGroup gid l x l.hdr l.lr.entry l.uniforms idx core 0]
    threads := s.threads ++ ths }

/-- Starts every group of a gang in one cycle (05 R139). -/
def State.startGang (s : State) (x : Gang) (cores : List Nat) : State :=
  match s.launch? x.launch with
  | none => s
  | some l =>
    let s1 : State := { s with gangs := s.gangs.filter fun y => y.id != x.id }
    (List.range cores.length).foldl (fun s i => s.startGroup l x i (cores.getD i 0)) s1

/-- Reservations are made as soon as they can be (21 R428). -/
def State.reserveAll (s : State) : State := if s.gangs.isEmpty then s else s.nextGang.1

/-- GANG_PLACE: the first gang of the dispatcher's order that fits takes its cores and starts (21 R428). -/
def execGangPlace (s : State) : Host.Outcome State Fault Refusal :=
  match s.nextGang with
  | (s1, some (x, _, cs)) => .next (if x.spawned.isEmpty && x.saved.isEmpty then s1.startGang x cs else s1)
  | (s1, none) => .next s1

/-- GANG_WAIT_EXPIRY: a gang has waited 1,400,000 cycles since its first reservation (21 R429). -/
def execGangWaitExpiry (s : State) : Host.Outcome State Fault Refusal :=
  .next { s with gangs := s.gangs.map fun x =>
    if x.id == s.arg.a && x.reserve.isSome && x.since + 1400000 ≤ s.cycle then { x with aged := true } else x }

/-- The threads of a spawned group (05 R152). -/
def spawnThreads (ps : List PendThread) (h : Header) (gid quad : Nat) (code first : Nat) : List Thread :=
  (List.range ps.length).filterMap fun i => (ps[i]?).map fun p =>
    let th : Thread :=
      { id := first + i, unit := .device, group := gid, pc := p.entry + 64, alloc := h.regs.getD 0 0 * 8, tid := i
        lane := 32 * quad + i, count := ps.length, origin := p.origin, fresh := code }
    (((th.setV 0 (p.arg.extractLsb' 0 32)).setV 1 (p.arg.extractLsb' 32 32)).setV 2 (BitVec.ofNat 32 i)).setV 3
      (BitVec.ofNat 32 ps.length)

/-- Starts a spawned group on a core. -/
def State.startSpawned (s : State) (x : Gang) (h : Header) (core quad : Nat) : State :=
  match s.launch? x.launch with
  | some l =>
    let gid := s.nextId
    State.farDrop { s with
      nextId := gid + 1 + x.spawned.length
      gangs := s.gangs.filter fun y => y.id != x.id
      groups := s.groups ++ [newGroup gid l x h x.entry [] 0 core quad]
      threads := s.threads ++ spawnThreads x.spawned h gid quad s.code.length (gid + 1) } (.walk x.id)
  | none => s

/-- A spawned group that cannot start leaves one record for each thread (05 R153). -/
def State.spawnFailed (s : State) (x : Gang) (f : Fail) : State :=
  x.spawned.foldl (fun s p => s.faultRecord x.launch
      { source := 4, cause := f.cause.code, addr := x.entry, cont := some { entry := p.entry, arg := p.arg } })
    (State.farDrop { s with gangs := s.gangs.filter fun y => y.id != x.id } (.walk x.id))

/-- SPAWNED_GROUP_START: the dispatcher reads the entry header of a spawned group again, and starts it when it is next and
fits, or writes its records (05 R152, R153). -/
def execSpawnedGroupStart (s : State) : Host.Outcome State Fault Refusal :=
  match s.gangs.find? fun x => x.id == s.arg.a && !x.spawned.isEmpty with
  | none => .next s
  | some x =>
    match s.launch? x.launch with
    | some l =>
      if l.state != .live || x.tag.isSome then .next s
      else match s.sideRead (.walk x.id) l x.entry 64 with
        | (s1, .wait t _) =>
          .next (if t == 0 then s1 else
            { s1 with gangs := s1.gangs.map fun y => if y.id == x.id then { y with tag := some t } else y })
        | (s1, .fail f _) => .next (s1.spawnFailed x f)
        | (s1, .ok b) =>
          if !spawnHeaderOk x.entry b then .next (s1.spawnFailed x { cause := .desc })
          else match s1.nextGang with
            | (s2, some (y, nd, core :: _)) =>
              .next (if y.id == x.id then
                let qs := s2.quads core nd.hdr nd.n none
                s2.startSpawned x nd.hdr core (if qs.contains s.arg.q then s.arg.q else qs.headD 0)
              else s2)
            | (s2, _) => .next s2
    | none => .next s

/-! ### Bins and insertions (05 R151, R154) -/

/-- BIN_TIMER_EXPIRY: a bin's cycle of expiry has passed, with the insertions of that cycle, and it launches; the timer does not
count while the launch is pre-empted (05 R151). -/
def execBinTimerExpiry (s : State) : Host.Outcome State Fault Refusal :=
  match s.launch? s.arg.l with
  | none => .next s
  | some l =>
    match l.bins.find? fun b => b.opened == s.arg.a with
    | some b => .next (if l.binOver s.cycle b then s.launchBin l.id b else s)
    | none => .next s

/-- The walk or sample group whose end was waiting for room leaves its unit (05 R154). -/
def State.dropSource (s : State) (src : Nat) : State :=
  if src == 0 then s
  else { s with
    rays := s.rays.filter fun r => r.id != src
    walks := s.walks.filter fun w => !(w.id == src && w.ended)
    timers := s.timers.filter fun t => t.id != src }

/-- POOL_INSERT_DEFERRED: a record that waited is written to the pool area (05 R149), and the event insertion that has waited
longest enters the pool (R154). -/
def execPoolInsertDeferred (s0 : State) : Host.Outcome State Fault Refusal :=
  let s := match s0.launch? s0.arg.l with
    | some l => if l.poolTag.isNone then s0.writeRecord l.id else s0
    | none => s0
  match s.launch? s.arg.l with
  | none => .next s
  | some l =>
    match l.waiting with
    | [] => .next s
    | p :: rest =>
      .next (if l.pending < l.lr.poolCap then ((s.setLaunch { l with waiting := rest }).insertOne l.id p).dropSource p.src else s)

/-! ### The end of groups and launches -/

/-- A thread that runs: an access of a saved one is retried after its restore (18 R391). -/
def State.residentThread (s : State) (th : Thread) : Bool :=
  th.unit != .device || (match s.group? th.group with
    | some g => g.res != .saved && g.res != .evicted && g.res != .restoring
    | none => false)

/-- An access that waits for a page and whose request has been answered. -/
def State.answeredPage (s : State) (a : Access) : Bool :=
  match a.place with
  | .waiting t => !(s.preqs.any fun r => r.tag == t)
  | _ => false

/-- A saved group that has no thread left. -/
def State.emptied (s : State) (g : Group) : Bool := (g.res == .saved || g.res == .evicted) && (s.live g.id).isEmpty

/-- A group leaves its gang's entry with the dispatcher. -/
def State.leaveGang (s : State) (gid : Nat) : State :=
  { s with gangs := (s.gangs.filter fun x => x.saved != [gid]).map fun x => { x with saved := x.saved.filter fun i => i != gid } }

/-- GROUP_FREE: an ended group whose copies and tile operations have retired gives back its resources (05 R138). Slots with a
continuation stay (11 R247), and so do stores of its threads that have not performed. -/
def execGroupFree (s : State) : Host.Outcome State Fault Refusal :=
  match s.group? s.arg.g with
  | none => .next s
  | some g =>
    let mine (x : Thread) : Bool := x.unit == .device && x.group == g.id
    .next (
      if !(g.over || s.emptied g) || !g.cmds.isEmpty then s
      else
        let s0 := if g.over then s else s.leaveGang g.id
        let s1 : State := { s0 with threads := s.threads.filter fun x => !(mine x && x.ops.isEmpty) }
        if (g.slots.any fun x => x.cont.isSome) || s1.threads.any mine then s1.modGroup g.id fun y => { y with res := .retained }
        else { s1 with groups := s1.groups.filter fun y => y.id != g.id })

/-- A page request that something still waits for. -/
def State.tagUsed (s : State) (tag : Nat) : Bool :=
  let t := some tag
  (s.threads.any fun x => x.fetchTag == t || (match x.hold with
      | .parked u _ => u == tag
      | _ => false)
    || x.ops.any fun a => match a.place with
      | .waiting u => u == tag
      | _ => false)
    || (s.groups.any fun g => (g.cmds.any fun c => (c.tag.map (·.1)) == t)
      || g.frames.any fun f => f.plane0.tag == t || f.plane1.tag == t)
    || (s.launches.any fun l => l.tag == t || l.flagTag == t || l.poolTag == t) || (s.gangs.any fun x => x.tag == t)
    || (s.rays.any fun r => r.tag == t) || (s.walks.any fun w => w.tag == t) || (s.timers.any fun x => x.tag == t)
    || s.queues.any fun x => x.tag == t

/-- Requests that nothing waits for are forgotten; their replies find no tag (18 R393). -/
def State.dropTags (s : State) : State := { s with preqs := s.preqs.filter fun r => s.tagUsed r.tag }

/-- The bindings of a launch end (20 R411). -/
def State.unbindLaunch (s : State) (lid : Nat) : State := { s with bindings := s.bindings.filter fun b => b.launch != lid }

/-- The launch can still cause nothing: every group has ended, its pool is empty and no continuation can fire (05 R155); its writes,
its flags and its fault records are where its completion puts them (08 R213, 09 R229, 17 R371). -/
def State.launchQuiet (s : State) (l : Launch) : Bool :=
  (s.groups.all fun g => g.launch != l.id || (g.over && g.cmds.isEmpty && !(g.slots.any fun x => x.cont.isSome)
      && (s.threads.all fun x => !(x.unit == .device && x.group == g.id) || x.ops.isEmpty)))
    && l.flagOrs.isEmpty && l.records.isEmpty
    && (s.gangs.all fun x => x.launch != l.id) && l.bins.isEmpty && l.waiting.isEmpty
    && (s.rays.all fun r => r.launch != l.id) && (s.walks.all fun w => w.launch != l.id)
    && (s.timers.all fun t => t.launch != l.id)

/-- LAUNCH_COMPLETE: a launch that has nothing left queues DONE with code 0 (05 R155, 21 R423). -/
def execLaunchComplete (s : State) : Host.Outcome State Fault Refusal :=
  match s.launch? s.arg.l with
  | none => .next s
  | some l =>
    .next (if l.state == .live && s.launchQuiet l then
      ((s.unbindLaunch l.id).setLaunch { l with state := .done }).queueEvent l.queue { kind := 2, eid := l.id, datum := l.lr.addr }
    else s)

/-- An access is dropped; a request of it that has left counts in its send window until its answer comes (20 R415). -/
def State.forget (s : State) (t : Nat) (a : Access) (to_ : Owner := .module) : State :=
  let s1 := s.dropAccess t a.id
  let (_, o, n) := halfOf a 0 true
  let p := (a.part o n).place
  if p.far && a.sent && !a.fixed then
    { s1 with far := s1.far ++ [{ id := a.id, owner := to_, place := p, req := a.request (farPa p) o n
                                  size := n, sent := true, born := a.born }] }
  else { s1 with unacked := s1.unacked.filter fun u => u.2.1 != a.id }

/-- The accesses and reads of a thread that is no more: those on their way count until their answers come (20 R415). -/
def State.forgetThread (s : State) (th : Thread) (to_ : Owner := .module) : State :=
  ((th.ops.foldl (fun s a => s.forget th.id a to_) s).farDrop (.thread th.id) to_).farDrop (.fetch th.id) to_

/-- Which of a launch's accesses in flight still perform is the device's choice (21 R425). -/
def State.dropSome (s : State) (lid t : Nat) : List Access → State
  | [] => s
  | a :: rest =>
    let wait := match a.place with
      | .waiting _ | .failed .. => true
      | _ => false
    let (c, s1) := if wait || a.buffered then (1, s) else s.choose 2
    State.dropSome (if c == 1 then s1.forget t a (.gone lid) else s1) lid t rest

/-- Those that make requests for a launch beside its threads' accesses. -/
def State.ownersOf (s : State) (lid : Nat) : List Owner :=
  let gs := s.groups.filter fun g => g.launch == lid
  (gs.flatMap fun g => g.cmds.map fun c => Owner.cmd c.id)
    ++ ((s.grids.filter fun o => gs.any fun g => o.members.any fun m => m.1 == g.id).map fun o => .cmd o.id)
    ++ ((s.gangs.filter fun x => x.launch == lid).map fun x => .walk x.id)
    ++ ((s.rays.filter fun r => r.launch == lid).map fun r => .walk r.id)
    ++ ((s.walks.filter fun w => w.launch == lid).map fun w => .walk w.id)
    ++ ((s.timers.filter fun t => t.launch == lid).map fun t => .walk t.id)
    ++ ((s.threads.filter fun x => (x.unit == .device && gs.any fun g => g.id == x.group)
      || (x.unit == .intersection && s.rays.any fun r => r.launch == lid && r.id == x.group)).flatMap fun x => [.thread x.id, .fetch x.id])
    ++ (List.range 3).map fun k => .side lid k

/-- The end of a launch: its groups halt and are discarded, with its pool, continuations, page requests, bindings, walks and
sample groups (21 R425); fault records that wait are still owed (17 R371). -/
def State.endLaunch (s : State) (lid : Nat) : State :=
  let ours (g : Group) : Bool := g.launch == lid
  let mine (x : Thread) : Bool := x.unit == .device && s.groups.any fun g => ours g && g.id == x.group
  let rays := (s.rays.filter fun r => r.launch == lid).map (·.id)
  let s0 := (s.ownersOf lid).foldl (fun s o => s.farDrop o (.gone lid)) (s.unbindLaunch lid)
  let prog (x : Thread) : Bool := x.unit == .intersection && rays.contains x.group
  let s1 := (s.threads.filter prog).foldl (fun s x => s.forgetThread x (.gone lid))
    ((s.threads.filter mine).foldl (fun s x => s.dropSome lid x.id x.ops) s0)
  let s2 : State := { s1 with
    threads := (s1.threads.filter fun x => !prog x).map fun x =>
      if mine x then { x with exited := true, hold := .none, pend := [], fences := [], relAt := none, park := false, fetchTag := none }
      else x
    groups := s1.groups.map fun g => if ours g then
        { g with res := .ended, cmds := [], hitched := none, frames := [], mail := [], slots := g.slots.map fun x => { x with cont := none } }
      else g
    grids := s1.grids.filter fun o => !(s.groups.any fun g => ours g && o.members.any fun m => m.1 == g.id)
    gangs := s1.gangs.filter fun x => x.launch != lid
    rays := s1.rays.filter fun r => r.launch != lid
    walks := s1.walks.filter fun w => w.launch != lid
    timers := s1.timers.filter fun t => t.launch != lid
    svcs := s1.svcs.filter fun r => r.launch != lid }
  (s2.modLaunch lid fun l =>
    { l with state := .ending, bins := [], waiting := [], flagOrs := [], flagTag := none, tag := none, poolTag := none
             notify := 0 }).dropTags

/-- Something of an ended launch is outstanding: an access of its threads, a request of its that has left, or a fault record that is
owed (21 R425, 17 R371). -/
def State.endBusy (s : State) (l : Launch) : Bool :=
  (s.threads.any fun x => !x.ops.isEmpty && x.unit == .device && s.groups.any fun g => g.launch == l.id && g.id == x.group)
    || (s.far.any fun y => y.owner == .gone l.id) || !l.records.isEmpty

/-- LAUNCH_END_DONE: nothing of an ended launch is outstanding and DONE is queued with code 3 (21 R425). Fault records that wait are
written first. -/
def execLaunchEndDone (s : State) : Host.Outcome State Fault Refusal :=
  match s.launch? s.arg.l with
  | none => .next s
  | some l =>
    if l.state == .ending && !l.records.isEmpty && l.tag.isNone then .next (s.flushRecords l.id (l.records.length + 1))
    else .next (if l.state == .ending && !s.endBusy l then
      (s.setLaunch { l with state := .done }).queueEvent l.queue { kind := 2, code := 3, eid := l.id, datum := l.lr.addr }
    else s)

/-- LAUNCH_ID_FREE: nothing refers to a finished launch any more and its ID frees; threads that were answered BUSY receive ROOM
(21 R424). -/
def execLaunchIdFree (s : State) : Host.Outcome State Fault Refusal :=
  match s.launch? s.arg.l with
  | none => .next s
  | some l =>
    if l.state == .done && !l.records.isEmpty && l.tag.isNone then .next (s.flushRecords l.id (l.records.length + 1))
    else if l.state != .done || !l.records.isEmpty || !l.flagOrs.isEmpty || (s.groups.any fun g => g.launch == l.id) then .next s
    else
      let s1 : State := { s with launches := s.launches.filter fun x => x.id != l.id }
      .next ((List.range 64).foldl (fun s q =>
        if (s.queues.getD q {}).room then
          { (s.queueEvent q { kind := 6 }) with queues := (s.queueEvent q { kind := 6 }).queues.modify q fun x => { x with room := false } }
        else s) s1)

end Sys2Proof.Machine
end

