-- ==== Sys2Proof/Machine/Control.lean ====
section
/-! DEFINITION. Control instructions (04 R119 to R127). -/

namespace Sys2Proof.Machine

/-- A transfer of control for one member (04 R122): the checks of its target, then its link, then PC. -/
def State.transfer (s : State) (th : Thread) (target : Dword) (link : Option (Opnd × Dword)) : Res :=
  match s.targetTrap th target with
  | some c => .trap s c target 0
  | none =>
    let s1 := match link with
      | some (d, l) => s.result th.id d 64 (l.setWidth 128)
      | none => s
    .jump (s1.modThread th.id fun x => { x with pc := target })

/-- A direct transfer by a signed offset in words (04 R120). -/
def transferTeam (i : Instr) (off : Dword) (link : Option Opnd) (s : State) : Host.Outcome State Fault Refusal :=
  runTeam i (fun _ s1 th => s1.transfer th (th.pc + 4 * off) (link.map fun d => (d, th.pc + BitVec.ofNat 64 i.len))) s

/-- An indirect transfer to A (04 R121). -/
def indirectTeam (i : Instr) (x : Ops4) (link : Option Opnd) (s : State) : Host.Outcome State Fault Refusal :=
  runTeam i (fun s0 s1 th =>
    s1.transfer th (s0.raw64 th x x.a) (link.map fun d => (d, th.pc + BitVec.ofNat 64 i.len))) s

/-- BRA, compact: 04 R120. -/
def execBra (x : CB) (s : State) : Host.Outcome State Fault Refusal := transferTeam (.bra x) (x.off.signExtend 64) none s

/-- BRA: 04 R120. -/
def execBra96 (x : Desc) (s : State) : Host.Outcome State Fault Refusal := transferTeam (.bra96 x) (x.w2.signExtend 64) none s

/-- CALL, compact, linking to y0: 04 R120. -/
def execCall (x : CB) (s : State) : Host.Outcome State Fault Refusal :=
  transferTeam (.call x) (x.off.signExtend 64) (some .y0) s

/-- CALL: 04 R120. -/
def execCall96 (x : Desc) (s : State) : Host.Outcome State Fault Refusal :=
  transferTeam (.call96 x) (x.w2.signExtend 64) (some x.d) s

/-- JMP, compact: 04 R121. -/
def execJmp (x : C3) (s : State) : Host.Outcome State Fault Refusal :=
  indirectTeam (.jmp x) (x.toArith 0x62 none).toOps4 none s

/-- JMP: 04 R121. -/
def execJmp96 (x : AForm) (s : State) : Host.Outcome State Fault Refusal :=
  indirectTeam (.jmp96 x) (x.toArith 0x62).toOps4 none s

/-- CALLI, compact: 04 R121. -/
def execCalli (x : C3) (s : State) : Host.Outcome State Fault Refusal :=
  indirectTeam (.calli x) (x.toArith 0x63 none).toOps4 (some x.d) s

/-- CALLI: 04 R121. -/
def execCalli96 (x : AForm) (s : State) : Host.Outcome State Fault Refusal :=
  indirectTeam (.calli96 x) (x.toArith 0x63).toOps4 (some (x.toArith 0x63).d) s

/-- RET, compact: 04 R121. -/
def execRet (x : C3) (s : State) : Host.Outcome State Fault Refusal :=
  indirectTeam (.ret x) (x.toArith 0x64 none).toOps4 none s

/-- RET: 04 R121. -/
def execRet96 (x : AForm) (s : State) : Host.Outcome State Fault Refusal :=
  indirectTeam (.ret96 x) (x.toArith 0x64).toOps4 none s

/-- EXIT of one member (04 R123): it ends, or is held until its loads and stores have completed. -/
def exitOne (i : Instr) (s : State) (th : Thread) : Res :=
  if s.canExit th then .jump (s.endThread th.id) else .stall (s.holdAt th.id i .exit_)

/-- EXIT, compact: 04 R123. -/
def execExit (x : C3) (s : State) : Host.Outcome State Fault Refusal :=
  runTeam (.exit x) (fun _ s1 th => exitOne (.exit x) s1 th) s

/-- EXIT: 04 R123. -/
def execExit96 (x : Arith) (s : State) : Host.Outcome State Fault Refusal :=
  runTeam (.exit96 x) (fun _ s1 th => exitOne (.exit96 x) s1 th) s

/-- THREAD_END: an exiting thread whose loads and stores have completed ends (04 R123). -/
def execThreadEnd (s : State) : Host.Outcome State Fault Refusal :=
  match s.thread? s.arg.t with
  | some th => .next (if th.hold == .exit_ && s.canExit th then s.endThread th.id else s)
  | none => .next s

/-- BRK: the trap BREAK with its code in DETAIL (04 R124, 17 R362). -/
def execBrk (x : Arith) (s : State) : Host.Outcome State Fault Refusal :=
  runTeam (.brk x) (fun _ s1 _ => .trap s1 .brk 0 (x.ext.setWidth 32)) s

/-- SVC n of one member with argument a and reply destination d (04 R125). The request is a release at system scope
(08 R213); its event waits behind a full list (21 R423). -/
def svcOne (i : Instr) (n : BitVec 8) (a : Dword) (d : Opnd) (s : State) (th : Thread) : Res :=
  if th.unit != .device then .trap s .illegal 0 0
  else if n.getLsbD 7 then .trap s .svc 0 (n.setWidth 32)
  else s.afterRelease th 6 (
    match s.launchOf th with
    | none => .stall s
    | some l =>
      let (tag, s1) := s.newId
      let s2 := s1.queueEvent l.queue
        { kind := 3, code := n.toNat, eid := l.id, tag := BitVec.ofNat 32 tag, datum := a }
      let s3 : State := { s2 with svcs := s2.svcs ++ [{ tag := tag, thread := th.id, launch := l.id }] }
      .stall (s3.holdAt th.id i (.svc tag d)))

/-- SVC, compact: argument 0, the reply discarded (04 R125). -/
def execSvc (x : CI) (s : State) : Host.Outcome State Fault Refusal :=
  runTeam (.svc x) (fun _ s1 th => svcOne (.svc x) x.imm 0 .zero s1 th) s

/-- SVC: 04 R125. -/
def execSvc96 (x : Arith) (s : State) : Host.Outcome State Fault Refusal :=
  runTeam (.svc96 x) (fun s0 s1 th =>
    svcOne (.svc96 x) (x.fld 16 8) (s0.raw64 th x.toOps4 x.a) x.d s1 th) s

/-- The four counters are within WAIT's limits (04 R126). -/
def waitMet (x : Desc) (c : Counters) : Bool :=
  c.tiles ≤ (x.fld 24 6).toNat && c.copies ≤ (x.fld 16 6).toNat && c.stores ≤ (x.fld 8 6).toNat
    && c.loads ≤ (x.fld 0 6).toNat

/-- WAIT: 04 R126. -/
def execWait (x : Desc) (s : State) : Host.Outcome State Fault Refusal :=
  runTeam (.wait x) (fun _ s1 th => if waitMet x th.cnt then .done s1 else .stall s1) s

/-- NOP, compact: 04 R127. -/
def execNop (x : C3) (s : State) : Host.Outcome State Fault Refusal := runTeam (.nop x) (fun _ s1 _ => .done s1) s

/-- NOP: 04 R127. -/
def execNop96 (x : Arith) (s : State) : Host.Outcome State Fault Refusal := runTeam (.nop96 x) (fun _ s1 _ => .done s1) s

end Sys2Proof.Machine
end

