-- ==== Sys2Proof/Machine/Fetch.lean ====
section
/-! DEFINITION. Fetching an instruction (01 R26, R27, 07 R188, 18 R391), the traps of a failed fetch and of an encoding that
nothing defines (02 R58), and the deferred trap taken at a boundary (17 R359). -/

namespace Sys2Proof.Machine

/-- The outcome of a fetch; `ws` are the words read so far. -/
inductive Fetched where
  | ok (i : Instr)
  | illegal (ws : List Word)
  | fault (f : Fail) (addr : Dword) (ws : List Word)
  | park (tag : Nat)
  | later
  deriving DecidableEq, Repr

/-- A word with the bytes that writes after the first `fresh` replaced restored, before the first of them; the log has the newest
write first. Of several writes since an IFENCE the old value is that before the first, never one between (log 56). -/
def staleWord (log : List CodeWrite) (pa : Nat) (bs : List Byte) : List Byte :=
  log.foldl (fun bs w => if pa ≤ w.pa && w.pa < pa + bs.length then bs.set (w.pa - pa) w.old else bs) bs

/-- A word of the instruction store of an intersection core's unit (14 R333). -/
def State.storeWord (s : State) (th : Thread) (o : Nat) : Word :=
  match s.ray? th.group with
  | some r => word ((s.istore.getD r.cluster []).drop o ++ List.replicate 4 0) 0
  | none => 0

/-- One 32-bit word of an instruction: until an IFENCE the old or the new value, by the device's choice (01 R26). -/
def State.fetchWord (s : State) (th : Thread) (fresh : Nat) (va : Dword) (ws : List Word) : State × Except Fetched Word :=
  if th.unit == .intersection then
    if 16380 < va.toNat then (s, .error (.fault { cause := .prot } va ws)) else (s, .ok (s.storeWord th va.toNat))
  else if th.unit == .device && s.windowed va then (s, .error (.fault { cause := .prot } va ws))
  else if !canonical (s.spaceOf th) va then (s, .error (.fault { cause := .range } va ws))
  else
    match s.translate (s.spaceOf th) va .fetch th.sup with
    | (s1, .request) => let (s2, tag) := s1.requestPage (s.spaceOf th) va .fetch 0; (s2, .error (.park tag))
    | (s1, .fail f) => (s1, .error (.fault f va ws))
    | (s1, .ok e lv) =>
      let pa := leafPa e lv va
      match s1.readPlace (.fetch th.id) va (s1.physPlace e pa 4 false (th.unit == .service && th.sup)) 4 with
      | (s2, .error (some f)) => (s2, .error (.fault f va ws))
      | (s2, .error none) => (s2, .error .later)
      | (s2, .ok bs) =>
        let log := s2.code.take (s2.code.length - fresh)
        if log.any fun w => pa ≤ w.pa && w.pa < pa + 4 then
          let (c, s3) := s2.choose 2
          (s3, .ok (word (if c == 1 then staleWord log pa bs else bs) 0))
        else (s2, .ok (word bs 0))

/-- The words from an address on. -/
def State.fetchWords (s : State) (th : Thread) (fresh : Nat) : Nat → Dword → List Word → State × Except Fetched (List Word)
  | 0, _, ws => (s, .ok ws)
  | n + 1, va, ws =>
    match s.fetchWord th fresh va ws with
    | (s1, .ok w) => State.fetchWords s1 th fresh n (va + 4) (ws ++ [w])
    | (s1, .error e) => (s1, .error e)

/-- The instruction at a thread's PC (01 R27 steps 1 and 2). -/
def State.fetch (s : State) (th : Thread) (fresh : Nat) : State × Fetched :=
  match s.fetchWord th fresh th.pc [] with
  | (s1, .error e) => (s1, e)
  | (s1, .ok w0) =>
    match s1.fetchWords th fresh (lengthWords w0 - 1) (th.pc + 4) [w0] with
    | (s2, .error e) => (s2, e)
    | (s2, .ok ws) =>
      match decode ws with
      | .ok i => (s2, .ok i)
      | .error _ => (s2, .illegal ws)

/-- ILLEGAL_OPCODE: every member raises ILLEGAL (02 R56, R58). -/
def execIllegalOpcode (ws : List Word) (s : State) : Host.Outcome State Fault Refusal :=
  runTeam (.illegalOpcode ws) (fun _ s1 _ => .trap s1 .illegal 0 0) s

/-- FETCH_FAULT: the fetch at PC fails and raises a precise trap with PC at the instruction (07 R188, 18 R393, 20 R402). -/
def execFetchFault (s : State) : Host.Outcome State Fault Refusal :=
  .next (s.team.foldl (fun s t =>
    match s.thread? t with
    | none => s
    | some th =>
      if !s.canIssue th then s
      else if !th.pend.isEmpty then s.takePending t
      else match s.fetch th th.fresh with
        | (s1, .fault f va ws) => s1.trapHere th ws f.cause va f.detail
        | _ => s) s)

/-- A trap whose entry had to wait, for the registers of its frame or for the frame's page, is taken (18 R391; log 70). -/
def State.heldTrap (s : State) (th : Thread) : State :=
  match th.hold with
  | .trap tr =>
    if s.eligible th && !th.frameWaits then (s.modThread th.id fun x => { x with hold := .none }).trap th.id tr else s
  | _ => s

/-- TAKE_PENDING_TRAP: a thread takes its earliest pending trap at an instruction boundary (17 R359), or the trap whose entry it waits
for; one that waits to exit is at a boundary. -/
def execTakePendingTrap (s : State) : Host.Outcome State Fault Refusal :=
  match s.thread? s.arg.t with
  | some th =>
    if th.hold matches .trap _ then .next (s.heldTrap th)
    else
    let s1 := if th.hold == .exit_ && !th.pend.isEmpty then s.modThread th.id fun x => { x with hold := .none } else s
    match s1.thread? s.arg.t with
    | some th1 => .next (if s1.canIssue th1 && !th1.pend.isEmpty then s1.takePending th1.id else s)
    | none => .next s
  | none => .next s

end Sys2Proof.Machine
end

