-- ==== Sys2Proof/Machine/Keys.lean ====
section
/-! DEFINITION. Keys of a core's PC table: candidate teams, readiness and age (05 R144 to R146). -/

namespace Sys2Proof.Machine

/-- Two threads of one key in one quadrant. -/
def sameKey (a b : Thread) : Bool :=
  a.unit == .device && b.unit == .device && a.group == b.group && a.pc == b.pc && a.lane / 32 == b.lane / 32

/-- Inserts by lane; a thread of the same lane stays when it is of lower stage, then lower index. -/
def insertLane (x : Thread) : List Thread → List Thread
  | [] => [x]
  | y :: ys =>
    if x.lane < y.lane then x :: y :: ys
    else if x.lane == y.lane then
      (if x.stage < y.stage || (x.stage == y.stage && x.tid < y.tid) then x :: ys else y :: ys)
    else y :: insertLane x ys

/-- The candidate team of a thread's key, by rising lane (05 R145). -/
def State.candidates (s : State) (th : Thread) : List Thread :=
  if th.unit != .device then (if s.eligible th then [th] else [])
  else (s.threads.filter fun x => sameKey th x && s.eligible x).foldr insertLane []

/-- The counter that an instruction would raise is full (01 R28). -/
def countersFull (i : Instr) (c : Counters) : Bool :=
  let op := instrOp i
  if op == 0x90 || op == 0x92 || op == 0x93 || (0xD8 ≤ op && op ≤ 0xDB && op != 0xD8) then c.loads ≥ 63
  else if op == 0x91 || op == 0x94 || op == 0x97 || op == 0x98 then c.stores ≥ 63
  else if op == 0xB0 || op == 0xB1 then c.copies ≥ 63
  else if op == 0xC2 || (0xC4 ≤ op && op ≤ 0xC7) then c.tiles ≥ 63
  else false

/-- An instruction that a thread issues as such: one that raises a trap of 02 R59 or UNIMPL waits for the registers of the frame alone
(log 70), any other passes 01 R28, R29 and 04 R126. -/
def State.issueReady (s : State) (i : Instr) (th : Thread) : Bool :=
  if (s.decodeTrap th i).isSome then !th.frameWaits
  else !th.guard i.guard
    || (if isUnimpl i then !th.frameWaits
      else !countersFull i th.cnt && !stallsAt th i && (match i with
        | .wait x => waitMet x th.cnt
        | _ => true))

/-- A thread's next instruction can issue, or the trap that is pending before it can be taken (17 R359). -/
def State.readyFor (s : State) (i : Instr) (th : Thread) : Bool :=
  th.hold == .none && (match firstPending th.pend with
    | some tr => !th.trapWaits tr || (!mustTake th i && s.issueReady i th)
    | none => s.issueReady i th)

/-- A thread of a candidate team is ready for what its fetch gave: a fetch that fails is a trap. -/
def Fetched.ready (f : Fetched) (s : State) (th : Thread) : Bool :=
  match f with
  | .ok i => s.readyFor i th
  | .illegal _ | .fault .. => th.hold == .none && !th.frameWaits
  | .park _ | .later => false

/-- A thread with an access that waits for a page is parked, when its next instruction is one at which it parks and cannot issue, or
when it waits to exit or for the registers of a trap frame (18 R391). -/
def State.parkOne (s : State) (th : Thread) : State :=
  if !(th.ops.any Access.waitsPage) || th.park || !s.eligible th then s
  else match th.hold with
  | .exit_ | .trap _ => s.parkThread th.id
  | .none =>
    match (s.fetch th th.fresh).2 with
    | .ok i => if !s.readyFor i th && (parksAt th i || th.frameWaits) then s.parkThread th.id else s
    | f => if !f.ready s th && th.frameWaits then s.parkThread th.id else s
  | _ => s

/-- Threads that come to be parked after a step. -/
def State.parkDue (s : State) : State := s.threads.foldl State.parkOne s

/-- What the threads of a candidate team find at their PC: those of the leader's mode, then the others, whose permissions differ
(18 R388). -/
def State.fetchTeam (s : State) (cand : List Thread) : State × List (List Thread × Fetched) :=
  match cand with
  | [] => (s, [])
  | th :: _ =>
    let fresh (ts : List Thread) : Nat := ts.foldl (fun f x => max f x.fresh) 0
    let a := cand.filter fun x => x.sup == th.sup
    let b := cand.filter fun x => x.sup != th.sup
    let (s1, f) := s.fetch th (fresh a)
    match b with
    | [] => (s1, [(a, f)])
    | t :: _ => let (s2, g) := s1.fetch t (fresh b); (s2, [(a, f), (b, g)])

/-- The ready threads of a candidate team, by rising lane. -/
def State.readyOf (s : State) (cand : List Thread) (fs : List (List Thread × Fetched)) : List Thread :=
  cand.filter fun x => fs.any fun f => f.1.any (fun y => y.id == x.id) && f.2.ready s x

/-! ### The key table (05 R145, R146) -/

/-- A key of the PC table: group, PC and quadrant. -/
def Thread.key (th : Thread) : Nat × Dword × Nat := (th.group, th.pc, th.lane / 32)

def State.keyEntry (s : State) (k : Nat × Dword × Nat) : Option Nat :=
  (s.keys.find? fun e => e.1 == k.1 && e.2.1 == k.2.1 && e.2.2.1 == k.2.2).map (·.2.2.2)

/-- Since when a key that is not whole has been selectable: some thread of it has been ready for 512 cycles. -/
def State.keyDue (s : State) (k : Nat × Dword × Nat) : Option Nat :=
  let stamps := s.threads.filterMap fun x => if x.unit == .device && x.key == k then x.ready else none
  match stamps with
  | [] => none
  | x :: xs => let m := xs.foldl min x + 512; if m ≤ s.cycle then some m else none

/-- Since which cycle a key has been selectable. -/
def State.keySince (s : State) (k : Nat × Dword × Nat) : Option Nat := (s.keyEntry k).or (s.keyDue k)

/-- The quadrant's place among the module's: its core and its number. -/
def State.quadOf (s : State) (th : Thread) : Nat × Nat := (s.coreOf th, th.lane / 32)

/-- Key a comes before key b: it has been selectable for longer, then lower group slot (log 65), then lower PC. -/
def keyBefore (a b : (Nat × Dword × Nat) × Nat) : Bool :=
  a.2 < b.2 || (a.2 == b.2 && (a.1.1 < b.1.1 || (a.1.1 == b.1.1 && a.1.2.1.toNat < b.1.2.1.toNat)))

/-- The quadrant may issue a key, selectable since a cycle: no other key whose age is above 4,096 comes before it (05 R146). -/
def State.mayGo (s : State) (th : Thread) (since : Nat) : Bool :=
  !(s.keys.any fun e =>
    let k := (e.1, e.2.1, e.2.2.1)
    k != th.key && e.2.2.1 == th.lane / 32 && e.2.2.2 + 4096 < s.cycle
      && !(since + 4096 < s.cycle && keyBefore (th.key, since) (k, e.2.2.2))
      && (match s.group? e.1, s.group? th.group with
        | some g, some h => g.core == h.core
        | _, _ => false))

/-- One key after a step: whether it is whole, since when its threads have been ready while it was not, and since when it is
selectable. A key that is not whole is so only once one of its ready threads has been ready for 512 cycles. -/
def State.refreshKey (s : State) (th : Thread) : State :=
  let k := th.key
  let cand := s.candidates th
  let rdy := s.readyOf cand (s.fetchTeam cand).2
  let whole := !cand.isEmpty && rdy.length == cand.length
  let due := rdy.any fun x => x.ready.getD s.cycle + 512 ≤ s.cycle
  let since := if whole then some ((s.keySince k).getD s.cycle) else if due then s.keySince k else none
  let stamp (x : Thread) : Option Nat :=
    if whole || !(rdy.any fun y => y.id == x.id) then none else some (x.ready.getD s.cycle)
  { s with
    keys := s.keys.filter (fun e => !(e.1 == k.1 && e.2.1 == k.2.1 && e.2.2.1 == k.2.2)) ++ (match since with
      | some c => [(k.1, k.2.1, k.2.2, c)]
      | none => [])
    threads := s.threads.map fun x => if x.unit == .device && x.key == k then { x with ready := stamp x } else x }

/-- The leaders of keys: the first thread of each. -/
def keyLeaders : List Thread → List Thread → List Thread
  | _, [] => []
  | seen, x :: xs =>
    if x.unit != .device || x.exited || seen.any (fun y => sameKey x y) then keyLeaders seen xs else x :: keyLeaders (x :: seen) xs

/-- The key table after a step. -/
def State.refresh (s : State) : State :=
  let ls := keyLeaders [] s.threads
  let s1 : State := { s with keys := s.keys.filter fun e => ls.any fun x => x.key == (e.1, e.2.1, e.2.2.1) }
  ls.foldl (fun s x => s.refreshKey x) s1

/-- KEY_READY_TIMEOUT: a thread that has been ready for 512 cycles has made its key selectable before it is whole (05 R145). -/
def execKeyReadyTimeout (s : State) : Host.Outcome State Fault Refusal :=
  match s.thread? s.arg.t with
  | none => .next s
  | some th =>
    match th.unit, s.keyEntry th.key, s.keyDue th.key with
    | .device, none, some c => .next { s with keys := s.keys ++ [(th.group, th.pc, th.lane / 32, c)] }
    | _, _, _ => .next s

/-- KEY_AGE_EXPIRY: the table of a thread's key is brought up to date; a key whose age is above 4,096 then comes before younger ones
of its quadrant (05 R146; `State.mayGo`). -/
def execKeyAgeExpiry (s : State) : Host.Outcome State Fault Refusal :=
  match s.thread? s.arg.t with
  | none => .next s
  | some th => .next (if th.unit == .device && !th.exited then s.refreshKey th else s)

end Sys2Proof.Machine
end

