-- ==== Sys2Proof/Machine/Walks.lean ====
section
/-! DEFINITION. What the traversal unit reads and tests: hierarchy records (14 R316 to R319), the box and triangle tests (R320,
R321), CURSOR (R329), and the walks of TRACE (R323 to R328) and PAIRS (R338, R340). A walk is replayed over the records it has
read and the verdicts it has been given, so each record is read once. -/

namespace Sys2Proof.Machine

/-! ### Reading -/

/-- Why a walk cannot read. -/
inductive Pause where
  | fault (f : Fail) (at_ : Dword)
  | wait (tag : Nat)
  | later
  deriving DecidableEq, Repr

/-- A walk's reads: those it has made come first; `left` bounds the new ones of one step. -/
structure Reader where
  s : State
  owner : Owner
  launch : Launch
  past : List (List Byte)
  seen : List (List Byte)
  left : Option Nat
  deny : Option (Dword × Fail) := none
  deriving DecidableEq, Repr

/-- A read through the launch's translation, with user-mode permissions (14 R331). -/
def State.walkRead (s : State) (o : Owner) (l : Launch) (a : Dword) (n : Nat) : State × Got (List Byte) :=
  if canonical l.space a && canonical l.space (a + BitVec.ofNat 64 (n - 1)) then s.agentRead o l.space false 2 false 3 a n
  else (s, .fail { cause := .range } a)

/-- The address of a range's first byte in a page that cannot be reached, and how it fails (18 R393, 20 R417). -/
def denied (deny : Option (Dword × Fail)) (a : Dword) (n : Nat) : Option (Dword × Fail) :=
  match deny with
  | none => none
  | some (p, f) =>
    if p.toNat / 4096 == a.toNat / 4096 then some (a, f)
    else if p.toNat / 4096 == (a.toNat + n - 1) / 4096 then some (BitVec.ofNat 64 (p.toNat / 4096 * 4096), f)
    else none

/-- A new read of n bytes. -/
def Reader.get (r : Reader) (s : State) (a : Dword) (n : Nat) : State × Got (List Byte) :=
  match denied r.deny a n with
  | some (x, f) => (s, .fail f x)
  | none => s.walkRead r.owner r.launch a n

/-- The next record, read by `go` when it is new. -/
def Reader.next (r : Reader) (go : State → State × Got (List Byte)) : Reader × Except Pause (List Byte) :=
  match r.past with
  | b :: rest => ({ r with past := rest }, .ok b)
  | [] =>
    if r.left == some 0 then (r, .error .later)
    else match go r.s with
      | (s1, .ok bs) => ({ r with s := s1.farDone r.owner, seen := r.seen ++ [bs], left := r.left.map (· - 1) }, .ok bs)
      | (s1, .wait t _) => ({ r with s := s1 }, .error (if t == 0 then .later else .wait t))
      | (s1, .fail f x) => ({ r with s := s1 }, .error (.fault f x))

def Reader.read (r : Reader) (a : Dword) (n : Nat) : Reader × Except Pause (List Byte) := r.next fun s => r.get s a n

/-! ### Nodes and boxes -/

/-- The planes of a box, lo and hi by axis. -/
structure Box where
  lo : List FVal
  hi : List FVal
  deriving DecidableEq, Repr

/-- A child of a node; an empty box is none. -/
structure Child where
  leaf : Bool
  addr : Dword
  box : Option Box
  deriving DecidableEq, Repr

def axis (l : List FVal) (i : Nat) : FVal := l.getD i (.fin false 0 0)

/-- Three FP32 values from byte o. -/
def vec3 (d : List Byte) (o : Nat) : List FVal := (List.range 3).map fun i => decodeF .f32 (field d (o + 4 * i) 4)

def finiteV (v : FVal) : Bool := !v.isNan && !v.isInf

/-- One plane: the exact sum, rounded once (14 R317). -/
def plane (lo : FVal) (q sc : Nat) (mode : Rnd) : FVal :=
  decodeF .f32 (roundTo .f32 mode false (addV mode lo (.fin false q ((sc : Int) - 127))).1).bits

def childBox (d : List Byte) (i : Nat) : Option Box :=
  let lo := vec3 d 4
  let q (n a : Nat) : Nat := field d (0x30 + 6 * i + 3 * n + a) 1
  if (List.range 3).any fun a => q 1 a < q 0 a then none
  else some
    { lo := (List.range 3).map fun a => plane (axis lo a) (q 0 a) (field d (0x10 + a) 1) .rdn
      hi := (List.range 3).map fun a => plane (axis lo a) (q 1 a) (field d (0x10 + a) 1) .rup }

/-- The children of a node, or none when the record breaks R316 or R319. -/
def nodeChildren (a : Dword) (d : List Byte) : Option (List Child) :=
  let n := field d 1 1
  let mask := field d 2 1
  let cs := (List.range n).map fun i =>
    ({ leaf := mask.testBit i, addr := a + (word d (0x60 + 4 * i)).signExtend 64 <<< 6, box := childBox d i } : Child)
  let ok := field d 0 1 == 1 && 1 ≤ n && n ≤ 8 && mask < 2 ^ n && zeros d 3 1 && zeros d 0x13 0x1D
    && zeros d (0x30 + 6 * n) (0x30 - 6 * n) && zeros d (0x60 + 4 * n) (0x20 - 4 * n)
    && (List.range 3).all (fun x => field d (0x10 + x) 1 != 255) && (vec3 d 4).all finiteV
    && cs.all fun c => c.addr.toNat % (if c.leaf then 64 else 128) == 0
  if ok then some cs else none

/-- The header of a leaf keeps R318 and R319. -/
def leafHeaderOk (d : List Byte) : Bool :=
  let prog := field d 2 2
  (field d 0 1 == 2 || field d 0 1 == 3) && 1 ≤ field d 1 1 && field d 1 1 ≤ 8 && zeros d 8 8
    && (prog ≤ 63 || prog == 0xFFFF) && !(field d 0 1 == 3 && prog == 0xFFFF)

def leafEntryBytes (d : List Byte) : Nat := if field d 0 1 == 2 then 48 else 16

def leafBytes (d : List Byte) : Nat := 16 + field d 1 1 * leafEntryBytes d

/-- The entries of a leaf keep R318 and R319. -/
def leafEntriesOk (d : List Byte) : Bool :=
  (List.range (field d 1 1)).all fun e =>
    let o := 16 + e * leafEntryBytes d
    if field d 0 1 == 2 then
      zeros d (o + 0x2C) 4 && field d (o + 0x28) 4 < 2 && (field d (o + 0x28) 4 == 1 || field d 2 2 != 0xFFFF)
    else zeros d (o + 8) 8

/-- Reads n bytes of a leaf, and the leaf again while the header among them gives it more: lengths rise, so `fuel` 17 is enough for
the lengths there are. -/
def Reader.wholeLeaf (r : Reader) (a : Dword) : Nat → State → Nat → State × Got (List Byte)
  | 0, s, n => r.get s a n
  | fuel + 1, s, n =>
    match r.get s a n with
    | (s1, .ok d) => if leafHeaderOk d && n < leafBytes d then r.wholeLeaf a fuel s1 (leafBytes d) else (s1, .ok d)
    | x => x

/-- A leaf's bytes: one access of its whole length, as the header among them gives it (14 R318). -/
def Reader.readLeaf (r : Reader) (a : Dword) : Reader × Except Pause (List Byte) := r.next fun s => r.wholeLeaf a 17 s 16

/-! ### The tests -/

def minV (a b : FVal) : FVal := if ltV b a then b else a
def maxV (a b : FVal) : FVal := if ltV a b then b else a

/-- Near and far on one axis; none when the axis misses (14 R320). -/
def slab (o d lo hi : FVal) : Option (FVal × FVal) :=
  if d.isZero then (if ltV o lo || ltV hi o then none else some (.inf true, .inf false))
  else
    let e1 := (divV (addV .rne lo o.negate).1 d).1
    let e2 := (divV (addV .rne hi o.negate).1 d).1
    some (decodeF .f32 (roundTo .f32 .rdn false (minV e1 e2)).bits, decodeF .f32 (roundTo .f32 .rup false (maxV e1 e2)).bits)

/-- The box test: NEAR of a hit (14 R320). -/
def boxHit (o d : List FVal) (ta tb : FVal) (b : Box) : Option FVal :=
  let ss := (List.range 3).map fun a => slab (axis o a) (axis d a) (axis b.lo a) (axis b.hi a)
  match ss with
  | [some x, some y, some z] =>
    let near := maxV (maxV x.1 y.1) z.1
    let far := minV (minV x.2 y.2) z.2
    if leV (maxV ta near) (minV tb far) then some near else none
  | _ => none

/-- Two boxes overlap: touching counts, and an empty box overlaps nothing (14 R317, R320). -/
def boxesMeet (p q : Option Box) : Bool :=
  match p, q with
  | some p, some q => (List.range 3).all fun a => leV (axis p.lo a) (axis q.hi a) && leV (axis q.lo a) (axis p.hi a)
  | _, _ => false

def rv (ty : Ty) (v : FVal) : FVal := decodeF ty (rne ty v)
def addR (ty : Ty) (x y : FVal) : FVal := rv ty (addV .rne x y).1
def subR (ty : Ty) (x y : FVal) : FVal := rv ty (addV .rne x y.negate).1
def mulR (ty : Ty) (x y : FVal) : FVal := rv ty (mulV x y).1
def divR (ty : Ty) (x y : FVal) : FVal := rv ty (divV x y).1

def magV : FVal → FVal
  | .fin _ m e => .fin false m e
  | .inf _ => .inf false
  | v => v

/-- A triangle's values: the sign of det, and t, u and v as FP32 codes. -/
structure TriVals where
  back : Bool
  t : Nat
  u : Nat
  v : Nat
  deriving DecidableEq, Repr

/-- The triangle test without its interval: none is a miss (14 R321). -/
def triTest (o d : List FVal) (vs : List (List FVal)) : Option TriVals :=
  let bigger (i j : Nat) : Bool := ltV (magV (axis d i)) (magV (axis d j))
  let kz := if bigger 0 1 then (if bigger 1 2 then 2 else 1) else if bigger 0 2 then 2 else 0
  let k1 := (kz + 1) % 3
  let k2 := (kz + 2) % 3
  let neg := ltV (axis d kz) (.fin false 0 0)
  let kx := if neg then k2 else k1
  let ky := if neg then k1 else k2
  let sx := divR .f32 (axis d kx) (axis d kz)
  let sy := divR .f32 (axis d ky) (axis d kz)
  let sz := divR .f32 (.fin false 1 0) (axis d kz)
  let q (n k : Nat) : FVal := subR .f32 (axis (vs.getD n []) k) (axis o k)
  let px (n : Nat) : FVal := subR .f32 (q n kx) (mulR .f32 sx (q n kz))
  let py (n : Nat) : FVal := subR .f32 (q n ky) (mulR .f32 sy (q n kz))
  let pz (n : Nat) : FVal := mulR .f32 sz (q n kz)
  let cross (a b c e : FVal) : FVal := subR .f32 (mulR .f32 a b) (mulR .f32 c e)
  let wideCross (a b c e : FVal) : FVal := rv .f64 (addV .rne (mulV a b).1 (mulV c e).1.negate).1
  let edges (f : FVal → FVal → FVal → FVal → FVal) : FVal × FVal × FVal :=
    (f (px 2) (py 1) (py 2) (px 1), f (px 0) (py 2) (py 0) (px 2), f (px 1) (py 0) (py 1) (px 0))
  let (u0, v0, w0) := edges cross
  let wide := u0.isZero || v0.isZero || w0.isZero
  let (u, v, w) := if wide then edges wideCross else (u0, v0, w0)
  let ty : Ty := if wide then .f64 else .f32
  let zero : FVal := .fin false 0 0
  let below := ltV u zero || ltV v zero || ltV w zero
  let above := ltV zero u || ltV zero v || ltV zero w
  let det := addR ty (addR ty u v) w
  if (below && above) || det.isZero then none
  else
    let t := addR ty (addR ty (mulR ty u (pz 0)) (mulR ty v (pz 1))) (mulR ty w (pz 2))
    some
      { back := ltV det zero
        t := rne .f32 (divV t det).1
        u := rne .f32 (divV u det).1
        v := rne .f32 (divV v det).1 }

/-! ### CURSOR (14 R329) -/

/-- The fields of a CURSOR, level 0 first, or none when it is malformed. -/
def parseCursor (c : List Byte) (levels top : Nat) (leafEntry : Bool) : Option (List Nat) :=
  let n := field c 0 1
  let bits := field c 4 44
  let fs := unpack 6 n bits
  if 1 ≤ n && n ≤ levels && zeros c 2 2 && bits < 2 ^ (6 * n) && fs.all (· ≤ top)
    && (if leafEntry then field c 1 1 ≤ 7 else field c 1 1 == 0)
  then some fs else none

def cursorBytes (path : List Nat) (entry : Nat) : List Byte :=
  toBytes 1 path.length ++ toBytes 1 entry ++ toBytes 2 0 ++ toBytes 44 (pack 6 path)

/-! ### The walk of a ray (14 R323 to R328) -/

/-- A best hit (14 R326). -/
structure Hit where
  kind : Nat
  t : Nat
  u : Nat
  v : Nat
  prim : Nat
  leafId : Nat
  leaf : Nat
  attr : Nat
  entry : Nat
  deriving DecidableEq, Repr

/-- Why a ray's walk stopped. -/
inductive RayStop where
  | ended                                        -- HIT or MISS
  | badRay
  | bad (a : Dword)
  | depth
  | deferred (c : Cand) (path : List Nat)
  | progFault (reason : Nat) (a : Dword)
  | pause (p : Pause)
  | need (c : Cand)                              -- a program must run
  deriving DecidableEq, Repr

/-- A ray's walk as it goes. -/
structure RayRun where
  rd : Reader
  id : Nat
  ray : List Byte
  tc : Nat
  best : Option Hit := none
  verdicts : List Verdict
  path : List Nat := []
  result : List Byte := []                       -- the result record of a resumed walk
  stop : Option RayStop := none
  deriving DecidableEq, Repr

def RayRun.halt (x : RayRun) (r : RayStop) : RayRun := { x with stop := some r }

def rayFlag (rec : List Byte) (n : Nat) : Bool := (field rec 0x38 4).testBit n
def rayTmin (rec : List Byte) : FVal := decodeF .f32 (field rec 0x18 4)
def rayTmax (rec : List Byte) : FVal := decodeF .f32 (field rec 0x1C 4)

/-- 14 R323. -/
def badRay (rec : List Byte) : Bool :=
  !(vec3 rec 0).all finiteV || !(vec3 rec 0xC).all finiteV || (vec3 rec 0xC).all FVal.isZero || !finiteV (rayTmin rec)
    || (rayTmax rec).isNan || rayTmax rec == .inf true || ltV (rayTmax rec) (rayTmin rec)

/-- The acceptance rule of 14 R324; `last` ends the walk. -/
def RayRun.report (x : RayRun) (c : Cand) (t u v attr : Nat) (last : Bool) : RayRun :=
  let tv := decodeF .f32 t
  let tc := decodeF .f32 x.tc
  if leV (rayTmin x.ray) tv && leV tv tc && (x.best.isNone || ltV tv tc) then
    { x with
      tc := t
      best := some
        { kind := if c.proc then 3 else if c.back then 2 else 1, t := t, u := if c.proc then 0 else u, v := if c.proc then 0 else v
          prim := c.prim.toNat, leafId := c.leafId.toNat, leaf := c.leaf.toNat, attr := attr, entry := c.entry }
      stop := if rayFlag x.ray 0 || last then some .ended else x.stop }
  else x

/-- The word of a program in a unit's instruction store (14 R333). -/
def State.progWord (s : State) (cluster n : Nat) : Word := word (s.istore.getD cluster [] ++ List.replicate 4 0) (4 * n)

/-- An ISLOAD waits until no intersection core runs; meanwhile candidates that need a program wait (14 R335). -/
def State.isloadWaits (s : State) : Bool :=
  s.threads.any fun x => match x.hold with
    | .isload .. => true
    | _ => false

/-- A program word that is valid (14 R333). One with another bit set, or whose offset is no multiple of 4, is not: the model's choice
(log 76). -/
def progOk (w : Word) : Bool :=
  w.getLsbD 31 && 16 ≤ (w.extractLsb' 16 11).toNat && (w.extractLsb' 16 11).toNat ≤ 1024 && w.extractLsb' 0 2 == 0#2
    && w &&& 0x7800C000#32 == 0#32

/-- A candidate's program decides: its verdict when it has one. -/
def RayRun.ask (x : RayRun) (cluster : Nat) (c : Cand) : RayRun :=
  match x.verdicts with
  | [] =>
    if x.rd.s.isloadWaits then x.halt (.pause .later)
    else if progOk (x.rd.s.progWord cluster c.prog) then x.halt (.need c)
    else x.halt (.progFault Cause.desc.code (Config.rayField x.id 0))
  | v :: vs =>
    let y := { x with verdicts := vs }
    match v with
    | .acc t attr last => y.report c (if c.proc then t.toNat else c.t.toNat) c.u.toNat c.v.toNat attr.toNat last
    | .rej => y
    | .budget => y.halt (.deferred c y.path)
    | .fault reason a => y.halt (.progFault reason a)

/-- Entry e of a leaf as a candidate, with the values of a triangle. -/
def leafCand (leaf : Dword) (d : List Byte) (e tc : Nat) (h : Option TriVals) : Cand :=
  let o := 16 + e * leafEntryBytes d
  let base : Cand :=
    { leaf := leaf, entry := e, prim := 0, tc := BitVec.ofNat 32 tc, prog := field d 2 2, proc := field d 0 1 == 3, leafId := word d 4 }
  if field d 0 1 == 3 then { base with prim := word d o, user := word d (o + 4) }
  else match h with
    | some h =>
      { base with
        prim := word d (o + 0x24), t := BitVec.ofNat 32 h.t, u := BitVec.ofNat 32 h.u, v := BitVec.ofNat 32 h.v, back := h.back }
    | none => { base with prim := word d (o + 0x24) }

def leafTri (rec d : List Byte) (e : Nat) : Option TriVals :=
  let o := 16 + e * 48
  triTest (vec3 rec 0) (vec3 rec 0xC) [vec3 d o, vec3 d (o + 0xC), vec3 d (o + 0x18)]

/-- CANDIDATE of 14 R324. -/
def RayRun.candidate (x : RayRun) (cluster : Nat) (leaf : Dword) (d : List Byte) (e : Nat) : RayRun :=
  if field d 0 1 == 3 then
    if rayFlag x.ray 4 then x else x.ask cluster (leafCand leaf d e x.tc none)
  else match leafTri x.ray d e with
    | none => x
    | some h =>
      let tv := decodeF .f32 h.t
      let c := leafCand leaf d e x.tc (some h)
      let opaque_ := (field d (16 + e * 48 + 0x28) 4).testBit 0 || rayFlag x.ray 3
      if !(leV (rayTmin x.ray) tv && leV tv (decodeF .f32 x.tc)) || (if h.back then rayFlag x.ray 1 else rayFlag x.ray 2) then x
      else if opaque_ then x.report c h.t h.u h.v 0 false
      else x.ask cluster c

/-- DECIDE on the deferred candidate of a resumed walk (14 R328). -/
def RayRun.decide (x : RayRun) (leaf : Dword) (d : List Byte) (e : Nat) : RayRun :=
  let code := field x.result 2 1
  if code == 0 then x
  else
    let c := leafCand leaf d e x.tc (if field d 0 1 == 3 then none else leafTri x.ray d e)
    x.report c (field x.result 0x30 4) (field x.result 0x34 4) (field x.result 0x38 4) (field x.result 0x3C 4) (code == 2)

/-- VISITLEAF; `resume` on the leaf that CURSOR names. -/
def RayRun.visitLeaf (x : RayRun) (cluster : Nat) (a : Dword) (resume : Bool) : RayRun :=
  match x.rd.readLeaf a with
  | (r, .error p) => { x with rd := r }.halt (.pause p)
  | (r, .ok d) =>
    let y := { x with rd := r }
    if !leafHeaderOk d || !leafEntriesOk d then y.halt (.bad a)
    else
      let from_ := if resume then field x.result 0x51 1 else 0
      (List.range (field d 1 1)).foldl (fun z e =>
        if z.stop.isSome || e < from_ then z
        else if resume && e == from_ then z.decide a d e
        else z.candidate cluster a d e) y

/-- Inserts a hit child by NEAR, after those that are not farther. -/
def insertNear (x : FVal × Child) : List (FVal × Child) → List (FVal × Child)
  | [] => [x]
  | y :: ys => if ltV x.1 y.1 then x :: y :: ys else y :: insertNear x ys

/-- H of 14 R324: hit children in rank order. -/
def hitChildren (rec : List Byte) (cs : List Child) : List (FVal × Child) :=
  cs.foldl (fun h c =>
    match c.box.bind (boxHit (vec3 rec 0) (vec3 rec 0xC) (rayTmin rec) (rayTmax rec)) with
    | some near => insertNear (near, c) h
    | none => h) []

/-- VISITNODE, at most `fuel` levels deep (14 R319, R324); `guide` holds the ranks of CURSOR still to follow (R328). -/
def RayRun.visitNode (cluster : Nat) : Nat → RayRun → Dword → Option (List Nat) → RayRun
  | 0, x, _, _ => x.halt .depth
  | fuel + 1, x, a, guide =>
    match x.rd.read a 128 with
    | (r, .error p) => { x with rd := r }.halt (.pause p)
    | (r, .ok d) =>
      let y := { x with rd := r }
      match nodeChildren a d with
      | none => y.halt (.bad a)
      | some cs =>
        let hs := hitChildren x.ray cs
        let start := (guide.bind List.head?).getD 0
        if guide.isSome && hs.length ≤ start then y.halt (.bad a)
        else (List.range hs.length).foldl (fun z i =>
          match hs[i]? with
          | none => z
          | some (near, c) =>
            let named := guide.isSome && i == start
            let rest := (guide.getD []).drop 1
            if z.stop.isSome || i < start || !(named || leV near (decodeF .f32 z.tc)) then z
            else
              let w := { z with path := x.path ++ [i] }
              if named && c.leaf != rest.isEmpty then w.halt (.bad a)
              else if c.leaf then w.visitLeaf cluster c.addr named
              else RayRun.visitNode cluster fuel w c.addr (if named then some rest else none)) y

/-- The best hit that a result record holds. -/
def resultHit (d : List Byte) : Option Hit :=
  if field d 3 1 == 0 then none
  else some
    { kind := field d 3 1, t := field d 4 4, u := field d 8 4, v := field d 0xC 4, prim := field d 0x10 4, leafId := field d 0x14 4
      leaf := field d 0x18 8, attr := field d 0x20 4, entry := field d 0x24 1 }

/-- The walk of a ray as far as it can go; `n` bounds the records it reads now, 0 for no bound. A result record with a reserved
byte that is not zero ends a resumed walk with BADRAY (00 R9; log 61). -/
def State.runRay (s : State) (l : Launch) (r : Ray) (n : Nat) : RayRun :=
  let rd : Reader :=
    { s := s, owner := .walk r.id, launch := l, past := r.seen, seen := r.seen, left := if n == 0 then none else some n, deny := r.deny }
  let x : RayRun := { rd := rd, id := r.id, ray := r.record, tc := field r.record 0x1C 4, verdicts := r.verdicts }
  let fin (y : RayRun) : RayRun := if y.stop.isSome then y else y.halt .ended
  if badRay r.record then x.halt .badRay
  else if rayFlag r.record 5 then
    match rd.read (dword r.record 0x28) 128 with
    | (rd1, .error p) => { x with rd := rd1 }.halt (.pause p)
    | (rd1, .ok d) =>
      let y := { x with rd := rd1, result := d, best := resultHit d, tc := if field d 3 1 == 0 then x.tc else field d 4 4 }
      match parseCursor (d.drop 0x50) 24 7 true with
      | none => y.halt .badRay
      | some g =>
        if 2 < field d 2 1 || !zeros d 0x26 2 || !zeros d 0x4C 4 then y.halt .badRay
        else fin (RayRun.visitNode r.cluster 24 y (dword r.record 0x20) (some g))
  else fin (RayRun.visitNode r.cluster 24 x (dword r.record 0x20) none)

/-! ### The walk of two hierarchies (14 R338, R340) -/

/-- A node or leaf with its box in its parent and its level. -/
structure Branch where
  leaf : Bool
  addr : Dword
  box : Option Box := none
  level : Nat := 1
  deriving DecidableEq, Repr

/-- A pair that the walk emits. -/
structure Emit where
  x : Dword
  y : Dword
  self : Bool
  idx : Nat
  idy : Nat
  path : List Nat
  deriving DecidableEq, Repr

inductive PairHalt where
  | pause (p : Pause)
  | bad (a : Dword)
  | depth
  | pair (e : Emit)
  deriving DecidableEq, Repr

/-- A pair walk as it goes: it halts at the pair after `skip` others. -/
structure PairRun where
  rd : Reader
  skip : Nat
  self : Bool
  same : Bool
  stop : Option PairHalt := none
  deriving DecidableEq, Repr

def PairRun.halt (x : PairRun) (r : PairHalt) : PairRun := { x with stop := some r }

/-- The children of a side; a leaf has none. -/
def PairRun.kids (x : PairRun) (p : Branch) : PairRun × Option (List Branch) :=
  if p.leaf then (x, none)
  else match x.rd.read p.addr 128 with
    | (r, .error e) => ({ x with rd := r }.halt (.pause e), none)
    | (r, .ok d) =>
      let y := { x with rd := r }
      match nodeChildren p.addr d with
      | none => (y.halt (.bad p.addr), none)
      | some cs => (y, some (cs.map fun c => { leaf := c.leaf, addr := c.addr, box := c.box, level := p.level + 1 }))

/-- LEAFID of a leaf, from its header. -/
def PairRun.leafId (x : PairRun) (a : Dword) : PairRun × Nat :=
  match x.rd.read a 16 with
  | (r, .error e) => ({ x with rd := r }.halt (.pause e), 0)
  | (r, .ok d) =>
    let y := { x with rd := r }
    if leafHeaderOk d then (y, field d 4 4) else (y.halt (.bad a), 0)

/-- EMIT of 14 R338. -/
def PairRun.emit (x : PairRun) (p q : Branch) (s : Bool) (path : List Nat) : PairRun :=
  let (x1, ia) := x.leafId p.addr
  let (x2, ib) := if s || x1.stop.isSome then (x1, ia) else x1.leafId q.addr
  if x2.stop.isSome || (s && !x2.self) then x2
  else if 0 < x2.skip then { x2 with skip := x2.skip - 1 }
  else if x2.same && !s && ib < ia then x2.halt (.pair { x := q.addr, y := p.addr, self := s, idx := ib, idy := ia, path := path })
  else x2.halt (.pair { x := p.addr, y := q.addr, self := s, idx := ia, idy := ib, path := path })

/-- The pairs below a pair in walk order, each with its cursor field and whether it is of one node. -/
def pairItems (p q : Branch) (s : Bool) (xs ys : Option (List Branch)) : List (Nat × Branch × Branch × Bool) :=
  match xs, ys with
  | some xs, some ys =>
    (List.range xs.length).flatMap fun i => (List.range ys.length).filterMap fun j =>
      if s && j < i then none
      else match xs[i]?, ys[j]? with
        | some a, some b => some (i + 8 * j, a, b, s && i == j)
        | _, _ => none
  | none, some ys => (List.range ys.length).filterMap fun j => (ys[j]?).map fun b => (8 * j, p, b, false)
  | some xs, none => (List.range xs.length).filterMap fun i => (xs[i]?).map fun a => (i, a, q, false)
  | none, none => []

/-- The node at which a position of CURSOR does not fit. -/
def misfit (p q : Branch) (xs ys : Option (List Branch)) (pos : Nat) : Dword :=
  match xs, ys with
  | some xs, some ys => if xs.length ≤ pos % 8 || pos / 8 < ys.length then p.addr else q.addr
  | some _, none => p.addr
  | _, _ => q.addr

/-- WALK and VISIT of 14 R338; `guide` holds the fields of CURSOR still to follow (R340). -/
def PairRun.visit : Nat → PairRun → Branch → Branch → Bool → List Nat → Option (List Nat) → PairRun
  | 0, x, _, _, _, _, _ => x.halt .depth
  | fuel + 1, x, p, q, s, path, guide =>
    if (!p.leaf && 24 < p.level) || (!q.leaf && 24 < q.level) then x.halt .depth
    else if p.leaf && q.leaf then
      (match guide with
      | some (_ :: _) => x.halt (.bad p.addr)
      | _ => x.emit p q s path)
    else if guide == some [] then x.halt (.bad p.addr)
    else
      let (x1, xs) := x.kids p
      let (x2, ys) := if x1.stop.isSome then (x1, none) else if s then (x1, xs) else x1.kids q
      if x2.stop.isSome then x2
      else
        let items := pairItems p q s xs ys
        let start := match guide with
          | some (g :: _) => items.findIdx fun it => it.1 == g
          | _ => 0
        if guide.isSome && items.length ≤ start then x2.halt (.bad (misfit p q xs ys ((guide.bind List.head?).getD 0)))
        else (List.range items.length).foldl (fun z k =>
          match items[k]? with
          | none => z
          | some (pos, a, b, s') =>
            let named := guide.isSome && k == start
            if z.stop.isSome || k < start || !(named || boxesMeet a.box b.box) then z
            else PairRun.visit fuel z a b s' (path ++ [pos]) (if named then guide.map (List.drop 1) else none)) x2

/-- The walk of a descriptor up to the pair after those already placed; none for a malformed CURSOR. -/
def State.runPairs (s : State) (l : Launch) (w : PairWalk) (n : Nat) : Option PairRun :=
  let d := w.desc
  let rd : Reader :=
    { s := s, owner := .walk w.id, launch := l, past := w.seen, seen := w.seen, left := if n == 0 then none else some n, deny := w.deny }
  let same := dword d 0 == dword d 8
  let x : PairRun := { rd := rd, skip := w.placed, self := (field d 0x14 4).testBit 0, same := same }
  let go (g : Option (List Nat)) : PairRun := PairRun.visit 49 x { leaf := false, addr := dword d 0 } { leaf := false, addr := dword d 8 } same [] g
  if (field d 0x14 4).testBit 1 then (parseCursor (d.drop 0x50) 48 63 false).map fun g => go (some g) else some (go none)

end Sys2Proof.Machine
end

