-- ==== Sys2Proof/Machine/SampleGroups.lean ====
section
/-! DEFINITION. Sample groups (15): SGFORK, SGPOST, SGCANCEL and SGSTAT, the events at a descriptor's home slice, the close with its
normalisation, and the timer. -/

namespace Sys2Proof.Machine

/-! ### The close (15 R350) -/

def r64 (v : FVal) : FVal := decodeF .f64 (rne .f64 v)
def add64 (x y : FVal) : FVal := r64 (addV .rne x y).1
def sub64 (x y : FVal) : FVal := r64 (addV .rne x y.negate).1
def mul64 (x y : FVal) : FVal := r64 (mulV x y).1
def div64 (x y : FVal) : FVal := r64 (divV x y).1

/-- What a close computes: the closed STATUS, MEAN and STD when it writes them, and the advantage of each sibling. -/
structure Closed where
  status : Nat
  stats : Option (Nat × Nat) := none
  adv : List Nat
  deriving DecidableEq, Repr

/-- The normalisation of rewards: for each sibling whether it is posted, with its reward; c is NPOST. With NPOST 0 and a STATE of 1, which only
software can bring about, no mean is set and the advantage is 0x7FC00000 like every other (DESIGN CHOICE, log 41). -/
def normalise (eps c : Nat) (rs : List (Bool × Nat)) : Closed :=
  let val (r : Nat) : FVal := decodeF .f32 r
  let ps := (rs.filter (·.1)).map fun x => val x.2
  let all (f : Nat → Nat) : List Nat := rs.map fun x => if x.1 then f x.2 else 0x7FC00000
  if c == 0 then { status := 4, adv := all fun _ => 0x7FC00000 }
  else if ps.any fun v => v.isNan || v.isInf then
    { status := 6, stats := some (0x7FF8000000000000, 0x7FF8000000000000), adv := all fun _ => 0x7FC00000 }
  else
    let n : FVal := .fin false c 0
    let mean := div64 (ps.foldl add64 (.fin false 0 0)) n
    let q := ps.foldl (fun q v => let d := sub64 v mean; add64 q (mul64 d d)) (.fin false 0 0)
    let sd := r64 (sqrtV (div64 q n)).1
    let den := add64 sd (decodeF .f64 eps)
    let zero := den.isZero
    { status := if zero then 5 else 3, stats := some (rne .f64 mean, rne .f64 sd)
      adv := all fun r => if zero then 0 else rne .f32 (divV (sub64 (val r) mean) den).1 }

/-! ### Descriptors at their home (15 R342 to R344) -/

/-- A STATE byte; one above 3 is read as 2 (15 R344). -/
def sibState (d : List Byte) (i : Nat) : Nat := let x := field d (0xC0 + i) 1; if 3 < x then 2 else x

/-- Siblings of a group; a descriptor has room for 64. -/
def siblings (d : List Byte) : Nat := min (field d 3 1) 64

/-- The words of the result (15 R347): what the event changed, then the descriptor after it. -/
def sgResult (d : List Byte) (ack : Bool) (kind i : Nat) : Nat :=
  let status := field d 4 1
  let st := if field d 3 1 ≤ i || kind == 2 || status == 0 then 255 else sibState d i
  let low := (if ack then 2 ^ 24 else 0) + field d 3 1 * 2 ^ 16 + st * 2 ^ 8 + status
  if kind == 3 then low + 2 ^ 32 * (field d 5 1 * 2 ^ 16 + field d 7 1 * 2 ^ 8 + field d 6 1) else low

/-- The cycle at which a launch's timers stand: they rest while its contexts are saved (15 R352). -/
def State.timeOf (s : State) (l : Nat) : Nat := ((s.launch? l).bind Launch.pausedAt).getD s.cycle

/-- Cycles that an open group's timer has counted (15 R352): none without a TIMEOUT. -/
def State.sgCount (s : State) (e : SgEntry) : Nat := min (s.timeOf e.launch - e.timer) e.limit

def State.setTimer (s : State) (e : SgEntry) : State := { s with timers := s.timers.map fun x => if x.id == e.id then e else x }

/-- The open group whose descriptor is at a place; a group whose translation a shoot-down has covered has no place until its home slice
has walked again (18 R394). -/
def State.sgAt (s : State) (pa : Nat) : Option SgEntry := s.timers.find? fun e => e.pa == pa && !e.closing && !e.ended && !e.stale

/-- Writes bytes of a descriptor at its home; `cache`: CACHE of its leaf (18 R387). -/
def State.sgWrite (s : State) (pa o : Nat) (bs : List Byte) (cache : Nat := 0) : State := s.writePhys none (pa + o) bs (cache == 2)

/-- The descriptor's bytes cannot be read (17 R384, 23 R433). -/
def State.sgLost (s : State) (pa : Nat) : Bool := (linesOf pa 512).any s.badLine

/-- No access to the descriptor succeeds (23 R433). -/
def State.sgDead (s : State) (pa : Nat) : Bool := (linesOf pa 512).any s.deadLine

/-- An entry of the timer table is freed. -/
def State.dropTimer (s : State) (e : SgEntry) : State := { s with timers := s.timers.filter fun x => x.id != e.id }

/-- An access of a group's home slice to its descriptor fails: it leaves a record and the group's timer ends (15 R351, 17 R384;
log 66). -/
def State.sgFail (s : State) (e : SgEntry) (c : Cause) : State :=
  (s.dropTimer e).faultRecord e.launch { source := 5, cause := c.code, addr := e.va }

/-- A close that cannot read its descriptor. -/
def State.sgLose (s : State) (e : SgEntry) : State := s.sgFail e .machine

/-- ELAPSED: the timer's count. -/
def State.writeElapsed (s : State) (e : SgEntry) : State :=
  (s.sgWrite e.pa 0x2C (toBytes 4 (s.sgCount e)) e.cache).setTimer { e with written := s.sgCount e }

/-- The home slice writes ELAPSED of an open group; it waits while a shoot-down's walk is still to come (18 R394). -/
def State.sgElapse (s : State) (e : SgEntry) : State :=
  if e.closing || e.ended || e.stale then s else if s.sgDead e.pa then s.sgLose e else s.writeElapsed e

/-- Groups whose count has moved 65,536 cycles past what ELAPSED was last given (15 R352). -/
def State.sgBehind (s : State) (e : SgEntry) : Bool := !e.closing && e.written + 65536 ≤ s.sgCount e

/-- After a shoot-down the home slice walks again for its descriptor, as a memory-side access (18 R385, R394); a page that no longer
is one of local memory with the permission ends the group with a record. -/
def State.sgRewalk (s : State) (e : SgEntry) : State :=
  match s.launch? e.launch with
  | none => s
  | some l =>
    match s.walkTable l.space e.va .write false with
    | (s1, .ok lf lv) =>
      match s1.physPlace lf (leafPa lf lv e.va) 512 true false with
      | .dram pa cache => s1.setTimer { e with pa := pa, cache := cache, stale := false }
      | .failed f _ => s1.sgFail e f.cause
      | _ => s1.sgFail e .prot
    | (s1, .request) => (s1.requestPage l.space e.va .write 3).1
    | (s1, .fail f) => s1.sgFail e f.cause

/-- Every group that a shoot-down has covered. -/
def State.sgRewalks (s : State) : State := (s.timers.filter (·.stale)).foldl State.sgRewalk s

/-- The close begins: STATUS is 2, siblings without a post are marked, MEAN and STD are written; the advantage words and the
closed STATUS are to come (15 R350). -/
def State.sgClose (s : State) (pa cause : Nat) (cache : Nat := 0) : State :=
  let d := s.readPhys pa 512
  let n := siblings d
  let rs := (List.range n).map fun i => (sibState d i == 1, field d (0x100 + 4 * i) 4)
  let c := normalise (field d 0x48 8) (field d 6 1) rs
  let marks := (List.range n).map fun i => if sibState d i == 0 then BitVec.ofNat 8 3 else (d.getD (0xC0 + i) 0)
  let s1 := (s.sgWrite pa 4 (toBytes 1 2 ++ toBytes 1 cause) cache).sgWrite pa 0xC0 marks cache
  let s2 := match c.stats with
    | some (m, sd) => s1.sgWrite pa 0x50 (toBytes 8 m ++ toBytes 8 sd) cache
    | none => s1
  match s.sgAt pa with
  | none => s2.sgWrite pa 4 (toBytes 1 c.status) cache
  | some e =>
    (s2.writeElapsed e).setTimer { e with
      closing := true
      status := c.status
      adv := (List.range n).map fun i => (dword d 0x40 + BitVec.ofNat 64 (4 * i), BitVec.ofNat 32 (c.adv.getD i 0)) }

/-- Expiry of an open group's timer: its close with CAUSE 2 (15 R352). -/
def State.sgExpire (s : State) (e : SgEntry) : State := if s.sgLost e.pa then s.sgLose e else s.sgClose e.pa 2 e.cache

/-- The cycle in which an open group's timer expires has passed: events of that cycle come before the close (15 R352). The launch may
be saved in that cycle, and its timers rest from then on. -/
def State.sgOver (s : State) (e : SgEntry) : Bool :=
  let now := s.timeOf e.launch
  !e.closing && !e.stale && e.limit != 0 && e.timer + e.limit ≤ now && (e.timer + e.limit < now || now < s.cycle)

/-- An event that comes after the cycle of expiry finds the group closed. -/
def State.sgLate (s : State) (pa : Nat) : State :=
  match s.sgAt pa with
  | some e => if s.sgOver e then s.sgExpire e else s
  | none => s

/-- The effect of a post or cancellation that applies (15 R348); none when it does not. -/
def State.sgApply (s : State) (pa kind i : Nat) (reward : Word) (cache : Nat := 0) : Option State :=
  let d := s.readPhys pa 512
  let open_ := field d 4 1 == 1
  let live := open_ && i < siblings d
  let after (s : State) : State :=
    let d1 := s.readPhys pa 512
    if (List.range (siblings d1)).any fun j => sibState d1 j == 0 then s else s.sgClose pa 1 cache
  match kind with
  | 0 =>
    if live && sibState d i == 0 then
      some (after (((s.sgWrite pa (0x100 + 4 * i) (toBytes 4 reward.toNat) cache).sgWrite pa (0xC0 + i) [1] cache).sgWrite pa 6
        (toBytes 1 (field d 6 1 + 1)) cache))
    else none
  | 1 =>
    if live && sibState d i ≤ 1 then
      let posts := if sibState d i == 1 then field d 6 1 + 255 else field d 6 1
      some (after ((s.sgWrite pa (0xC0 + i) [2] cache).sgWrite pa 6 (toBytes 1 posts ++ toBytes 1 (field d 7 1 + 1)) cache))
    else none
  | 2 =>
    if open_ then
      some (((s.sgWrite pa 0xC0 (List.replicate (siblings d) 2) cache).sgWrite pa 6 (toBytes 1 0 ++ toBytes 1 (field d 3 1)) cache).sgClose
        pa 3 cache)
    else none
  | _ => some s

/-- One event of SGPOST, SGCANCEL or SGSTAT at the home slice, with its reply (15 R344, R347, R348). -/
def State.sgEvent (s0 : State) (pa kind i : Nat) (reward : Word) (cache : Nat := 0) : State × Nat :=
  let s := s0.sgLate pa
  match s.sgApply pa kind i reward cache with
  | some s1 => (s1, sgResult (s1.readPhys pa 512) true kind i)
  | none => (s, sgResult (s.readPhys pa 512) false kind i)

/-! ### Issue (15 R345, R347) -/

/-- Where a descriptor address lies for the instructions that name it: local memory, or what they do instead. -/
inductive SgPlace where
  | home (pa cache : Nat)
  | bad (b : Bad)
  | park (tag : Nat)
  deriving DecidableEq, Repr

/-- The checks of a descriptor address (15 R345). -/
def State.sgPlace (s : State) (th : Thread) (a : Dword) (k : Kind) : State × SgPlace :=
  if !canonical (s.spaceOf th) a then (s, .bad { cause := .range, addr := a })
  else if s.windowed a then (s, .bad { cause := .prot, addr := a })
  else match s.placePage th th.sup a 512 k with
    | (s1, .dram pa cache) =>
      match s1.linked (.dram pa cache) a 512 with
      | .failed f va => (s1, .bad { cause := f.cause, addr := va })
      | _ => (s1, .home pa cache)
    | (s1, .waiting tag) => (s1, .park tag)
    | (s1, .failed f _) => (s1, .bad { cause := f.cause, addr := a, detail := f.detail })
    | (s1, _) => (s1, .bad { cause := .prot, addr := a })

/-- The checks of A and B by one member of an SGFORK, which come before those of C; `k` goes on from the descriptor's place
(15 R345). -/
def sgforkPlace (i : Instr) (a : Dword) (n : Word) (s : State) (th : Thread) (k : State → Nat → Nat → Res) : Res :=
  if a.toNat % 512 != 0 then .trap s .misalign a 0
  else if !canonical (s.spaceOf th) a then .trap s .range a 0
  else if n.toNat < 1 || 64 < n.toNat then .trap s .range 0 0
  else match s.sgPlace th a .write with
    | (s1, .bad b) => .trap s1 b.cause b.addr b.detail
    | (s1, .park tag) => .stall (s1.parkAt th.id i tag a)
    | (s1, .home pa cache) => k s1 pa cache

/-- SGFORK of one member: its checks, then it waits for the opening event (15 R345, R346). -/
def sgforkOne (i : Instr) (a : Dword) (n : Word) (entry : Dword) (s : State) (th : Thread) : Res :=
  sgforkPlace i a n s th fun s1 pa cache =>
    let (s2, r) := s1.spawnCheck th entry
    r.res s2 th i fun _ => s2.afterRelease th 4 (.stall (s2.holdAt th.id i (.sgfork a pa cache n.toNat entry false)))

/-- SGFORK: 15 R345, R346. The members of an issue fork in ascending lane order, so the issue waits as one for its release and for the
headers that it reads. -/
def execSgfork (x : Desc) (s : State) : Host.Outcome State Fault Refusal :=
  runTeam (.sgfork x) (fun s0 s1 th =>
    let entry (m : Thread) : Dword := s0.raw64 m x.toOps4 x.c
    if s0.issueWaits (.sgfork x) then .stall s1
    else if s0.headersWait (.sgfork x) entry then
      sgforkPlace (.sgfork x) (s0.a64 th x) (s0.b32 th x) s1 th fun s2 _ _ => headerOne (.sgfork x) (entry th) s2 th
    else sgforkOne (.sgfork x) (s0.a64 th x) (s0.b32 th x) (s0.raw64 th x.toOps4 x.c) s1 th) s

/-- One member's SGPOST, SGCANCEL or SGSTAT. -/
def sgOne (i : Instr) (iss kind : Nat) (handle : Dword) (reward : Word) (d : Opnd) (s : State) (th : Thread) : Res :=
  let va := handle &&& ~~~0x1FF#64
  let k : Kind := if kind == 3 then .read else .write
  let order : Order := if kind == 3 then { acq := true, agent := 4 } else { rel := true, agent := 4 }
  let op : MemOp := .sg kind (handle &&& 0x1FF#64).toNat reward
  if counterFull op th.cnt || (order.rel && parkedBy th order) then .stall s
  else match s.sgPlace th va k with
    | (s1, .bad b) => .trap s1 b.cause b.addr b.detail
    | (s1, .park tag) => .stall (s1.parkAt th.id i tag va)
    | (s1, .home pa cache) =>
      .done (s1.issueAccess th i iss { op := op, va := va, size := 512, align := 1, kind := k, dst := d, order := order } (.dram pa cache) none)

/-- An acquire holds a member's access to the descriptors' storage (08 R204), and with it the issue, whose members act in ascending
lane order (15 R353). -/
def State.sgWaits (s : State) (i : Instr) : Bool := (s.active i).any fun m => acqHolds m (.dram 0 0)

def sgTeam (i : Instr) (x : Desc) (kind : Nat) (s : State) : Host.Outcome State Fault Refusal :=
  memTeam i (fun iss s0 s1 th =>
    if s0.sgWaits i then .stall s1 else sgOne i iss kind (s0.a64 th x) (if kind == 0 then s0.b32 th x else 0) x.d s1 th) s

/-- SGPOST: 15 R347, R348. -/
def execSgpost (x : Desc) (s : State) : Host.Outcome State Fault Refusal := sgTeam (.sgpost x) x 0 s

/-- SGCANCEL: 15 R347, R348. -/
def execSgcancel (x : Desc) (s : State) : Host.Outcome State Fault Refusal := sgTeam (.sgcancel x) x 1 s

/-- SGCANCEL.all: 15 R347, R348. -/
def execSgcancelAll (x : Desc) (s : State) : Host.Outcome State Fault Refusal := sgTeam (.sgcancelAll x) x 2 s

/-- SGSTAT: 15 R347, R349. -/
def execSgstat (x : Desc) (s : State) : Host.Outcome State Fault Refusal := sgTeam (.sgstat x) x 3 s

/-! ### Steps of the home slice -/

/-- SG_EVENT: the event of a post, cancellation or status read takes effect at the home (15 R344, R348), once the home slice knows where
its open group lies (18 R394). -/
def execSgEvent (s : State) : Host.Outcome State Fault Refusal :=
  match s.access? s.arg.a with
  | none => .next s
  | some (th, a) =>
    match a.op, a.place with
    | .sg kind i reward, .dram pa cache =>
      .next (
        if a.fixed || !s.mayWrite th a || (s.timers.any fun e => e.pa == pa && e.stale) then s
        else if s.sgLost pa then s.failAt th a { cause := .machine }
        else
          let (s1, r) := s.sgEvent pa kind i reward cache
          s1.modAccess th.id a.id fun x => { x with fixed := true, value := toBytes 8 r })
    | _, _ => .next s

/-- The fields of a descriptor that an opening event refuses (15 R345), but for CONT's header. -/
def State.sgBad (s : State) (d : List Byte) : Bool :=
  let eps := dword d 0x48
  let adv := dword d 0x40
  field d 0 2 != 1 || !zeros d 2 1 || !zeros d 8 0x18 || !zeros d 0x60 0x60 || field d 4 1 == 1 || field d 4 1 == 2
    || eps.extractLsb' 52 11 == 0x7FF#11 || eps.getLsbD 63 || adv == 0#64 || adv.extractLsb' 0 2 != 0#2 || s.windowed adv
    || (dword d 0x38).extractLsb' 0 6 != 0#6

/-- The writes of an opening event. -/
def State.sgOpenWrites (s : State) (pa n : Nat) (entry : Dword) (cache : Nat := 0) : State :=
  ((((s.sgWrite pa 3 (toBytes 1 n ++ toBytes 1 1 ++ toBytes 3 0) cache).sgWrite pa 0x20 (toBytes 8 entry.toNat) cache).sgWrite
    pa 0x2C (toBytes 4 0) cache).sgWrite pa 0x50 (toBytes 16 0) cache).sgWrite pa 0xC0 (List.replicate 0x140 0) cache

/-- The sibling records enter the pool when it has room for them all, and the forking thread goes on (15 R345). -/
def State.sgInsert (s : State) (th : Thread) (l : Launch) (a : Dword) (n : Nat) (entry : Dword) : State :=
  match s.launch? l.id with
  | none => s
  | some l =>
    if !l.waiting.isEmpty || l.lr.poolCap < l.pending + n then s
    else
      let ps := (List.range n).map fun i => ({ entry := entry, arg := a + BitVec.ofNat 64 i, origin := .spawn } : PendThread)
      (s.insertAll l.id ps).modThread th.id fun x => x.release

/-- A lower lane of the same issue still forks: one quadrant issues one team in a cycle (15 R345). -/
def State.forksAfter (s : State) (th : Thread) : Bool :=
  s.threads.any fun x => sameKey th x && x.holdAt == th.holdAt && x.holdSeq < th.holdSeq && (match x.hold with
    | .sgfork .. => !x.exited
    | _ => false)

/-- SG_OPEN: the opening event of a waiting SGFORK at the home slice, once its timer table has room; then the insertion of its
siblings, once the pool has room (15 R345, R346). A descriptor that cannot be read raises MACHINE at the SGFORK (log 66). -/
def execSgOpen (s : State) : Host.Outcome State Fault Refusal :=
  match s.thread? s.arg.t with
  | none => .next s
  | some th =>
    match th.hold, s.launchOf th with
    | .sgfork a pa cache n entry sent, some l =>
      if s.forksAfter th then .next s
      else if sent then .next (s.sgInsert th l a n entry)
      else if 512 ≤ (s.timers.filter fun e => (s.home e.pa).1 == (s.home pa).1).length then .next s
      else
        let s0 := s.sgLate pa
        let d := s0.readPhys pa 512
        if s0.sgLost pa then .next (s0.trapHeld th .machine a 0)
        else if s0.sgBad d then .next (s0.trapHeld th .desc 0 0)
        else match s0.walkRead (.thread th.id) l (dword d 0x38) 64 with
          | (s1, .wait t _) =>
            .next (if t == 0 then s1 else s1.modThread th.id fun x => { x with hold := .parked t (dword d 0x38) })
          | (s1, .fail ..) => .next ((s1.farDrop (.thread th.id)).trapHeld th .desc 0 0)
          | (s1f, .ok h) =>
            let s1 := s1f.farDrop (.thread th.id)
            if !spawnHeaderOk (dword d 0x38) h then .next (s1.trapHeld th .desc 0 0)
            else
              let (id, s2) := (s1.sgOpenWrites pa n entry cache).newId
              let s3 : State := { s2 with
                timers := s2.timers ++ [{ id := id, pa := pa, va := a, launch := l.id, timer := s2.timeOf l.id, limit := field d 0x28 4, cache := cache }] }
              .next ((s3.modThread th.id fun x => { x with hold := .sgfork a pa cache n entry true }).sgInsert th l a n entry)
    | _, _ => .next s

/-- SG_TIMER_EXPIRY: an open group's timer has reached TIMEOUT and the cycle's events are applied; the group closes (15 R352). -/
def execSgTimerExpiry (s : State) : Host.Outcome State Fault Refusal :=
  match s.timers.find? fun e => e.id == s.arg.a with
  | some e => .next (if s.sgOver e then s.sgExpire e else s)
  | none => .next s

/-- SG_ELAPSED_WRITE: the home slice writes an open group's timer count (15 R352). -/
def execSgElapsedWrite (s : State) : Host.Outcome State Fault Refusal :=
  match s.timers.find? fun e => e.id == s.arg.a with
  | some e => .next (s.sgElapse e)
  | none => .next s

/-- The advantage words of a close are written, as far as pages allow; a write that fails leaves one record (15 R351). -/
def State.writeAdv (s : State) (l : Launch) : Nat → SgEntry → State × SgEntry
  | 0, e => (s, e)
  | fuel + 1, e =>
    match e.adv with
    | [] => (s, e)
    | (va, w) :: rest =>
      match if !canonical l.space va then (s, Got.fail { cause := .range } va)
          else if let some (x, f) := denied e.deny va 4 then (s, Got.fail f x)
          else s.sideWrite (.walk e.id) l va (toBytes 4 w.toNat) with
      | (s1, .ok _) => State.writeAdv (s1.farDone (.walk e.id)) l fuel { e with adv := rest }
      | (s1, .wait t _) => (s1, { e with tag := if t == 0 then none else some t })
      | (s1, .fail f a) =>
        State.writeAdv ((if e.ok then s1.faultRecord l.id { source := 5, cause := f.cause.code, addr := a } else s1).farDrop (.walk e.id)) l fuel
          { e with adv := rest, ok := false }

/-- SG_CLOSE_DONE: the writes of a close complete, STATUS takes its closed value and the continuation is inserted (15 R350,
R351). -/
def execSgCloseDone (s : State) : Host.Outcome State Fault Refusal :=
  match s.timers.find? fun e => e.id == s.arg.a with
  | none => .next s
  | some e =>
    match s.launch? e.launch with
    | none => .next s
    | some l =>
      if !e.closing || e.ended || e.stale || e.tag.isSome then .next s
      else
        let (s1, e1) := s.writeAdv l (e.adv.length + 1) e
        if !e1.adv.isEmpty then .next (s1.setTimer e1)
        else if s1.sgDead e.pa then .next (s1.sgLose e)
        else
          let s2 := s1.sgWrite e.pa 4 (toBytes 1 e.status) e.cache
          if !e1.ok then .next (s2.dropTimer e)
          else if s2.sgLost e.pa then .next (s2.sgLose e)
          else
            let cont := dword (s2.readPhys e.pa 512) 0x38
            let s3 := s2.insertEvent l.id { entry := cont, arg := e.va, origin := .engine, src := e.id }
            let waits := match s3.launch? l.id with
              | some l => l.waiting.any fun p => p.src == e.id
              | none => false
            .next (if waits then s3.setTimer { e1 with ended := true } else s3.dropTimer e)

end Sys2Proof.Machine
end

