-- ==== Sys2Proof/Machine/Preempt.lean ====
section
/-! DEFINITION. Saving and restoring groups (17 R373 to R377, R381), drain records (12 R291 to R293), eviction (05 R159), spare
cores and hardware errors (17 R382 to R384, 23 R433). -/

namespace Sys2Proof.Machine

/-! ### Drain records (12 R291, R292) -/

/-- Where the bytes come from that command m reads in a copy: those of the BLOAD that has taken it, or those that stood in it
before, for a command that comes before that BLOAD (12 R281, R282). -/
def FrameCopy.sourceFor (c : FrameCopy) (m : Nat) : CopySource := if m < c.pair then c.old.getD c.source else c.source

/-- The record of one of a group's grid operations; without a further pass FRAME and BSRC are 0 (log 68). -/
def drainRecord (spBase : Dword) (g : Group) (c : Cmd) (o : GridOp) (b : List Byte) (dp : Nat) : List Byte :=
  let p := parseParams b
  let f := if p.sparse then p.frame + 2 * o.pass else p.frame + o.pass
  let left := o.pass < p.passes dp
  let plane := ((o.planes.find? fun q => q.1 == g.id && q.2.1 == f).map fun q => q.2.2).getD false
  let cp := ((g.frameAt f).copy plane).sourceFor c.id
  let src := if cp.spad then spBase + cp.src else cp.src
  let bit (b : Bool) (n : Nat) : Nat := if b then 2 ^ n else 0
  let frame := if left then bit plane 15 + bit cp.spad 14 + bit p.sparse 13 + f else 0
  let geom := match g.hitched with
    | some h => 16 * h.dp + h.w
    | none => 0
  toBytes 2 1 ++ toBytes 31 0 ++ toBytes 1 (if o.pass == 0 && o.rows == 0 then 2 else 1) ++ toBytes 1 geom
    ++ toBytes 1 (32 * g.posZ + g.posX) ++ toBytes 2 frame ++ toBytes 2 o.rows ++ toBytes 4 (o.pass * p.kc * dp)
    ++ toBytes 4 c.seq ++ toBytes 8 0 ++ toBytes 8 (if left then src.toNat else 0) ++ b

/-- Writes the drain records of a group's operations into its save area. -/
def State.drainGroup (s : State) (gid : Nat) : State :=
  match s.group? gid with
  | none => s
  | some g =>
    let rs := g.cmds.filterMap fun c => match c.kind with
      | .grid op b dp _ _ => (s.grids.find? fun o => o.id == op).map fun o => ({ op := op, bytes := drainRecord s.img.spBase g c o b dp } : Drain)
      | _ => none
    s.modGroup gid fun y => { y with drains := rs }

/-- The harness of a group is halted: its launch is under pre-emption, or a group of its gang is saved (12 R291). -/
def State.harnessHalts (s : State) (g : Group) : Bool :=
  g.hitched.isSome && s.halting g

/-- HARNESS_DRAIN: after a halt request the grid has finished its admitted rows and the drain records are written (12 R291). -/
def execHarnessDrain (s : State) : Host.Outcome State Fault Refusal :=
  match s.group? s.arg.g with
  | none => .next s
  | some g => .next (if s.harnessHalts g then s.drainGroup g.id else s)

/-! ### Saving (17 R374, R375, R381) -/

/-- Loads that a rolled-back region squashes. -/
def squashes (a : Access) : Bool :=
  match a.op with
  | .ld _ | .ldmx .. => true
  | _ => false

/-- What a rolled-back region abandons: its buffered stores, the thread's loads, and its stores that have not got their place or
have failed (17 R381). -/
def abandons (since : Nat) (a : Access) : Bool :=
  a.buffered || squashes a || (a.op.isSt && since ≤ a.id && !a.place.known)

/-- The acquires of a thread without accesses that are gone. -/
def dropAcqs (gone : List Nat) (qs : List Acq) : List Acq :=
  (qs.map fun q => { q with waits := q.waits.filter fun i => !gone.contains i }).filter fun q => !q.waits.isEmpty

/-- What a save does to a thread: an OPEN region is rolled back to its start, a YIELD keeps the cycles it has left. -/
def State.saveThread (s : State) (th : Thread) : State :=
  match th.region with
  | .opened start since =>
    let gone := th.ops.filter (abandons since)
    let loads := (gone.filter fun a => a.counted && a.op.isLoad).length
    let stores := (gone.filter fun a => a.counted && !a.op.isLoad).length
    (gone.foldl (fun s a => s.forget th.id a) s).modThread th.id fun x =>
      { x with
        pc := start
        region := .none
        hold := .none
        pend := []
        relAt := none
        park := false
        fetchTag := none
        cnt := { x.cnt with loads := x.cnt.loads - loads, stores := x.cnt.stores - stores }
        acqs := dropAcqs (gone.map (·.id)) x.acqs }
  | _ => s.modThread th.id fun x =>
    match x.hold with
    | .yield_ n => { x with hold := .yield_ (n - (s.cycle - x.holdAt)) }
    | _ => x

/-- A copy that a restore reloads. -/
def FrameCopy.mark (c : FrameCopy) : FrameCopy := if c.st == .valid || c.st == .loading then { c with due := true, tag := none } else c

/-- What a save does to the engines of a group: its harness drains, its copies are to be reloaded, and its BLOADs and operations
read again (12 R291, R293, 17 R375). -/
def State.saveEngines (s : State) (gid : Nat) : State :=
  match s.group? gid with
  | none => s
  | some g =>
    let again (c : Cmd) : List Owner := match c.kind with
      | .bload .. => [.cmd c.id]
      | .grid op .. => [.cmd op]
      | _ => []
    let s1 := (g.cmds.flatMap again).foldl State.farDrop (if g.hitched.isSome then s.drainGroup gid else s)
    s1.modGroup gid fun y =>
      { y with frames := y.frames.map fun f => { f with plane0 := f.plane0.mark, plane1 := f.plane1.mark } }

/-- A group halts at instruction boundaries and is saved; one that has ended is, while commands of it are still to retire. -/
def State.saveGroup (s : State) (gid : Nat) (to_ : Residency) : State :=
  match s.group? gid with
  | none => s
  | some g =>
    if !g.kept then s
    else
      let s1 := (s.live gid).foldl (fun s th => if th.halted.isSome then s.haltRecord th false else s) s
      let s2 := s1.saveEngines gid
      let s3 := if g.res == .running then (s2.live gid).foldl State.saveThread s2 else s2
      s3.modGroup gid fun y => { y with res := to_ }

/-- PREEMPT_HALT: every group of a launch under pre-emption is halted and saved, and PREEMPTED is queued to the
launch's own queue (17 R373 to R375; DESIGN CHOICE, log 43). Groups that
were to be placed again wait for the resume with the rest of their gang (05 R133). -/
def execPreemptHalt (s : State) : Host.Outcome State Fault Refusal :=
  match s.launch? s.arg.l with
  | none => .next s
  | some l =>
    if l.state != .saving then .next s
    else
      let gs := (s.groups.filter fun g => g.launch == l.id).map (·.id)
      let s1 := gs.foldl (fun s g => s.saveGroup g .saved) s
      let s2 := State.modLaunch { s1 with gangs := s1.gangs.filter fun x => x.launch != l.id || x.saved.isEmpty } l.id fun x =>
        { x with state := .saved, notify := 0, pausedAt := some s.cycle }
      let s3 := (s2.timers.filter fun e => e.launch == l.id).foldl State.sgElapse s2
      .next ((List.range l.notify).foldl (fun s _ => s.queueEvent l.queue { kind := 5, eid := l.id }) s3)

/-! ### Restoring (17 R376, R377, 12 R293) -/

/-- A thread of a group that runs again: its pending traps are taken at its first boundary, a YIELD counts on. -/
def wake (now : Nat) (th : Thread) : Thread :=
  { th with
    must := !th.pend.isEmpty
    holdAt := match th.hold with
      | .yield_ _ => now
      | _ => th.holdAt }

/-- Delivers a reply of a group's mailbox (17 R377). -/
def State.deliverReply (s : State) (tag : Nat) (v : Dword) : State :=
  s.threads.foldl (fun s th =>
    match th.hold with
    | .svc u d => if u == tag then (s.result th.id d 64 (v.setWidth 128)).modThread th.id fun y => y.release else s
    | _ => s) s

/-- A placed group runs again; one without threads is there for its commands alone. -/
def State.revive (s : State) (gid : Nat) : State :=
  match s.group? gid with
  | none => s
  | some g =>
    let s1 := s.modGroup gid fun y => { y with res := if (s.live gid).isEmpty then .ended else .running, mail := [], drains := [] }
    let s2 := s1.mapThreads fun x => if x.unit == .device && x.group == gid && !x.exited then wake s.cycle x else x
    g.mail.foldl (fun s m => s.deliverReply m.1 m.2) s2

/-- GROUP_RESTORE: the dispatcher's next gang is a saved one, nothing outstanding still writes its image, and it is placed; a
hitched one waits for its harness (17 R376, 21 R428). -/
def execGroupRestore (s : State) : Host.Outcome State Fault Refusal :=
  match s.nextGang with
  | (s1, some (x, _, cs)) =>
    if x.saved.isEmpty then .next s1
    else
      let s2 : State := { s1 with gangs := s1.gangs.filter fun y => y.id != x.id || y.saved != x.saved }
      .next ((List.range x.saved.length).foldl (fun s i =>
        let gid := x.saved.getD i 0
        let s3 := s.modGroup gid fun g => { g with core := cs.getD i g.core, res := .restoring }
        match s3.group? gid with
        | some g => if g.hitched.isSome then s3 else s3.revive gid
        | none => s3) s2)
  | (s1, none) => .next s1

/-- A reload fails: the copy is BROKEN, a record is left and the operations that read the copy stop (12 R281, R293). -/
def State.reloadLost (s : State) (gid f : Nat) (plane : Bool) (e : Fail) (va : Dword) : State :=
  match s.group? gid with
  | none => s
  | some g =>
    let c := (g.frameAt f).copy plane
    let a := c.old.getD c.source
    let s1 := s.modGroup gid fun y => y.setFrame ((y.frameAt f).setCopy plane { c with st := .broken, due := false, tag := none })
    let s2 := s1.faultRecord g.launch
      { source := 6, cause := e.cause.code, addr := va, by_ := some { thread := a.thread, pc := a.pc, words := a.words } }
    (s2.breakOps g fun m q => q == (f, plane) && (c.old.isNone || m < c.pair)).farDrop (.cmd c.pair)

/-- Reloads one copy from its recorded source, into the same plane (12 R293). -/
def State.reloadCopy (s : State) (gid f : Nat) (plane : Bool) : State :=
  match s.group? gid with
  | none => s
  | some g =>
    let c := (g.frameAt f).copy plane
    let put (s : State) (c : FrameCopy) : State := s.modGroup gid fun y => y.setFrame ((y.frameAt f).setCopy plane c)
    if !c.due || c.tag.isSome then s
    else
      let a := c.old.getD c.source
      let owner : Owner := .cmd c.pair
      let r := if a.spad then (s, Got.ok (g.spad.load a.src.toNat 4096))
        else s.agentRead owner (s.groupSpace g) false 1 false 3 a.src 4096
      match r with
      | (s1, .ok bs) => (put s1 { c with data := Memory.store [] 0 bs, due := false }).farDone owner
      | (s1, .wait t _) => if t == 0 then s1 else put s1 { c with tag := some t }
      | (s1, .fail e va) => s1.reloadLost gid f plane e va

/-- Every copy of a group is reloaded. -/
def State.reloadGroup (s : State) (gid : Nat) : State :=
  match s.group? gid with
  | none => s
  | some g => g.frames.foldl (fun s x => (s.reloadCopy gid x.index false).reloadCopy gid x.index true) s

/-- A reload of the group is still to come. -/
def State.reloadWaits (s : State) (gid : Nat) : Bool :=
  match s.group? gid with
  | none => false
  | some g => g.frames.any fun x => x.plane0.due || x.plane1.due

/-- An operation resumes from a drain record: NEXTK and NEXTROW. -/
def State.resumeOp (s : State) (d : Drain) : State :=
  let b := d.bytes.drop 0x40
  let p := parseParams b
  let dp := 2 ^ (field d.bytes 0x22 1 / 16)
  { s with grids := s.grids.map fun o =>
    if o.id == d.op then { o with pass := field d.bytes 0x28 4 / (p.kc * dp), rows := field d.bytes 0x26 2 } else o }

/-- HARNESS_RESTORE: a placed hitched gang is hitched again, its copies are reloaded, its operations resume from their drain
records and its threads go on (12 R293). -/
def execHarnessRestore (s : State) : Host.Outcome State Fault Refusal :=
  match s.group? s.arg.g with
  | none => .next s
  | some g =>
    let gs := (s.gangGroups g.gang).filter fun y => !y.over
    let back := (gs.filter fun y => y.res == .restoring).map (·.id)
    if back.isEmpty || !(gs.all fun y => y.res == .restoring || y.res == .running) then .next s
    else
      let s1 := back.foldl (fun s i => s.reloadGroup i) s
      if back.any s1.reloadWaits then .next s1
      else
        let ds := back.flatMap fun i => ((s1.group? i).map Group.drains).getD []
        let s2 := back.foldl (fun s i => s.revive i) (ds.foldl (fun s d => s.resumeOp d) s1)
        .next (gs.foldl (fun s y => s.modGroup y.id fun z => { z with drains := [] }) s2)

/-! ### Eviction (05 R159) -/

/-- Every live thread has been in a yielding wait for 65,536 cycles. -/
def State.idleGroup (s : State) (gid : Nat) : Bool :=
  (s.live gid).all fun x => x.yields && x.halted.isNone && x.holdAt + 65536 ≤ s.cycle

/-- GROUP_EVICT: the device evicts a gang whose threads have all waited (05 R159). -/
def execGroupEvict (s : State) : Host.Outcome State Fault Refusal :=
  match s.group? s.arg.g with
  | none => .next s
  | some g =>
    let gs := (s.gangGroups g.gang).filter Group.kept
    .next (if g.res == .running && gs.all (fun y => (y.res == .running || y.res == .ended) && s.idleGroup y.id) then
      gs.foldl (fun s y => s.saveGroup y.id .evicted) s else s)

/-- GROUP_REPLACE: a recorded event has ended a wait of an evicted gang, which is to be placed again (05 R159): a reply, a slot or
queue event, or a page reply, after which a parked thread's access is retried (18 R391). So is a gang without threads, for its
commands. -/
def execGroupReplace (s : State) : Host.Outcome State Fault Refusal :=
  match s.group? s.arg.g with
  | none => .next s
  | some g =>
    let gs := (s.gangGroups g.gang).filter fun y => y.res == .evicted
    let woken := (gs.any fun y => !y.mail.isEmpty || (s.live y.id).any fun x => !x.yields || x.ops.any s.answeredPage)
      || gs.all fun y => (s.live y.id).isEmpty && !y.cmds.isEmpty
    .next (if g.res == .evicted && woken then
      let s1 := gs.foldl (fun s y => s.modGroup y.id fun z => { z with res := .saved }) s
      { s1 with gangs := s1.gangs ++ [{ id := g.gang, launch := g.launch, index := g.gangIdx, saved := gs.map (·.id) }] }
    else s)

/-! ### Hardware errors (17 R382 to R384, 23 R433) -/

/-- The structure whose errors count together: a row of memory counts with its package (17 R382). -/
def Structure.unit : Structure → Structure
  | .lpddr p _ => .lpddr p 0
  | x => x

/-- CORRECTED_ERROR: a structure counts a corrected error; four within 14,000,000 cycles mark it lasting (17 R382). -/
def execCorrectedError (s : State) : Host.Outcome State Fault Refusal :=
  let str := Structure.unit s.arg.str
  let e := (s.errors.find? fun x => x.str == str).getD { str := str }
  let ts := s.cycle :: e.times.filter fun t => s.cycle < t + 14000000
  .next { s with errors := s.errors.filter (fun x => x.str != str)
    ++ [{ e with times := ts, lasting := e.lasting || 4 ≤ ts.length }] }

/-- The core position of a structure of a core. -/
def coreOfStr : Structure → Option Nat
  | .regBank c .. | .spadBank c _ | .l0 c | .dotUnits c _ | .bstoreSlice c _ => some c
  | _ => none

/-- A gang that cannot be placed on any cluster's cores still in service. -/
def State.fitsNoCluster (s : State) (n : Nat) : Bool :=
  (List.range 16).all fun c => (((List.range 32).map (· + 32 * c)).filter fun k => !s.deadCores.contains k).length < n

/-- Groups of a core whose position leaves service: their gangs are saved and placed again, or their launch ends (17 R383), which may
have ended the gang already. -/
def State.evacuate (s : State) (g : Group) : State :=
  let gs := (s.gangGroups g.gang).filter Group.kept
  let s1 := gs.foldl (fun s y => s.saveGroup y.id .saved) s
  if gs.isEmpty then s
  else if s1.fitsNoCluster gs.length then
    (s1.endLaunch g.launch).faultRecord g.launch { source := 7, cause := Cause.machine.code }
  else
    { s1 with gangs := s1.gangs.filter (fun x => x.id != g.gang)
      ++ [{ id := g.gang, launch := g.launch, index := g.gangIdx, saved := gs.map (·.id) }] }

/-- SPARE_MOVE: a core with a lasting fault is frozen; its groups are saved, for a spare core that takes its position, or for
other cores when no spare is left (17 R383). -/
def execSpareMove (s : State) : Host.Outcome State Fault Refusal :=
  let core := s.arg.a
  let cl := core / 32
  if !(s.errors.any fun e => e.lasting && coreOfStr e.str == some core) || s.deadCores.contains core || 512 ≤ core then .next s
  else
    let gs := (s.onCore core).filter fun g => g.kept && g.holds
    let s1 : State := { s with errors := s.errors.filter fun e => coreOfStr e.str != some core }
    if 0 < s.spares.getD cl 0 then
      .next (gs.foldl (fun s g =>
        let s2 := (s.gangGroups g.gang).foldl (fun s y => if y.hitched.isSome then s.drainGroup y.id else s) (s.saveGroup g.id .saved)
        { s2 with gangs := s2.gangs ++ [{ id := g.gang, launch := g.launch, index := g.gangIdx, saved := [g.id], at_ := some core }] })
        { s1 with spares := s1.spares.set cl (s1.spares.getD cl 0 - 1) })
    else .next (gs.foldl (fun s g => s.evacuate g) { s1 with deadCores := s1.deadCores ++ [core] })

/-- Ends a group as a settled one is ended. -/
def State.killGroup (s : State) (gid : Nat) : State :=
  match s.group? gid with
  | none => s
  | some g =>
    let s1 := (s.live gid).foldl (fun s th => if th.halted.isSome then s.haltRecord th (s.settled gid) else s) s
    (s1.faultRecord g.launch { source := 7, cause := Cause.machine.code }).endGroup gid

/-- The accumulator commands of a group meet the lost data (13 R309). -/
def State.loseAcc (s : State) (gid : Nat) : State :=
  s.modGroup gid fun g => { g with cmds := g.cmds.map fun c =>
    match c.kind with
    | .accz .. | .accld .. | .accst .. => { c with fault := some ({ cause := .machine }, 0) }
    | _ => c }

/-- UNCORRECTABLE_ERROR: a line of memory or of a thread's stack, or the state of the group named, becomes uncorrectable (17 R384);
`n` says that a group's accumulator commands meet it. -/
def execUncorrectableError (s : State) : Host.Outcome State Fault Refusal :=
  match s.group? s.arg.g with
  | some g => .next (if g.over then s else (if s.arg.n == 1 then s.loseAcc g.id else s).killGroup g.id)
  | none =>
    let stk := s.threads.any fun x => x.id == s.arg.t && x.unit == .device
    let l := lineOf (if stk then stackPa s.arg.t s.arg.a else s.arg.a)
    .next (if stk && s.arg.a < 2 ^ 32 || s.arg.a < dramEnd then
      { s with poison := s.poison.filter (fun p => p.1 != l) ++ [(l, List.range 128)] } else s)

/-- The effect of a containment (23 R433). -/
def State.contain (s : State) (x : Structure) : State :=
  match x with
  | .slcData t n =>
    { s with
      noAlloc := s.noAlloc ++ [(t, n)]
      caches := { s.caches with
        slc := s.caches.slc.filter fun l => s.lineHome l != (t, n)
        dirty := s.caches.dirty.filter fun d => s.lineHome d.line != (t, n) } }
  | .slcControl t n =>
    if s.control2.contains (t, n) then { s with deadSlices := s.deadSlices ++ [(t, n)] } else { s with control2 := s.control2 ++ [(t, n)] }
  | .lpddr p _ => { s with spareRows := s.spareRows.set p (s.spareRows.getD p 0 - 1) }
  | .fabricPort n =>
    let s1 : State := { s with ports := s.ports.set n false }
    if s1.fabricUp then s1 else s1.loseFar fun _ => true
  | _ => s

/-- LASTING_CONTAINMENT: a lasting structure of a base tile, of memory or of a link is contained and logged (23 R433). -/
def execLastingContainment (s : State) : Host.Outcome State Fault Refusal :=
  let outer := match s.arg.str with
    | .slcData .. | .slcControl .. | .lpddr .. | .fabricPort _ | .mesh .. | .hostLane .. => true
    | _ => false
  .next (if outer && s.errors.any (fun e => e.lasting && e.str == Structure.unit s.arg.str) then
    ({ s with errors := s.errors.filter fun e => e.str != Structure.unit s.arg.str }.contain s.arg.str).logEntry (.contained s.arg.str) else s)

end Sys2Proof.Machine
end

