-- ==== Sys2Proof/Machine/Traversal.lean ====
section
/-! DEFINITION. The traversal unit: TRACE and PAIRS (14 R331, R332, R340), intersection cores and their instructions (R333, R334),
ISLOAD (R335), and the steps in which walks emit and end (R326, R331, R339, R340). -/

namespace Sys2Proof.Machine

/-! ### Issue (14 R331, R336, R340) -/

/-- The cluster whose unit serves a thread. -/
def State.clusterOf (s : State) (th : Thread) : Nat := s.coreOf th / 32

/-- Zero, not 128-byte aligned, or in a window. -/
def State.badRoot (s : State) (a : Dword) : Bool := a == 0#64 || a.toNat % 128 != 0 || s.windowed a

/-- The checks of a ray record that raise DESC, but for CONT and POOLCAP. -/
def State.badRayRecord (s : State) (r : List Byte) : Bool :=
  64 ≤ field r 0x38 4 || s.badRoot (dword r 0x20) || s.badRoot (dword r 0x28)

/-- The unit has room for a ray: it holds 4,096. -/
def State.rayRoom (s : State) (cluster : Nat) : Bool := (s.rays.filter fun r => r.cluster == cluster).length < 4096

/-- The unit has room for a pair walk: it holds 16. -/
def State.walkRoom (s : State) (cluster : Nat) : Bool := (s.walks.filter fun w => w.cluster == cluster).length < 16

/-- Hands a ray to the unit of a thread's cluster. -/
def State.addRay (s : State) (th : Thread) (rec : List Byte) : State :=
  match s.launchOf th with
  | none => s
  | some l =>
    let (id, s1) := s.newId
    { s1 with rays := s1.rays ++ [{ id := id, cluster := s.clusterOf th, launch := l.id, record := rec }] }

/-- Hands a pair walk to the unit. -/
def State.addWalk (s : State) (th : Thread) (desc : List Byte) (addr : Dword) : State :=
  match s.launchOf th with
  | none => s
  | some l =>
    let (id, s1) := s.newId
    { s1 with walks := s1.walks ++ [{ id := id, cluster := s.clusterOf th, launch := l.id, desc := desc, addr := addr
                                      emitted := word desc 0x44, seq := word desc 0x10, spill := word desc 0x4C }] }

/-- TRACE of one member. -/
def traceOne (i : Instr) (a : Dword) (s : State) (th : Thread) : Res :=
  s.afterRelease th 4 (
    let (s1, r) := s.ownRead th a 64 64 false
    r.res s1 th i fun rec =>
      if s1.badRayRecord rec then .trap s1 .desc 0 0
      else
        let (s2, q) := s1.spawnCheck th (dword rec 0x30)
        q.res s2 th i fun _ =>
          if s2.rayRoom (s2.clusterOf th) then .done (s2.addRay th rec) else .stall (s2.holdAt th.id i (.trace rec a)))

/-- TRACE: 14 R331, R332. -/
def execTrace (x : Desc) (s : State) : Host.Outcome State Fault Refusal :=
  runTeam (.trace x) (fun s0 s1 th => traceOne (.trace x) (s0.a64 th x) s1 th) s

/-- The checks of a pair descriptor that raise DESC, but for its entries and POOLCAP (14 R336, R340). RING and SPILL in a window fail
them as ROOT does: the model's choice (log 76). -/
def State.badPairDesc (s : State) (d : List Byte) : Bool :=
  let ring := dword d 0x18
  let spill := dword d 0x20
  4 ≤ field d 0x14 4 || !zeros d 0x42 2 || s.badRoot (dword d 0) || s.badRoot (dword d 8)
    || field d 0x28 4 < 1 || 2 ^ 20 < field d 0x28 4 || 2 ^ 20 < field d 0x2C 4 || ring.toNat % 32 != 0 || s.windowed ring
    || spill.toNat % 32 != 0 || s.windowed spill || (field d 0x2C 4 == 0 && spill != 0#64)

/-- PAIRS of one member. -/
def pairsOne (i : Instr) (a : Dword) (s : State) (th : Thread) : Res :=
  s.afterRelease th 4 (
    let (s1, r) := s.ownRead th a 128 128 false
    r.res s1 th i fun d =>
      if s1.badPairDesc d then .trap s1 .desc 0 0
      else
        let (s2, q) := s1.spawnCheck th (dword d 0x30)
        q.res s2 th i fun _ =>
          let (s3, q2) := s2.spawnCheck th (dword d 0x38)
          q2.res s3 th i fun _ =>
            if s3.walkRoom (s3.clusterOf th) then .done (s3.addWalk th d a) else .stall (s3.holdAt th.id i (.pairs d a)))

/-- PAIRS: 14 R332, R340. -/
def execPairs (x : Desc) (s : State) : Host.Outcome State Fault Refusal :=
  runTeam (.pairs x) (fun s0 s1 th => pairsOne (.pairs x) (s0.a64 th x) s1 th) s

/-- TRAVERSAL_ROOM: a TRACE or PAIRS that waits for its unit is admitted (14 R331, R340). -/
def execTraversalRoom (s : State) : Host.Outcome State Fault Refusal :=
  match s.thread? s.arg.t with
  | none => .next s
  | some th =>
    match th.hold with
    | .trace rec _ =>
      .next (if s.rayRoom (s.clusterOf th) then (s.addRay th rec).modThread th.id fun x => x.release else s)
    | .pairs d a =>
      .next (if s.walkRoom (s.clusterOf th) then (s.addWalk th d a).modThread th.id fun x => x.release else s)
    | _ => .next s

/-! ### Ends -/

def State.setRay (s : State) (r : Ray) : State := { s with rays := s.rays.map fun x => if x.id == r.id then r else x }
def State.setWalk (s : State) (w : PairWalk) : State := { s with walks := s.walks.map fun x => if x.id == w.id then w else x }

/-- A walk writes pieces of a record at an address in order, as far as they go; `deny` is a page that cannot be reached. -/
def State.writePieces (s : State) (o : Owner) (l : Launch) (deny : Option (Dword × Fail)) (a : Dword) :
    List (Nat × List Byte) → State × Got Unit
  | [] => (s, .ok ())
  | (off, bs) :: rest =>
    let at_ := a + BitVec.ofNat 64 off
    if !canonical l.space a then (s, .fail { cause := .range } a)
    else if let some (_, f) := denied deny at_ bs.length then (s, .fail f at_)
    else match s.agentWrite o l.space false 2 false 3 at_ bs with
      | (s1, .ok _) => State.writePieces s1 o l deny a rest
      | r => r

/-- The insertion that a walk waits with. -/
def State.inserting (s : State) (lid src : Nat) : Bool :=
  match s.launch? lid with
  | some l => l.waiting.any fun p => p.src == src
  | none => false

/-- The pieces of a result record (14 R326). -/
def resultPieces (id : Nat) (ray : List Byte) (status reason : Nat) (addr : Dword) (best : Option Hit)
    (dfr : Option (Cand × List Nat)) : List (Nat × List Byte) :=
  let h (f : Hit → Nat) (n : Nat) : List Byte := toBytes n ((best.map f).getD 0)
  let free (k : Nat) : Nat := (Config.rayField id k).toNat
  [(0, toBytes 1 status ++ toBytes 1 reason ++ toBytes 1 0 ++ h (·.kind) 1 ++ h (·.t) 4 ++ h (·.u) 4 ++ h (·.v) 4 ++ h (·.prim) 4
      ++ h (·.leafId) 4 ++ h (·.leaf) 8 ++ h (·.attr) 4 ++ h (·.entry) 1
      ++ toBytes 1 (match dfr with | some d => d.1.entry | none => free 1))]
  ++ (match dfr with
    | some (c, path) =>
      [(0x28, toBytes 8 c.leaf.toNat ++ toBytes 4 c.t.toNat ++ toBytes 4 c.u.toNat ++ toBytes 4 c.v.toNat ++ toBytes 4 (free 2))
      , (0x50, cursorBytes path c.entry)]
    | none => [(0x28, toBytes 8 (free 3))])
  ++ [(0x40, toBytes 8 addr.toNat ++ toBytes 4 (field ray 0x3C 4))]

/-- STATUS, REASON and FAULTADDR of a stopped walk; none while it has not ended (14 R326, R327). -/
def rayStatus (x : RayRun) : Option (Nat × Nat × Dword) :=
  let free := Config.rayField x.id 4
  match x.stop with
  | some .ended => some (if x.best.isSome then 1 else 0, 0, free)
  | some (.deferred ..) => some (2, 0, free)
  | some .badRay => some (3, 0, free)
  | some (.bad a) => some (4, 0, a)
  | some .depth => some (5, 0, free)
  | some (.progFault r a) => some (6, r, a)
  | some (.pause (.fault f a)) => some (7, f.cause.code, a)
  | _ => none

/-- A walk's ray leaves the unit, or waits there with its insertion. -/
def State.dropRay (s0 : State) (r : Ray) : State :=
  let s := s0.farDrop (.walk r.id)
  if s.inserting r.launch r.id then s.setRay { r with ended := true } else { s with rays := s.rays.filter fun x => x.id != r.id }

/-- An intersection core stops: what it said of its candidate is kept with the ray (14 R333, R334). -/
def State.endProgram (s0 : State) (th : Thread) (v : Verdict) : State :=
  let s := s0.forgetThread th
  { s with
    threads := s.threads.filter fun x => x.id != th.id
    rays := s.rays.map fun r =>
      if r.id == th.group && r.prog == some th.id then { r with verdicts := r.verdicts ++ [v], prog := none, cand := none } else r }

/-- Where a program's trap lies: the faulting address, or the PC of a trap without one (14 R333). -/
def progAddr (t : Trap) : Dword := if t.defer || t.addr != 0#64 then t.addr else t.pc

/-- A program that a trap has stopped ends with it. -/
def State.collectProgram (s : State) (r : Ray) : State :=
  match r.prog.bind s.thread? with
  | some th =>
    match th.halted with
    | some t => s.endProgram th (.fault t.cause.code (progAddr t))
    | none => s
  | none => s

/-- The walk stops for now: what it has read stays read. -/
def State.pauseRay (r : Ray) (x : RayRun) : State :=
  x.rd.s.setRay { r with
    seen := x.rd.seen
    tag := match x.stop with
      | some (.pause (.wait t)) => some t
      | _ => none }

/-- RAY_WALK_END: a walk that needs nothing more ends; its result is written and its continuation inserted (14 R326, R331). With
n records to read, the walk may stop short of its end. -/
def execRayWalkEnd (s0 : State) : Host.Outcome State Fault Refusal :=
  let s := match s0.ray? s0.arg.a with
    | some r => s0.collectProgram r
    | none => s0
  match s.ray? s.arg.a with
  | none => .next s
  | some r =>
    match s.launch? r.launch with
    | none => .next s
    | some l =>
      if r.ended || r.tag.isSome || r.prog.isSome then .next s
      else
        let x := s.runRay l r s.arg.n
        match rayStatus x with
        | none => .next (State.pauseRay r x)
        | some (status, reason, addr) =>
          let dfr := match x.stop with
            | some (.deferred c path) => some (c, path)
            | _ => none
          let payload := dword r.record 0x28
          let deny := match x.stop with
            | some (.pause _) => none
            | _ => r.deny
          match x.rd.s.writePieces (.walk r.id) l deny payload (resultPieces r.id r.record status reason addr x.best dfr) with
          | (s1, .ok _) =>
            .next ((s1.insertEvent l.id { entry := dword r.record 0x30, arg := payload, origin := .engine, src := r.id }).dropRay
              { r with seen := x.rd.seen })
          | (s1, .wait t _) => .next (s1.setRay { r with seen := x.rd.seen, tag := if t == 0 then none else some t })
          | (s1, .fail f a) =>
            .next ((s1.faultRecord l.id { source := 5, cause := f.cause.code, addr := a }).dropRay r)

/-! ### Intersection cores (14 R333, R334) -/

/-- Programs that run in a cluster; the unit has eight cores. -/
def State.programs (s : State) (cluster : Nat) : Nat :=
  (s.threads.filter fun x => x.unit == .intersection && ((s.ray? x.group).map Ray.cluster) == some cluster).length

/-- INTERSECTION_PROGRAM_START: a core of the unit starts the program of the candidate that a walk has come to (14 R333). -/
def execIntersectionProgramStart (s : State) : Host.Outcome State Fault Refusal :=
  match s.ray? s.arg.a with
  | none => .next s
  | some r =>
    match s.launch? r.launch with
    | none => .next s
    | some l =>
      if r.ended || r.tag.isSome || r.prog.isSome || 8 ≤ s.programs r.cluster || s.isloadWaits then .next s
      else
        let x := s.runRay l r s.arg.n
        match x.stop with
        | some (.need c) =>
          let (id, s1) := x.rd.s.newId
          let w := s1.progWord r.cluster c.prog
          let th : Thread :=
            { id := id, unit := .intersection, group := r.id, pc := (w.extractLsb' 0 14).setWidth 64, alloc := 64
              budget := (w.extractLsb' 16 11).toNat, origin := .engine }
          .next ({ s1 with threads := s1.threads ++ [th] }.setRay
            { r with seen := x.rd.seen, cand := some c, prog := some id })
        | some (.pause _) => .next (State.pauseRay r x)
        | _ => .next s

/-- PROGRAM_BUDGET_EXPIRY: a program has issued its budget without ending and is stopped; its walk defers (14 R328, R333). -/
def execProgramBudgetExpiry (s : State) : Host.Outcome State Fault Refusal :=
  match s.thread? s.arg.t with
  | some th =>
    .next (if th.unit == .intersection && th.halted.isNone && th.budget ≤ th.issued then s.endProgram th .budget else s)
  | none => .next s

/-- Eight words written from v register n on; they are not register results. -/
def State.putWords (s : State) (t : Nat) (o : Opnd) (ws : List Word) : State :=
  match o with
  | .v b => s.modThread t fun th => (List.range ws.length).foldl (fun th i => th.setV (b + BitVec.ofNat 8 i) (ws.getD i 0)) th
  | _ => s

/-- The ray and the candidate of an intersection core. -/
def State.candOf (s : State) (th : Thread) : Option (Ray × Cand) := (s.ray? th.group).bind fun r => r.cand.map fun c => (r, c)

/-- ISRAY: 14 R334. -/
def execIsray (x : Desc) (s : State) : Host.Outcome State Fault Refusal :=
  runTeam (.isray x) (fun _ s1 th =>
    match s1.candOf th with
    | some (r, c) => .done (s1.putWords th.id x.d (((List.range 7).map fun i => word r.record (4 * i)) ++ [c.tc]))
    | none => .done s1) s

/-- ISCAND: 14 R334. -/
def execIscand (x : Desc) (s : State) : Host.Outcome State Fault Refusal :=
  runTeam (.iscand x) (fun _ s1 th =>
    match s1.candOf th with
    | some (_, c) =>
      .done (s1.putWords th.id x.d
        [c.leaf.extractLsb' 0 32, c.leaf.extractLsb' 32 32, BitVec.ofNat 32 c.entry, c.prim, c.user, c.t, c.u, c.v])
    | none => .done s1) s

/-- ISACC and ISEND. -/
def reportTeam (i : Instr) (x : Desc) (last : Bool) (s : State) : Host.Outcome State Fault Refusal :=
  runTeam i (fun s0 s1 th =>
    .jump (s1.endProgram th
      (.acc (BitVec.ofNat 32 (s0.arg' th (litOf x.toOps4) .f32 x.a)) (s0.b32 th x) last))) s

/-- ISACC: 14 R334. -/
def execIsacc (x : Desc) (s : State) : Host.Outcome State Fault Refusal := reportTeam (.isacc x) x false s

/-- ISEND: 14 R334. -/
def execIsend (x : Desc) (s : State) : Host.Outcome State Fault Refusal := reportTeam (.isend x) x true s

/-- ISREJ: 14 R334. -/
def execIsrej (x : Desc) (s : State) : Host.Outcome State Fault Refusal :=
  runTeam (.isrej x) (fun _ s1 th => .jump (s1.endProgram th .rej)) s

/-! ### ISLOAD (14 R335) -/

/-- ISLOAD: 14 R335. The thread waits, not yielding, until no program runs. -/
def execIsload (x : Desc) (s : State) : Host.Outcome State Fault Refusal :=
  runTeam (.isload x) (fun s0 s1 th =>
    let a := s0.a64 th x
    let n := (s0.b32 th x).toNat
    if a.toNat % 256 != 0 then .trap s1 .misalign a 0
    else if n < 256 || 16384 < n || n % 4 != 0 then .trap s1 .range 0 0
    else if s1.islock then .trap s1 .prot a 0
    else .stall (s1.holdAt th.id (.isload x) (.isload a n (x.w2.getLsbD 0)))) s

/-- The traversal units of the module. -/
def units : Nat := 16

/-- Every instruction store changes in one step. -/
def State.loadStores (s : State) (bs : List Byte) (lock : Bool) : State :=
  { s with istore := List.replicate units (bs ++ List.replicate (16384 - bs.length) 0), islock := lock }

/-- ISLOAD_APPLY: no intersection core runs; the thread reads the image, and every store changes (14 R335). -/
def execIsloadApply (s : State) : Host.Outcome State Fault Refusal :=
  match s.thread? s.arg.t with
  | none => .next s
  | some th =>
    match th.hold with
    | .isload a n lock =>
      if s.threads.any fun x => x.unit == .intersection then .next s
      else if s.islock then .next (s.trapHeld th .prot a 0)
      else
        let (s1, r) := s.ownRead th a n 256 true
        .next (match r with
          | .ok bs => ((s1.loadStores bs lock).farDrop (.thread th.id)).modThread th.id fun x => x.release
          | .bad b => s1.trapHeld th b.cause b.addr b.detail
          | .park tag va => s1.modThread th.id fun x => { x with hold := .parked tag va }
          | .later => s1)
    | _ => .next s

/-! ### Pair walks (14 R339, R340) -/

/-- The status of a walk that a step has found to stop at an error; none otherwise. -/
def pairStatus (x : PairRun) : Option PairStop :=
  match x.stop with
  | some (.bad a) => some { status := 4, addr := a }
  | some .depth => some { status := 5 }
  | some (.pause (.fault f a)) => some { status := 7, reason := f.cause.code, addr := a }
  | none => some { status := 0 }
  | _ => none

/-- A walk stops; BADNODE and FAULT leave a record in the fault queue (14 R340). -/
def State.stopPairs (s : State) (w : PairWalk) (p : PairStop) : State :=
  let s1 := s.setWalk { w with stop := some p, deny := none }
  if p.status == 4 then s1.faultRecord w.launch { source := 5, cause := Cause.desc.code, addr := p.addr }
  else if p.status == 7 then s1.faultRecord w.launch { source := 5, cause := p.reason, addr := p.addr }
  else s1

/-- The walk stops for now: what it has read stays read. -/
def State.pausePairs (s : State) (w : PairWalk) (t : Nat) : State := s.setWalk { w with tag := if t == 0 then none else some t }

/-- The 32 bytes of a pair record (14 R337). -/
def pairBytes (e : Emit) (seq : Word) : List Byte :=
  toBytes 8 e.x.toNat ++ toBytes 8 e.y.toNat ++ toBytes 4 e.idx ++ toBytes 4 e.idy ++ toBytes 4 seq.toNat ++ toBytes 3 0
    ++ toBytes 1 (if e.self then 1 else 0)

/-- Places a pair in the ring or the spill area, or stops the walk (14 R339, R340): CURSOR names the pair when its record's write
fails, not when the read of CONSUMED does. -/
def State.placePair (s : State) (l : Launch) (w : PairWalk) (e : Emit) : State :=
  let d := w.desc
  let fault (s : State) (f : Fail) (a : Dword) (path : List Nat) : State :=
    (s.farDrop (.walk w.id)).stopPairs w { status := 7, reason := f.cause.code, addr := a, path := path }
  match if let some (_, f) := denied w.deny (w.addr + 0x48) 4 then (s, Got.fail f (w.addr + 0x48))
      else s.walkRead (.walk w.id) l (w.addr + 0x48) 4 with
  | (s1, .wait t _) => s1.pausePairs w t
  | (s1, .fail f a) => fault s1 f a []
  | (s1, .ok cs) =>
    let cap := field d 0x28 4
    let ring := (w.emitted - word cs 0).toNat < cap
    let at_ : Dword := if ring then dword d 0x18 + BitVec.ofNat 64 (32 * (w.emitted.toNat % cap))
      else dword d 0x20 + BitVec.ofNat 64 (32 * w.spill.toNat)
    if !ring && field d 0x2C 4 ≤ w.spill.toNat then (s1.farDrop (.walk w.id)).stopPairs w { status := 8, path := e.path }
    else match s1.writePieces (.walk w.id) l w.deny at_ [(0, pairBytes e w.seq)] with
      | (s2, .wait t _) => s2.pausePairs w t
      | (s2, .fail f a) => fault s2 f a e.path
      | (s3, .ok _) =>
        let s2 := s3.farDrop (.walk w.id)
        let w1 := { w with placed := w.placed + 1, seq := w.seq + 1 }
        if ring then
          (s2.setWalk { w1 with emitted := w.emitted + 1 }).insertEvent l.id
            { entry := dword d 0x30, arg := at_, origin := .engine, src := w.id }
        else s2.setWalk { w1 with spill := w.spill + 1 }

/-- A pair walk that may go on: not stopped, not waiting for a page or for pool room. -/
def State.walking (s : State) (w : PairWalk) : Bool := !w.ended && w.tag.isNone && !s.inserting w.launch w.id

/-- PAIR_EMIT: a walk places the next pair of its order (14 R338, R339). -/
def execPairEmit (s : State) : Host.Outcome State Fault Refusal :=
  match s.walks.find? fun w => w.id == s.arg.a with
  | none => .next s
  | some w =>
    match s.launch? w.launch with
    | none => .next s
    | some l =>
      if !s.walking w || w.stop.isSome then .next s
      else match s.runPairs l w s.arg.n with
        | none => .next s
        | some x =>
          let w1 := { w with seen := x.rd.seen }
          .next (match x.stop with
            | some (.pair e) => x.rd.s.placePair l w1 e
            | some (.pause (.wait t)) => x.rd.s.pausePairs w1 t
            | some (.pause .later) => x.rd.s.setWalk w1
            | _ => s)

/-- The pieces that the end of a walk writes into its descriptor (14 R336). -/
def descPieces (w : PairWalk) (p : PairStop) : List (Nat × List Byte) :=
  [(0x40, toBytes 1 p.status ++ toBytes 1 (if p.status == 7 then p.reason else 0)), (0x44, toBytes 4 w.emitted.toNat)
  , (0x10, toBytes 4 w.seq.toNat), (0x4C, toBytes 4 w.spill.toNat)]
  ++ (if p.path.isEmpty then [] else [(0x50, cursorBytes p.path 0)])

/-- Writes the descriptor of a stopped walk and inserts DONE. -/
def State.endPairs (s : State) (l : Launch) (w : PairWalk) (p : PairStop) : State :=
  let drop (s : State) : State := { s.farDrop (.walk w.id) with walks := s.walks.filter fun x => x.id != w.id }
  match s.writePieces (.walk w.id) l w.deny w.addr (descPieces w p) with
  | (s1, .wait t _) => s1.pausePairs w t
  | (s1, .fail f a) => (drop s1).faultRecord l.id { source := 5, cause := f.cause.code, addr := a }
  | (s1, .ok _) =>
    let s2 := s1.insertEvent l.id { entry := dword w.desc 0x38, arg := w.addr, origin := .engine, src := w.id }
    if s2.inserting l.id w.id then (s2.farDrop (.walk w.id)).setWalk { w with ended := true } else drop s2

/-- PAIR_WALK_END: a walk without a further pair, or stopped, writes its descriptor and inserts DONE (14 R340). -/
def execPairWalkEnd (s : State) : Host.Outcome State Fault Refusal :=
  match s.walks.find? fun w => w.id == s.arg.a with
  | none => .next s
  | some w =>
    match s.launch? w.launch with
    | none => .next s
    | some l =>
      if !s.walking w then .next s
      else match w.stop with
        | some p => .next (s.endPairs l w p)
        | none =>
          let stop (s : State) (w : PairWalk) (p : PairStop) : State := (s.stopPairs w p).endPairs l { w with stop := some p, deny := none } p
          match s.runPairs l w s.arg.n with
          | none => .next (stop s w { status := 4, addr := w.addr })
          | some x =>
            let w1 := { w with seen := x.rd.seen }
            match x.stop, pairStatus x with
            | _, some p => .next (stop x.rd.s w1 p)
            | some (.pause (.wait t)), none => .next (x.rd.s.pausePairs w1 t)
            | some (.pause .later), none => .next (x.rd.s.setWalk w1)
            | _, none => .next s

end Sys2Proof.Machine
end

