-- ==== Sys2Proof/Machine/Launch.lean ====
section
/-! DEFINITION. Launch queues (21): QWAIT and LAUNCH (R422 to R425), arrival-window bindings (20 R411), completion records (R426),
and the duties of the service processor's firmware (R427, R442). -/

namespace Sys2Proof.Machine

/-! ### Queue descriptors (21 R420) -/

def State.qdesc (s : State) (q : Nat) : Nat := (s.img.qdesc.getD q 0).toNat

def State.qdescBytes (s : State) (q : Nat) : List Byte := s.readPhys (s.qdesc q) 128

/-- A queue's descriptor cannot be read, or no access to it succeeds (17 R384, 23 R433). -/
def State.qdescLost (s : State) (q : Nat) : Bool := (linesOf (s.qdesc q) 128).any s.badLine

/-- The address space of a queue. -/
def queueSpace (d : List Byte) : Space :=
  { asid := BitVec.ofNat 16 (field d 0x5A 2), root := field d 0x60 8, five := field d 0x59 1 == 5, site := field d 0x43 1 % 2 }

def State.modQueueOf (s : State) (q : Nat) (f : Queue → Queue) : State := { s with queues := s.queues.modify q f }

def State.queueOf (s : State) (q : Nat) : Queue := s.queues.getD q {}

/-- A read through an address space by a service-processor thread in supervisor mode, for which the access table is open
(20 R402). -/
def State.svcRead (s : State) (o : Owner) (sp : Space) (a : Dword) (n : Nat) : State × Got (List Byte) :=
  if canonical sp a && canonical sp (a + BitVec.ofNat 64 (n - 1)) then s.agentRead o sp true 0 true (n / 4096 + 2) a n
  else (s, .fail { cause := .range } a)

/-- The offset of the first field of a queue descriptor that is not valid (21 R442). -/
def badField (d : List Byte) : Option Nat :=
  let cap (o : Nat) : Bool := 1 ≤ field d o 4 && field d o 4 ≤ 65536
  if field d 0 2 != 1 then some 0
  else if !zeros d 2 0x2A then some 2
  else if !zeros d 0x40 3 then some 0x40
  else if !zeros d 0x5C 4 then some 0x5C
  else if 3 < field d 0x58 1 then some 0x58
  else if field d 0x59 1 != 4 && field d 0x59 1 != 5 then some 0x59
  else if 1 < field d 0x43 1 then some 0x43
  else if field d 0x60 8 % 4096 != 0 then some 0x60
  else if !cap 0x34 then some 0x34
  else if !cap 0x4C then some 0x4C
  else if field d 0x38 8 % 8 != 0 then some 0x38
  else if field d 0x50 8 % 16 != 0 then some 0x50
  else if field d 0x34 4 < (word d 0x30 - word d 0x2C).toNat then some 0x30
  else none

/-! ### Starting a launch (21 R424, 05 R140, R141) -/

/-- The outcome of a `.start`. -/
inductive Started where
  | ok (id : Nat)
  | code (n : Nat)
  | wait (tag : Nat) (va : Dword)
  deriving DecidableEq, Repr

/-- The fields of a launch record. -/
def parseRecord (a : Dword) (r : List Byte) : LaunchRec :=
  { addr := a, cls := field r 2 1, entry := dword r 8, lx := field r 0x10 2, ly := field r 0x12 2, lz := field r 0x14 2
    gx := field r 0x18 1, gy := field r 0x19 1, gz := field r 0x1A 1
    shape := (List.range 4).map fun i => (field r (0x20 + 6 * i) 2, field r (0x22 + 6 * i) 2, field r (0x24 + 6 * i) 2)
    poolAddr := dword r 0x40, poolCap := field r 0x48 4, binTimer := field r 0x4C 4, faultq := dword r 0x50, flagWord := dword r 0x58
    stack := field r 0x60 4, hints := (r.drop 0x68).take 24 }

/-- The checks of a record that need no header (05 R141, 21 R430). -/
def recordOk (cls : Nat) (r : List Byte) : Bool :=
  let x := parseRecord 0 r
  field r 0 2 == 1 && zeros r 3 5 && zeros r 0x16 2 && zeros r 0x1B 5 && zeros r 0x64 4 && zeros r 0x7A 6 && field r 0x78 1 < 2
    && x.cls ≤ 3 && x.cls == cls && 0 < x.lx && 0 < x.ly && 0 < x.lz && 0 < x.gx && 0 < x.gy && 0 < x.gz
    && x.gx * x.gy * x.gz ≤ 32 && x.entry.extractLsb' 0 6 == 0#6
    && (x.poolCap == 0 || (32 ≤ x.poolCap && x.poolCap ≤ 2 ^ 24 && x.poolAddr.extractLsb' 0 7 == 0#7))
    && (x.binTimer == 0 || (64 ≤ x.binTimer && x.binTimer ≤ 65535)) && x.stack % 128 == 0 && field r 0x38 8 % 8 == 0

/-- The checks of a record against its entry header (05 R141). -/
def headerFits (x : LaunchRec) (hb : List Byte) : Bool :=
  let h := parseHeader hb
  headerOk x.entry hb
    && ((List.range 4).all fun i =>
      let t := h.threads.getD i 0
      match x.shape.getD i (0, 0, 0) with
      | (a, b, c) => if t == 0 then a == 0 && b == 0 && c == 0 else a * b * c == t)
    && fitsWith [] h 0 0 && (h.tvec == 0 || x.stack != 0)

/-- The lowest free launch ID, 1 to 1,023. -/
def State.freeLaunchId (s : State) : Option Nat :=
  ((List.range 1023).map (· + 1)).find? fun i => !(s.launches.any fun l => l.id == i)

/-- The gangs of an accepted launch enter the dispatcher. -/
def State.addGangs (s : State) (lid gangs size : Nat) : State :=
  { s with
    nextId := s.nextId + gangs
    gangs := s.gangs ++ (List.range gangs).map fun i => { id := s.nextId + i, launch := lid, index := i, size := size } }

/-- `.start` of the record at an address for queue q, by a thread or by firmware. -/
def State.startLaunch (s : State) (o : Owner) (q : Nat) (a : Dword) : State × Started :=
  let d := s.qdescBytes q
  let sp := queueSpace d
  match s.freeLaunchId with
  | none => (s, .code 3)
  | some id =>
    if s.qdescLost q then (s, .code 2) else
    match s.svcRead o sp a 128 with
    | (s1, .wait t va) => (s1, .wait t va)
    | (s1, .fail ..) => (s1, .code 2)
    | (s1, .ok r) =>
      let x := parseRecord a r
      if !recordOk (field d 0x58 1) r then (s1, .code 1)
      else match s1.svcRead o sp x.entry 64 with
        | (s2, .wait t va) => (s2, .wait t va)
        | (s2, .fail ..) => (s2, .code 2)
        | (s2, .ok hb) =>
          let h := parseHeader hb
          let ua := dword r 0x38
          if !headerFits x hb then (s2, .code 1)
          else match if ua == 0#64 || h.uniforms == 0 then (s2, Got.ok []) else s2.svcRead o sp ua (8 * h.uniforms) with
            | (s3, .wait t va) => (s3, .wait t va)
            | (s3, .fail ..) => (s3, .code 2)
            | (s3, .ok ub) =>
              let us := (List.range h.uniforms).map fun i => dword ub (8 * i)
              let (n, s4) := s3.newId
              let l : Launch := { id := id, queue := q, lr := x, hdr := h, uniforms := us, space := sp, accepted := n }
              (State.addGangs { s4 with launches := s4.launches ++ [l] } id (x.lx * x.ly * x.lz) (x.gx * x.gy * x.gz), .ok id)

/-! ### The other operations (21 R424, R425) -/

/-- A launch whose ID is live for ops 2 to 4. -/
def State.liveLaunch (s : State) (a : Dword) : Option Launch :=
  s.launches.find? fun l => l.id == a.toNat && (l.state == .live || l.state == .saving || l.state == .saved)

/-- `.reply`. -/
def State.replyTo (s : State) (v : Dword) (tag : Word) : State × Nat :=
  match s.svcs.find? fun r => BitVec.ofNat 32 r.tag == tag with
  | none => (s, 4)
  | some r =>
    let s1 : State := { s with svcs := s.svcs.filter fun x => x.tag != r.tag }
    match (s1.thread? r.thread).bind fun th => s1.group? th.group with
    | none => (s1, 0)
    | some g =>
      (if g.res == .saved || g.res == .evicted || g.res == .restoring then
        s1.modGroup g.id fun x => { x with mail := x.mail ++ [(r.tag, v)] }
      else s1.deliverReply r.tag v, 0)

/-- `.preempt`: PREEMPTED is queued to the event list of the launch's own queue (21 R424; DESIGN CHOICE, log 43). -/
def State.preemptLaunch (s : State) (a : Dword) : State × Nat :=
  match s.liveLaunch a with
  | none => (s, 4)
  | some l =>
    (match l.state with
    | .saved => s.queueEvent l.queue { kind := 5, eid := l.id }
    | _ => s.modLaunch l.id fun x => { x with state := .saving, notify := x.notify + 1 }, 0)

/-- `.resume`: the saved gangs go back to the dispatcher; timers count on from where they stood. -/
def State.resumeLaunch (s : State) (a : Dword) : State × Nat :=
  match s.liveLaunch a with
  | none => (s, 4)
  | some l =>
    if l.state != .saved then (s, 5)
    else
      let shift := s.cycle - l.pausedAt.getD s.cycle
      let gs := s.groups.filter fun g => g.launch == l.id && g.res == .saved && !(s.gangs.any fun x => x.saved.contains g.id)
        && !((s.live g.id).isEmpty && g.cmds.isEmpty)
      let ids := gs.foldl (fun (ids : List Nat) g => if ids.contains g.gang then ids else ids ++ [g.gang]) []
      let new : List Gang := ids.map fun i =>
        let mine := gs.filter fun g => g.gang == i
        { id := i, launch := l.id, index := (mine.head?.map Group.gangIdx).getD 0, saved := mine.map (·.id) }
      ({ s with
        gangs := s.gangs ++ new
        timers := s.timers.map fun e => if e.launch == l.id then { e with timer := e.timer + shift } else e
        launches := s.launches.map fun x => if x.id == l.id then
            { x with state := .live, pausedAt := none, bins := x.bins.map fun b => { b with timer := b.timer + shift } }
          else x }, 0)

/-- `.bind` of op word b for the thread behind a request tag. -/
def State.bindWindow (s : State) (tag b : Word) : State × Nat :=
  match s.svcs.find? fun r => BitVec.ofNat 32 r.tag == tag with
  | none => (s, 4)
  | some r =>
    match (s.thread? r.thread).bind fun th => s.group? th.group with
    | none => (s, 4)
    | some g =>
      let slot := (b.extractLsb' 16 6).toNat
      let w := (b.extractLsb' 0 12).toNat
      let same (x : Binding) : Bool := x.group == g.id && x.slot == slot
      if b &&& 0x7FC0F000#32 != 0#32 || g.hdr.slots ≤ slot then (s, 1)
      else match s.bindings.find? fun x => x.window == w with
        | some x =>
          if !same x then (s, 5)
          else ((if b.getLsbD 31 then { s with bindings := s.bindings.filter fun y => y.window != w } else s), 0)
        | none =>
          ((if b.getLsbD 31 then s else { s with bindings := s.bindings ++ [{ window := w, launch := g.launch, group := g.id, slot := slot }] }), 0)

/-! ### The instructions -/

/-- A LAUNCH that answers at once: its status to D. -/
def launchTeam (i : Instr) (x : Desc) (f : Dword → Word → State → State × Nat) (s : State) : Host.Outcome State Fault Refusal :=
  runTeam i (fun s0 s1 th =>
    let (s2, n) := f (s0.a64 th x) (s0.b32 th x) s1
    .done (s2.result th.id x.d 32 (BitVec.ofNat 128 n))) s

/-- The result word of `.start`. -/
def startWord : Started → Nat
  | .ok id => 2 ^ 16 * id
  | .code n => n
  | .wait .. => 0

/-- LAUNCH.start of one member. -/
def launchStartOne (x : Desc) (a : Dword) (q : Word) (s : State) (th : Thread) : Res :=
  if 63 < q.toNat then .done (s.result th.id x.d 32 1)
  else s.afterRelease th 6 (
    match s.startLaunch (.thread th.id) q.toNat a with
    | (s1, .wait t va) => .stall (if t == 0 then s1 else s1.parkAt th.id (.launchStart x) t va)
    | (s1, r) =>
      let s2 := if startWord r == 3 then s1.modQueueOf th.tid fun y => { y with room := true } else s1
      .done (s2.result th.id x.d 32 (BitVec.ofNat 128 (startWord r))))

/-- LAUNCH.start: 21 R424. -/
def execLaunchStart (x : Desc) (s : State) : Host.Outcome State Fault Refusal :=
  runTeam (.launchStart x) (fun s0 s1 th => launchStartOne x (s0.a64 th x) (s0.b32 th x) s1 th) s

/-- LAUNCH.reply: 21 R424. -/
def execLaunchReply (x : Desc) (s : State) : Host.Outcome State Fault Refusal :=
  launchTeam (.launchReply x) x (fun a b s => s.replyTo a b) s

/-- LAUNCH.preempt: 21 R424. -/
def execLaunchPreempt (x : Desc) (s : State) : Host.Outcome State Fault Refusal :=
  launchTeam (.launchPreempt x) x (fun a b s => if 3 < b.toNat then (s, 1) else s.preemptLaunch a) s

/-- LAUNCH.resume: 21 R424. -/
def execLaunchResume (x : Desc) (s : State) : Host.Outcome State Fault Refusal :=
  launchTeam (.launchResume x) x (fun a b s => if b != 0#32 then (s, 1) else s.resumeLaunch a) s

/-- `.end`. -/
def State.endLaunchAt (s : State) (a : Dword) : State × Nat :=
  match s.liveLaunch a with
  | none => (s, 4)
  | some l => (s.endLaunch l.id, 0)

/-- LAUNCH.end: 21 R425. -/
def execLaunchEnd (x : Desc) (s : State) : Host.Outcome State Fault Refusal :=
  launchTeam (.launchEnd x) x (fun a b s => if b != 0#32 then (s, 1) else s.endLaunchAt a) s

/-- LAUNCH.bind: 21 R424, 20 R411. -/
def execLaunchBind (x : Desc) (s : State) : Host.Outcome State Fault Refusal :=
  launchTeam (.launchBind x) x (fun a b s => s.bindWindow (a.setWidth 32) b) s

/-- The oldest event of a selected kind among the 4,096 that the list holds, with its place. -/
def findEvent (es : List Event) (mask : Word) : Option Nat :=
  (es.take 4096).findIdx? fun e => 1 ≤ e.kind && mask.getLsbD (e.kind - 1)

/-- The words of an event (21 R423). -/
def Event.words (e : Event) : List Word :=
  [BitVec.ofNat 32 (e.kind + 2 ^ 8 * e.code + 2 ^ 16 * e.eid), e.tag, e.datum.extractLsb' 0 32, e.datum.extractLsb' 32 32]

/-- QWAIT: 21 R423. Without an event of a selected kind the thread waits, yielding (05 R158). -/
def execQwait (x : Desc) (s : State) : Host.Outcome State Fault Refusal :=
  runTeam (.qwait x) (fun s0 s1 th =>
    let m := s0.a32 th x
    let es := (s1.queueOf th.tid).events
    if m == 0#32 || m.extractLsb' 6 26 != 0#26 then .trap s1 .range 0 0
    else match findEvent es m with
      | none => .stall (s1.holdAt th.id (.qwait x) (.qwait m))
      | some n =>
        let e := es.getD n { kind := 0 }
        .done ((s1.modQueueOf th.tid fun y => { y with events := es.eraseIdx n }).putWords th.id x.d e.words)) s

/-- Threads that wait at QWAIT issue it again when their list holds an event for them. -/
def State.wakeQwait (s : State) : State :=
  s.mapThreads fun x =>
    match x.hold with
    | .qwait m => if (findEvent (s.queueOf x.tid).events m).isSome then { x with hold := .none } else x
    | _ => x

/-! ### Completion records (21 R426) -/

def doneRecord (addr : Dword) (status id : Nat) : List Byte :=
  toBytes 2 id ++ toBytes 1 status ++ toBytes 5 0 ++ toBytes 8 addr.toNat

/-- Changes a field of a queue descriptor. -/
def State.putDesc (s : State) (q o : Nat) (bs : List Byte) : State := s.writePhys none (s.qdesc q + o) bs

/-- Firmware writes the oldest waiting completion record when the descriptor is valid (21 R442) and the ring has room; a write
that fails, or whose page the host refuses, queues a FAULT event (21 R423). The record of a launch that never started reports the
entry at HEAD, which HEAD then passes (R427). -/
def State.flushDone (s : State) (q : Nat) : State :=
  let d := s.qdescBytes q
  let cap := field d 0x4C 4
  let tail := word d 0x48
  let at_ := dword d 0x50 + BitVec.ofNat 64 (16 * (tail.toNat % cap))
  match (s.queueOf q).done with
  | [] => s
  | r :: rest =>
    let taken (s : State) : State :=
      let s1 := (s.farDrop (.queue q)).modQueueOf q fun y => { y with done := rest, failed := false }
      if field r 0 2 == 0 then s1.putDesc q 0x2C (toBytes 4 (word d 0x2C + 1).toNat) else s1
    let lost (s : State) (f : Fail) (a : Dword) : State :=
      (taken s).queueEvent q { kind := 4, code := f.cause.code, eid := field r 0 2, datum := a }
    if (badField d).isSome then s
    else if (s.queueOf q).failed then lost s { cause := .prot } at_
    else if cap ≤ (tail - word d 0x44).toNat then s
    else match s.agentWrite (.queue q) (queueSpace d) true 0 true 3 at_ r with
      | (s1, .ok _) => (taken s1).putDesc q 0x48 (toBytes 4 (tail + 1).toNat)
      | (s1, .wait t _) => s1.modQueueOf q fun y => { y with tag := if t == 0 then none else some t }
      | (s1, .fail f a) => lost s1 f a

/-- Firmware of thread q runs and waits for no page. -/
def State.firmwareFree (s : State) (q : Nat) : Bool :=
  (s.threads.any fun x => x.unit == .service && x.tid == q && x.halted.isNone) && (s.queueOf q).tag.isNone

/-- Firmware's access to its descriptor meets lost data: its thread traps with MACHINE (17 R384, 23 R433). -/
def State.firmwareTrap (s : State) (q : Nat) : State :=
  match s.threads.find? fun x => x.unit == .service && x.tid == q with
  | some th =>
    let (n, s1) := s.newId
    s1.trap th.id { cause := .machine, pc := th.pc, words := [], addr := BitVec.ofNat 64 (s.qdesc q), order := n }
  | none => s

/-- DONE_RING_RECHECK: firmware reads DONEHEAD of a full ring again, and writes its record when there is room (21 R426). -/
def execDoneRingRecheck (s : State) : Host.Outcome State Fault Refusal :=
  .next (if !s.firmwareFree s.arg.q then s else if s.qdescLost s.arg.q then s.firmwareTrap s.arg.q else s.flushDone s.arg.q)

/-! ### Firmware (21 R427, R442) -/

/-- What firmware waited for is of no more use. -/
def State.entryDone (s : State) (q : Nat) : State :=
  (s.farDrop (.queue q)).modQueueOf q fun y => { y with failed := false, start := none }

/-- The entry at HEAD: the launch record that it names, once its read is done; a start under way has read it already. -/
def State.headEntry (s : State) (q : Nat) (d : List Byte) : State × Got Dword :=
  let y := s.queueOf q
  let a := dword d 0x38 + BitVec.ofNat 64 (8 * ((word d 0x2C).toNat % field d 0x34 4))
  match y.start with
  | some r => (s, .ok r)
  | none =>
    if y.failed then (s, .fail { cause := .prot } a)
    else match s.svcRead (.queue q) (queueSpace d) a 8 with
      | (s1, .ok eb) => (s1.modQueueOf q fun z => { z with start := some (dword eb 0) }, .ok (dword eb 0))
      | (s1, .wait t x) => (s1, .wait t x)
      | (s1, .fail f x) => (s1, .fail f x)

/-- Firmware takes entries of the launch ring in order; true when it is done with them for now (21 R427). A refused page fails the
read that waited for it: of the ring, or of a `.start`. -/
def State.takeEntries (s : State) (q : Nat) : Nat → State × Bool
  | 0 => (s, true)
  | fuel + 1 =>
    let d := s.qdescBytes q
    let head := word d 0x2C
    let failed := (s.queueOf q).failed
    let wait (s : State) (t : Nat) : State × Bool :=
      (s.modQueueOf q fun y => { y with tag := if t == 0 then none else some t, failed := false }, false)
    let taken (s : State) : State := s.entryDone q
    if head == word d 0x30 then (s, true)
    else match s.headEntry q d with
      | (s1, .wait t _) => wait s1 t
      | (s1, .fail ..) => ((taken s1).logEntry (.badQueue q 0x38), true)
      | (s1, .ok a) =>
        let past (s : State) : State := (taken s).putDesc q 0x2C (toBytes 4 (head + 1).toNat)
        let report (s : State) (n : Nat) : State × Bool :=
          let s2 := ((taken s).modQueueOf q fun y => { y with done := y.done ++ [doneRecord a n 0] }).flushDone q
          if (s2.queueOf q).done.isEmpty then State.takeEntries s2 q fuel else (s2, false)
        if failed then report s1 2
        else match s1.startLaunch (.queue q) q a with
          | (s2, .wait t _) => wait s2 t
          | (s2, .code 3) => ((taken s2).modQueueOf q fun y => { y with room := true }, true)
          | (s2, .code n) => report s2 n
          | (s2, .ok id) =>
            let s3 := past s2
            State.takeEntries (if field d 0x58 1 == 0 then s3.modQueueOf q fun y => { y with urgent := y.urgent ++ [id] } else s3) q fuel

/-- A gang of a launch that can be placed on no cores as they stand. -/
def State.blocked (s : State) (lid : Nat) : Bool :=
  s.gangs.any fun x => x.launch == lid && (match s.need x with
    | some nd => (s.coresFor x nd).isNone
    | none => false)

/-- The launch that firmware pre-empts next: the youngest BULK or SERVICE one, then the youngest INTERACTIVE one. -/
def State.victim (s : State) : Option Launch :=
  let youngest (f : Launch → Bool) : Option Launch := (s.launches.filter fun l => l.state == .live && f l).foldl (fun b l =>
    match b with
    | some x => if x.accepted < l.accepted then some l else b
    | none => some l) none
  match youngest fun l => l.lr.cls == 2 || l.lr.cls == 3 with
  | some l => some l
  | none => youngest fun l => l.lr.cls == 1

/-- Pre-emption for URGENT launches that cannot be placed; none when firmware has nothing to do for them now. -/
def State.makeRoom (s : State) (q : Nat) : Option State :=
  let us := (s.queueOf q).urgent.filter fun u => s.gangs.any fun x => x.launch == u
  match us.find? fun u => s.blocked u with
  | none => none
  | some u =>
    if s.launches.any fun l => l.state == .saving then none
    else match s.victim with
      | none => none
      | some l =>
        some ((s.preemptLaunch (BitVec.ofNat 64 l.id)).1.modQueueOf q fun y => { y with urgent := us, paused := y.paused ++ [(u, l.id)] })

/-- Firmware's answer to a service request (21 R427). -/
def State.serveSvc (s : State) (e : Event) : State :=
  let b := (e.datum.extractLsb' 0 32 : Word) &&& 0x003F0FFF#32
  match e.code with
  | 0 => (s.replyTo e.datum e.tag).1
  | 1 => let (s1, n) := s.bindWindow e.tag b; (s1.replyTo (BitVec.ofNat 64 n) e.tag).1
  | 2 => let (s1, n) := s.bindWindow e.tag (b ||| 0x80000000#32); (s1.replyTo (BitVec.ofNat 64 n) e.tag).1
  | _ => (s.replyTo 0xFFFFFFFFFFFFFFFF#64 e.tag).1

/-- Firmware of a queue resumes what it pre-empted for launches that are complete, each once its save is over. -/
def State.resumePaused (s : State) (q : Nat) : State :=
  let due := (s.queueOf q).paused.filter fun x => x.1 == 0 && !((s.launch? x.2).any fun l => l.state == .saving)
  (due.foldl (fun s x => (s.resumeLaunch (BitVec.ofNat 64 x.2)).1) s).modQueueOf q fun y =>
    { y with paused := y.paused.filter fun x => !due.contains x }

/-- Firmware writes the completion record of a launch, and resumes what was pre-empted for it. -/
def State.serveDone (s : State) (q : Nat) (e : Event) : State :=
  ((s.modQueueOf q fun y => { y with
    done := y.done ++ [doneRecord e.datum e.code e.eid]
    paused := y.paused.map fun x => if x.1 == e.eid then (0, x.2) else x
    urgent := y.urgent.filter fun u => u != e.eid }).resumePaused q).flushDone q

/-- Firmware logs a FAULT event, and ends the launch when its completion ring is lost. -/
def State.serveFault (s : State) (q : Nat) (e : Event) : State :=
  let d := s.qdescBytes q
  let ring := (e.datum - dword d 0x50).toNat < 16 * field d 0x4C 4
  let s1 := s.logEntry (.fault q e)
  if ring then (s1.endLaunchAt (BitVec.ofNat 64 e.eid)).1 else s1

/-- One duty of the firmware of thread q (21 R426, R427, R442): a waiting completion record, room for an URGENT launch, or the
oldest event of its list. A halted thread does nothing (23 R434). -/
def State.serveFirmware (s : State) (q : Nat) : State :=
  let y := s.queueOf q
  if !s.firmwareFree q then s
  else if s.qdescLost q then s.firmwareTrap q
  else if !y.done.isEmpty && (badField (s.qdescBytes q)).isNone then s.flushDone q
  else match s.makeRoom q with
    | some s1 => s1
    | none =>
      match y.events with
      | [] => s
      | e :: _ =>
        let drop (s : State) : State := s.modQueueOf q fun z => { z with events := z.events.drop 1 }
        let d := s.qdescBytes q
        let take : State :=
          let (s1, fin) := s.takeEntries q ((word d 0x30 - word d 0x2C).toNat + 1)
          if fin then drop s1 else s1
        match e.kind with
        | 1 | 6 =>
          match badField d with
          | some o => ((drop s).entryDone q).logEntry (.badQueue q o)
          | none => take
        | 2 => (drop s).serveDone q e
        | 3 => (drop s).serveSvc e
        | 4 => (drop s).serveFault q e
        | 5 => (List.range 64).foldl State.resumePaused (drop s)
        | _ => drop s

end Sys2Proof.Machine
end

