-- ==== Sys2Proof/Machine/Pages.lean ====
section
/-! DEFINITION. Page requests and their replies (18 R391 to R393, 20 R407), shoot-downs (R394, R395) and page-home moves (R396). -/

namespace Sys2Proof.Machine

/-- PAGE_REQUEST_ROOM: the oldest request that waits for a site's ring is written when there is room (20 R407). -/
def execPageRequestRoom (s : State) : Host.Outcome State Fault Refusal :=
  match s.preqs.find? fun r => r.site == s.arg.n && !r.sent with
  | some r => .next (s.sendReq r)
  | none => .next s

/-! ### Replies (18 R393) -/

/-- The access kind of an operation, as it was issued. -/
def MemOp.kind : MemOp → Kind
  | .ld _ | .ldmx .. | .cwb _ | .cinval _ => .read
  | .sg k .. => if k == 3 then .read else .write
  | .atom .. | .st _ | .red .. => .write

/-- Where an access lies when it walks as if new: a line operation sends no request (09 R237), an event has its home in local memory
(15 R347), and what an atomic cannot execute at raises PROT (09 R231). -/
def State.placeAgain (s : State) (th : Thread) (a : Access) : State × Place × Option (Nat × Place) :=
  let prot : Place := .failed { cause := .prot } a.va
  match a.op with
  | .cwb _ | .cinval _ => match s.linePlace { th with sup := a.sup } a.va with
    | (s1, p) => (s1, p, none)
  | .sg .. => match s.placePage th a.sup a.va a.size a.op.kind with
    | (s1, .dram pa c) => (s1, s1.linked (.dram pa c) a.va a.size, none)
    | (s1, .waiting t) => (s1, .waiting t, none)
    | (s1, .failed f x) => (s1, .failed f x, none)
    | (s1, _) => (s1, prot, none)
  | _ => match s.placeGlobal th a.sup a.va a.size a.op.kind with
    | (s1, p, tail) => if classTrap a.op p then (s1, prot, none) else (s1, s1.linkAll a.va a.size p tail)

/-- An access of a thread walks again from the root, and is as one that has just been issued (18 R393, R394); its request has not left,
so it counts in no send window. -/
def State.rewalk (s : State) (th : Thread) (a : Access) : State :=
  let asid := (s.spaceOf th).asid
  match ((s.uncache asid a.va).uncache asid (a.va + BitVec.ofNat 64 (a.size - 1))).placeAgain th a with
  | (s1, p, tail) =>
    let s2 : State := { s1 with unacked := s1.unacked.filter fun u => u.2.1 != a.id }
    (s2.modAccess th.id a.id fun x =>
      { x with place := p, level := s2.placeLevel th a.va p, tailLevel := s2.tailLevel th a.va tail, tail := tail, after := if isWindow a.op p then unendedWrites th a.id else [] }).settleAccess th.id a.id

/-- Accesses of every thread that a predicate selects walk again. -/
def State.rewalkAll (s : State) (f : Thread → Access → Bool) : State :=
  State.sweep (s.threads.foldl (fun s x => (x.ops.filter (f x)).foldl (fun s a =>
    match s.thread? x.id with
    | some th => s.rewalk th a
    | none => s) s) s)

/-- An access waits for a page request. -/
def waitsFor (tag : Nat) (a : Access) : Bool :=
  match a.place with
  | .waiting t => t == tag
  | _ => false

def parkedOn (tag : Nat) (th : Thread) : Option Dword :=
  match th.hold with
  | .parked t va => if t == tag then some va else none
  | _ => none

/-- Accesses whose request has been serviced walk again, once their threads run. -/
def State.retryPages (s : State) : State :=
  if s.threads.any fun x => x.ops.any fun a => s.answeredPage a && s.residentThread x then
    s.rewalkAll fun th a => s.answeredPage a && s.residentThread th
  else s

/-- The request has been serviced: what waited for it goes on, and walks again from the root. -/
def State.serviced (s : State) (r : PageReq) : State :=
  let tag := r.tag
  let t := some tag
  let clr (x : Option Nat) : Option Nat := if x == t then none else x
  let s1 := (s.uncache r.asid r.va).retryPages
  let copy (c : FrameCopy) : FrameCopy := { c with tag := clr c.tag }
  let s2 : State := { s1 with
    threads := s1.threads.map fun x =>
      { x with hold := if (parkedOn tag x).isSome then .none else x.hold, fetchTag := clr x.fetchTag }
    groups := s1.groups.map fun g => { g with
      cmds := g.cmds.map fun c => if c.tag.map (·.1) == t then { c with tag := none } else c
      frames := g.frames.map fun f => { f with plane0 := copy f.plane0, plane1 := copy f.plane1 } }
    gangs := s1.gangs.map fun x => { x with tag := clr x.tag }
    rays := s1.rays.map fun x => { x with tag := clr x.tag }
    walks := s1.walks.map fun x => { x with tag := clr x.tag }
    timers := s1.timers.map fun x => { x with tag := clr x.tag }
    queues := s1.queues.map fun x => { x with tag := clr x.tag }
    launches := s1.launches.map fun l => { l with flagTag := clr l.flagTag, poolTag := clr l.poolTag } }
  (s2.launches.filter fun l => l.tag == t).foldl (fun s l =>
    (s.setLaunch { l with tag := none }).flushRecords l.id (l.records.length + 1)) s2

/-- A thread parked at its instruction traps there; a LAUNCH.start answers PROT instead (21 R424). -/
def State.failParked (s : State) (th : Thread) (va : Dword) (f : Fail) : State :=
  match decode th.holdWords with
  | .ok (.launchStart x) => ((s.result th.id x.d 32 2).farDrop (.thread th.id)).modThread th.id fun y => y.release
  | _ => s.trapHeld th f.cause va f.detail

/-- The first word of a failed fetch that lies in the page of a request. -/
def fetchAddr (pc va : Dword) : Dword := if pc.toNat / 4096 == va.toNat / 4096 then pc else BitVec.ofNat 64 (va.toNat / 4096 * 4096)

/-- The request has failed: threads trap or are given deferred traps, and engines, walks and the memory side fail. -/
def State.failPage (s : State) (r : PageReq) (e : Fail) : State :=
  let t := some r.tag
  let s1 := s.threads.foldl (fun s x => (x.ops.filter (waitsFor r.tag)).foldl (fun s a =>
    (s.modAccess x.id a.id fun b => { b with place := .failed e b.va }).accessFailed a e) s) s
  let s2 := s1.threads.foldl (fun s x =>
    match parkedOn r.tag x with
    | some va => s.failParked x va e
    | none =>
      if x.fetchTag != t then s
      else match x.hold with
        | .trap tr => ((s.modThread x.id fun y => { y with hold := .none, fetchTag := none }).farDrop (.thread x.id)).escalate x.id tr false
        | _ => s.trapSoon x [] e.cause (fetchAddr x.pc r.va) e.detail) s1
  let lost := s2.groups.flatMap fun g => g.frames.flatMap fun f =>
    (if f.plane0.tag == t then [(g.id, f.index, false)] else []) ++ (if f.plane1.tag == t then [(g.id, f.index, true)] else [])
  let unwritten (l : Launch) : List Bin := match (l.bins.flatMap (·.threads)).find? fun p => !p.stored && !p.lost with
    | some q => l.bins.map fun b => { b with threads := b.threads.map fun p => if p.index == q.index then { p with lost := true } else p }
    | none => l.bins
  let s3 : State := { s2 with
    groups := s2.groups.map fun g => { g with
      cmds := g.cmds.map fun c => match c.tag with
        | some (u, va) => if u == r.tag then { c with tag := none, fault := some (e, va) } else c
        | none => c }
    rays := s2.rays.map fun x => if x.tag == t then { x with tag := none, deny := some (r.va, e) } else x
    walks := s2.walks.map fun x => if x.tag == t then { x with tag := none, deny := some (r.va, e) } else x
    timers := s2.timers.map fun x => if x.tag == t then { x with tag := none, deny := some (r.va, e) } else x
    queues := s2.queues.map fun x => if x.tag == t then { x with tag := none, failed := true } else x
    launches := s2.launches.map fun l =>
      let l1 := if l.flagTag == t then { l with flagTag := none, flagOrs := l.flagOrs.drop 1 } else l
      if l.poolTag == t then { l1 with poolTag := none, bins := unwritten l1 } else l1 }
  let s4 := lost.foldl (fun s (x : Nat × Nat × Bool) => s.reloadLost x.1 x.2.1 x.2.2 e r.va) s3
  let s5 := (s2.launches.filter fun l => l.flagTag == t).foldl (fun s l =>
    s.faultRecord l.id { source := 5, cause := e.cause.code, addr := l.lr.flagWord &&& ~~~3#64 }) s4
  let s5 := (s2.timers.filter fun x => x.stale && (s2.launch? x.launch).any (fun l => l.space.asid == r.asid)
    && x.va.toNat / 4096 == r.va.toNat / 4096).foldl (fun s x => s.sgFail x e.cause) s5
  let s6 := (s5.gangs.filter fun x => x.tag == t).foldl (fun s x => s.spawnFailed x e) s5
  (s6.launches.filter fun l => l.tag == t).foldl (fun s l =>
    match s.launch? l.id with
    | some l1 => s.queueLost l1 e.cause.code r.va
    | none => s) s6

/-- The host refuses the page (18 R393). -/
def State.refusedPage (s : State) (r : PageReq) : State := s.failPage r { cause := .prot }

/-- A walk's read of a table in host memory is over: what waits for it walks again, or fails (20 R417). -/
def State.tableAnswer (s : State) (r : PageReq) (f : Option Fail) : State :=
  let s1 : State := { s with preqs := s.preqs.filter fun x => x.tag != r.tag }
  match f with
  | none => s1.serviced r
  | some f => s1.failPage r f

/-- How such a read has ended when its time is over. -/
def State.tableOver (s : State) (r : PageReq) : Option Fail :=
  if r.table.any s.timedOut then some (fabricFail 1 3 r.site) else none

/-- The read of a table that the step names. -/
def State.tableRead? (s : State) : Option PageReq := s.preqs.find? fun r => r.table.isSome && r.tag == s.arg.a

/-- FABRIC_RESPONSE: the answer to a request that left the module (20 R414, R416, R417). -/
def execFabricResponse (s : State) : Host.Outcome State Fault Refusal :=
  match s.access? s.arg.a with
  | some (th, a) => .next (s.answerAccess th a)
  | none =>
    match s.far.find? fun x => x.id == s.arg.a with
    | none => .next (match s.tableRead? with
      | none => s
      | some r => match s.tableOver r, s.arg.detail with
        | some f, _ => s.tableAnswer r (some f)
        | none, some c => if reportable c then s.tableAnswer r (some (fabricFail 1 c.toNat r.site)) else s
        | none, none => s.tableAnswer r none)
    | some x =>
      .next (if !x.sent || x.answer != .none || !x.place.far then s
        else if s.timedOut x.born then s.answerFar x.id (.fail (farFail x.place 3))
        else match s.arg.detail with
        | some c => if reportable c then s.answerFar x.id (.fail (farFail x.place c.toNat)) else s
        | none => s.answerFar x.id (.data s.arg.data s.arg.flags))

/-- FABRIC_TIMEOUT: a request without an answer for 14,000,000 cycles fails (20 R417). -/
def execFabricTimeout (s : State) : Host.Outcome State Fault Refusal :=
  match s.access? s.arg.a with
  | some (th, a) =>
    .next (match s.awaited th a with
      | some p => if s.timedOut a.born then s.failAt th a (farFail p 3) else s
      | none => s)
  | none =>
    match s.far.find? fun x => x.id == s.arg.a with
    | some x => .next (if x.sent && x.answer == .none && s.timedOut x.born then s.answerFar x.id (.fail (farFail x.place 3)) else s)
    | none => .next (match s.tableRead? with
      | some r => match s.tableOver r with
        | some f => s.tableAnswer r (some f)
        | none => s
      | none => s)

/-- A write of 16 bytes to a site's REPLY (20 R407): a bad reply, or one without a request, is discarded. -/
def State.pageReply (s : State) (bs : List Byte) : State :=
  if bs.length != 16 || !zeros bs 9 7 || 1 < field bs 8 1 then s
  else match s.preqs.find? fun r => r.sent && r.table.isNone && r.tag == field bs 0 8 with
    | none => s
    | some r =>
      let s1 : State := { s with preqs := s.preqs.filter fun x => x.tag != r.tag }
      if field bs 8 1 == 0 then s1.serviced r else s1.refusedPage r

/-- PAGE_REPLY: 18 R393. -/
def execPageReply (s : State) : Host.Outcome State Fault Refusal := .next (s.pageReply s.arg.data)

/-! ### Shoot-downs (18 R394, R395) -/

/-- A shoot-down from the 16 bytes of SDCMD (20 R407). -/
def parseShoot (id site : Nat) (bs : List Byte) : Shoot :=
  let n := field bs 4 4
  { id := id, site := site, asid := BitVec.ofNat 16 (field bs 0 2), base := field bs 8 8 / 4096, pages := n
    all := (field bs 2 1).testBit 0 || n < 1 || 2 ^ 20 < n || field bs 8 8 % 4096 != 0 }

/-- Some 4 KiB page of a range of pages is covered. -/
def Shoot.hits (x : Shoot) (page n : Nat) : Bool := x.all || meets x.base x.pages page n

/-- A cached translation that is covered: any part of its page lies in the range. -/
def Shoot.hitsTlb (x : Shoot) (t : Tlb) : Bool :=
  let n := 2 ^ (9 * (t.level - 1))
  t.asid == x.asid && x.hits (t.page / n * n) n

/-- A cached upper entry whose table translates some covered page. -/
def Shoot.hitsWalk (x : Shoot) (w : WalkEntry) : Bool :=
  let n := 2 ^ (9 * w.level)
  w.asid == x.asid && x.hits (w.upper * n) n

/-- The page of a leaf at a level that holds an address is covered. -/
def Shoot.covers (x : Shoot) (va : Dword) (level : Nat) : Bool :=
  let n := 2 ^ (9 * (level - 1))
  x.hits (va.toNat / 4096 / n * n) n

/-- Pages among which a page that holds an address may lie, at any size of page: a walk again does no harm where none is covered. -/
def Shoot.near (x : Shoot) (va : Dword) : Bool :=
  let n := 2 ^ 18
  x.hits (va.toNat / 4096 / n * n) (2 * n)

/-- An access that holds a covered translation: of its first byte, or of the next page's when it crosses one. -/
def State.shootHits (s : State) (x : Shoot) (th : Thread) (a : Access) : Bool :=
  (s.spaceOf th).asid == x.asid && !a.fixed && (x.covers a.va a.level
      || a.tail.any fun t => x.covers (a.va + BitVec.ofNat 64 t.1) a.tailLevel) && (match a.place with
    | .dram .. | .host .. | .pcie .. | .remote .. | .window _ | .table _ => true
    | _ => false)

/-- An access that is past squashing: its request has left, or its write counts as complete or has been read. -/
def pastSquash (a : Access) : Bool := a.sent || a.vis || !a.counted

/-- An access that holds a translation: those to the scratchpad and to a stack have none. -/
def Access.translated (a : Access) : Bool :=
  match a.place with
  | .spad _ | .stack _ => false
  | p => p.known

/-- Accesses that a shoot-down lets perform: those that are past squashing, and those that precede one of them in turn, which must not
come to wait for a page (18 R394, R395). One without a translation holds no other back: a shoot-down has nothing to do with it. -/
def State.keptOps (s : State) : List Nat :=
  (s.behind s.opCount (s.threads.flatMap fun x => (x.ops.filter fun a => pastSquash a && !a.fixed && a.translated).map fun a => (x, a))).map
    fun y => y.2.id

/-- An access is squashed unless it is one of those. -/
def State.squashed (s : State) (a : Access) : Bool := !s.keptOps.contains a.id

/-- A fork that holds the place of its descriptor is made again (15 R345, 18 R394). -/
def refork (x : Shoot) (th : Thread) : Thread :=
  match th.hold with
  | .sgfork a _ _ _ _ false => if x.near a then { th with hold := .none } else th
  | _ => th

/-- An owner that makes its requests in an address space. -/
def State.inSpace (s : State) (asid : BitVec 16) (o : Owner) : Bool :=
  (s.launches.any fun l => l.space.asid == asid && (s.ownersOf l.id).contains o) || (s.img.fwSpace.asid == asid && (match o with
    | .queue _ => true
    | .thread t | .fetch t => (s.thread? t).any fun x => x.unit == .service
    | _ => false))

/-- A request of an engine, a walk or the memory side that a shoot-down lets perform: one on its way to another device or a port. One
that has not left is made again, and so is one that its host has not answered, which has not performed (18 R394). -/
def State.keptFar (s : State) (x : Shoot) (y : FarReq) : Bool :=
  y.sent && (y.place.far || y.answer != .none || !s.inSpace x.asid y.owner)

/-- What a shoot-down does: covered translations are removed, covered accesses walk again, regions with covered buffered stores
commit, requests of engines that have not left are made again, and the home slices of open sample groups walk again for their
descriptors (18 R394). -/
def State.invalidate (s : State) (x : Shoot) : State :=
  let s1 : State := { s with
    tlb := s.tlb.filter fun t => !x.hitsTlb t
    walkc := s.walkc.filter fun w => !x.hitsWalk w
    far := s.far.filter (s.keptFar x)
    timers := s.timers.map fun e => if (s.launch? e.launch).any (fun l => l.space.asid == x.asid) && x.near e.va then { e with stale := true } else e
    threads := s.threads.map fun th => if (s.spaceOf th).asid == x.asid then refork x th else th }
  let open_ := s1.threads.filter fun th => th.ops.any fun a => a.buffered && s1.shootHits x th a
  let s2 := open_.foldl (fun s th => s.closeRegion th.id) s1
  let kept := s2.keptOps
  s2.rewalkAll fun th a => s2.shootHits x th a && !kept.contains a.id

/-- A shoot-down arrives from a site (18 R394, 20 R407). -/
def State.shoot (s : State) (site : Nat) (bs : List Byte) : State :=
  let (id, s1) := s.newId
  let x := parseShoot id site bs
  State.invalidate { s1 with shoots := s1.shoots ++ [x] } x

/-- SHOOTDOWN: 18 R394. -/
def execShootdown (s : State) : Host.Outcome State Fault Refusal :=
  .next (if s.arg.data.length == 16 && s.arg.n < 2 then s.shoot s.arg.n s.arg.data else s)

/-- Something that came before a shoot-down may still take effect through a covered translation: an access that is past squashing, one
that must perform before such a write, or a request that has left. -/
def State.shootWaits (s : State) (x : Shoot) : Bool :=
  (s.threads.any fun th => th.ops.any fun a => a.id < x.id && s.shootHits x th a && !s.squashed a)
    || s.far.any fun y => y.id < x.id && y.sent && y.place.far && y.answer == .none

/-- SHOOTDOWN_ACK: the oldest shoot-down of a site, or of device n - 2, is acknowledged once every earlier covered access has performed
(18 R394). -/
def execShootdownAck (s : State) : Host.Outcome State Fault Refusal :=
  match s.shoots.find? fun x => x.site == s.arg.n with
  | none => .next s
  | some x =>
    .next (if s.shootWaits x then s
      else
        let c := s.control.getD x.site {}
        let s1 : State := { s with shoots := s.shoots.filter fun y => y.id != x.id }
        if 2 ≤ x.site then { s1 with replies := s1.replies ++ [.ack (x.site - 2)] }
        else { s1 with control := s1.control.set x.site { c with sdDone := c.sdDone + 1 } })

/-! ### Page-home moves (18 R396) -/

/-- The shoot-down of one page. -/
def pageShoot (asid : BitVec 16) (va : Dword) : Shoot := { id := 0, site := 0, asid := asid, base := va.toNat / 4096, pages := 1 }

/-- A quiesce point for a page of an address space; accesses of saved threads that are past squashing have performed. -/
def State.quiesced (s : State) (x : Shoot) : Bool :=
  let ours := (s.launches.filter fun l => l.space.asid == x.asid).map (·.id)
  (s.launches.all fun l => l.space.asid != x.asid || l.state == .saved || l.state == .done)
    && (s.groups.all fun g => !ours.contains g.launch || g.cmds.isEmpty)
    && (s.rays.all fun r => !ours.contains r.launch) && (s.walks.all fun w => !ours.contains w.launch)
    && (s.timers.all fun e => !ours.contains e.launch)
    && (s.threads.all fun th => (s.spaceOf th).asid != x.asid
      || th.ops.all fun a => !a.place.far && !(s.shootHits x th a && !s.squashed a))
    && ours.all fun l => s.far.all fun y => !(s.ownersOf l).contains y.owner

/-- A launch of the queue allows moves of its working set, and the page lies in it (21 R430). -/
def State.movable (s : State) (q : Nat) (asid : BitVec 16) (va : Dword) : Bool :=
  s.launches.any fun l => l.queue == q && l.space.asid == asid && (field l.lr.hints 0x10 1).testBit 0
    && meets (field l.lr.hints 0 8) (field l.lr.hints 8 8) va.toNat 4096

/-- The leaf after a move: only PFN, RMT and DEV change. -/
def movedLeaf (e : Dword) (pa : Nat) (rmt : Bool) (dev : Nat) : Dword :=
  (e &&& 0x8030000000000FFF#64) ||| ((BitVec.ofNat 64 (pa / 4096) &&& 0xFFFFFFFFFF#64) <<< 12)
    ||| (if rmt then 1#64 <<< 62 else 0#64) ||| (BitVec.ofNat 64 (dev % 256) <<< 54)

/-- The devices that may cache a page beside this one: the other members of the partition, as far as a path leads there. -/
def State.otherDevices (s : State) : List Nat :=
  if s.fabricUp then s.img.members.filter fun d => d != s.img.devId && !s.lostPaths.contains d else []

/-- Every other device is asked to shoot a page down; true when each has answered. -/
def State.askShoots (s : State) (o : Owner) (x : Shoot) : List Nat → State × Bool
  | [] => (s, true)
  | d :: ds =>
    match s.farAsk o (BitVec.ofNat 64 d) (.remote d 0 0) (.shoot x.asid x.base x.pages) 0 with
    | (s1, .error none) => ((s1.askShoots o x ds).1, false)
    | (s1, _) => s1.askShoots o x ds

/-- A move whose leaf has changed goes on: the page is shot down on every device that may cache it, then its old frame goes back to the
host (18 R396 steps 3 and 4; log 69). -/
def State.finishMove (s : State) (m : HomeMove) : State :=
  let o : Owner := .side 0 m.queue
  let (s1, fin) := s.askShoots o m.shoot s.otherDevices
  if !fin || s1.shootWaits m.shoot then s1
  else
    let s2 := s1.farDrop o
    { s2 with moves := s2.moves.filter fun y => y != m, replies := s2.replies ++ [.frame m.site m.frame] }

/-- PAGE_HOME_MOVE: at a quiesce point the service processor copies a page that the host has granted and a launch's hints allow to
move, changes its leaf and shoots it down. `a` is the new frame, on device n when l is 1 (18 R396, 21 R430; log 69). A queue descriptor that
cannot be read traps the firmware that reads it (17 R384, 23 R433). -/
def execPageHomeMove (s : State) : Host.Outcome State Fault Refusal :=
  let d := s.qdescBytes s.arg.q
  let sp := queueSpace d
  let va := s.arg.va
  let granted := (dword d 0x70).toNat ≤ va.toNat && va.toNat + 4095 ≤ (dword d 0x78).toNat
  let x := pageShoot sp.asid va
  let o : Owner := .side 0 s.arg.q
  match s.moves.find? fun m => m.queue == s.arg.q with
  | some m => .next (s.finishMove m)
  | none =>
  if s.qdescLost s.arg.q then .next (if s.firmwareFree s.arg.q then s.firmwareTrap s.arg.q else s)
  else if va.toNat % 4096 != 0 || s.arg.a % 4096 != 0 || !granted || !s.movable s.arg.q sp.asid va || !s.quiesced x then .next s
  else match s.walkFrom va .read true (if sp.five then 5 else 4) sp.root with
    | (.ok e 1, ea) =>
      let e1 := movedLeaf e s.arg.a (s.arg.l == 1) s.arg.n
      let old := s.physPlace e (leafPa e 1 va) 4096 false false
      match s.readPlace o va old 4096 with
      | (s1, .ok bs) =>
        match s1.writePlace o va (s1.physPlace e1 s.arg.a 4096 true false) bs with
        | (s2, .ok _) =>
          let (id, s3) := (s2.farDrop o).newId
          let x1 : Shoot := { x with id := id }
          .next (State.invalidate { (s3.writePhys none ea (toBytes 8 e1.toNat)) with
            moves := s3.moves ++ [{ queue := s.arg.q, va := va, shoot := x1, site := sp.site, frame := old }] } x1)
        | (s2, .error (some _)) => .next (s2.farDrop o)
        | (s2, .error none) => .next s2
      | (s1, .error (some _)) => .next (s1.farDrop o)
      | (s1, .error none) => .next s1
    | _ => .next s

end Sys2Proof.Machine
end

