-- ==== Sys2Proof/Machine/External.lean ====
section
/-! DEFINITION. Agents outside the module: admission by the access table (20 R409, R410), host sites (08 R215, 20 R406, R407), PCIe
(R408, 08 R216), fabric peers (20 R414, 08 R217), arrival windows (20 R411, R412) and lost links (R406). -/

namespace Sys2Proof.Machine

/-! ### The access table (20 R409, R410) -/

/-- An entry that keeps the rules of R409. -/
def entryOk (e : List Byte) : Bool :=
  let m := field e 0xC 4
  let cls := m / 2 ^ 28
  field e 0 1 / 128 == 1 && field e 0 1 / 8 % 16 == 0 && zeros e 1 0xB && 1 ≤ cls && cls ≤ 3 && m / 2 ^ 24 % 16 == 0
    && (cls == 2 || m / 2 ^ 16 % 256 == 0) && field e 0x10 8 % 64 == 0 && (field e 0x18 8 + 1) % 64 == 0
    && field e 0x10 8 ≤ field e 0x18 8

/-- An entry names a master, given as class, port and number. -/
def entryNames (e : List Byte) (master : Word) : Bool :=
  let m := word e 0xC
  m.extractLsb' 28 4 == master.extractLsb' 28 4 && (m.extractLsb' 0 16 == 0xFFFF#16
    || (m.extractLsb' 0 16 == master.extractLsb' 0 16 && m.extractLsb' 16 8 == master.extractLsb' 16 8))

/-- The request of a master for n bytes at a is admitted; `need` has the bits of PERM that it takes. -/
def State.admitted (s : State) (master : Word) (a n need : Nat) : Bool :=
  s.img.access.any fun e => entryOk e && entryNames e master && field e 0x10 8 ≤ a && a + n - 1 ≤ field e 0x18 8
    && field e 0 1 &&& need == need

/-- A denial is counted in the management log. -/
def State.deny (s : State) (master : Word) : State := s.logEntry (.denied master)

def State.answer (s : State) (r : Reply) : State := { s with replies := s.replies ++ [r] }

/-- Arrival windows and control ranges (20 R402). -/
def inWindows (a : Nat) : Bool := 0xF800000000000 ≤ a && a < 0xF800000040000
def inHostRange (a : Nat) : Bool := 0x4000000000000 ≤ a && a < 0x8000000000000
def inAperture (a : Nat) : Option Nat :=
  if 0x8000000000000 ≤ a && a < 0x9000000000000 then some 0
  else if 0x9000000000000 ≤ a && a < 0xA000000000000 then some 1 else none
def inDram (a n : Nat) : Bool := a + n ≤ dramEnd

/-- Some line of the bytes has a slice without a working control array (23 R433). -/
def State.deadAt (s : State) (a n : Nat) : Bool := (linesOf a n).any s.deadLine

/-- Such a slice, or uncorrectable data, answers with an error (17 R384, 23 R433). -/
def State.brokenAt (s : State) (a n : Nat) : Bool := s.deadAt a n || s.poisoned a n

/-! ### Arrival windows (20 R411, R412) -/

/-- A write of n bytes at a window reaches it: ARRIVE admits it, and it is 16 bytes at offset 0 (20 R402, R410, R412). -/
def State.windowTakes (s : State) (master : Word) (a n : Nat) : Bool := s.admitted master a n 4 && n == 16 && a % 64 == 0

/-- A write of a master to a window: denied, discarded when no slot is bound, or an event (20 R412). -/
def State.windowWrite (s : State) (master : Word) (a : Nat) (bs : List Byte) : State :=
  let w := (a - 0xF800000000000) / 64
  if !s.windowTakes master a bs.length then s.deny master
  else match s.bindings.find? fun b => b.window == w with
    | none => s.deny master
    | some b =>
      let x := field bs 8 4
      let d := field bs 12 4
      let bad := !zeros bs 3 5 || 1 < field bs 2 1 || 2 ^ 27 ≤ x || 2 ^ 27 ≤ d
      s.externalEvent b.group b.slot master (BitVec.ofNat 16 (field bs 0 2)) (field bs 2 1) x d bad

/-- ARRIVAL_WINDOW_WRITE: a master writes a window of the module (20 R412, 11 R248). -/
def execArrivalWindowWrite (s : State) : Host.Outcome State Fault Refusal :=
  .next (if inWindows s.arg.a then s.windowWrite s.arg.master s.arg.a s.arg.data else s)

/-! ### Host sites -/

/-- The master word of a host site. -/
def hostMaster (site : Nat) : Word := BitVec.ofNat 32 (2 ^ 28 + site)

/-- Address of a site's control block. -/
def controlBase (site : Nat) : Nat := 0xF000000000000 + 0x10000 * site

def inControl (site a : Nat) : Bool := controlBase site ≤ a && a < controlBase site + 256

/-- The 256 bytes of a control block as its host reads them. -/
def Control.bytes (c : Control) : List Byte :=
  toBytes 8 1 ++ toBytes 8 c.prqBase ++ toBytes 4 c.prqCap ++ toBytes 4 c.prqTail.toNat ++ toBytes 4 c.prqHead.toNat ++ toBytes 20 0
    ++ toBytes 16 0 ++ toBytes 16 0 ++ toBytes 8 0 ++ toBytes 8 c.sdDone.toNat ++ toBytes 160 0

/-- A host's write into its control block: ring fields are stored, REPLY and SDCMD act (20 R407). -/
def State.controlWrite (s : State) (site o : Nat) (bs : List Byte) : State :=
  if o == 0x30 then s.pageReply bs
  else if o == 0x40 then (if bs.length == 16 then s.shoot site bs else s)
  else
    let c := s.control.getD site {}
    let now := c.bytes
    let new := (patch now o bs).take 256
    let c1 := { c with prqBase := field new 8 8, prqCap := field new 0x10 4, prqHead := word new 0x18 }
    { s with control := s.control.set site c1 }

/-- A write of a host site: to its control block, a window, or device memory, where it performs at the home after every device
copy is invalidated (08 R215). A write to an unbound window is counted as a denial and acknowledged (R412; DESIGN CHOICE, log 48). -/
def State.hostWrite (s : State) (site a : Nat) (bs : List Byte) : State :=
  let m := hostMaster site
  if inControl site a then (s.controlWrite site (a - controlBase site) bs).answer (.ack site)
  else if inWindows a then (s.windowWrite m a bs).answer (if s.windowTakes m a bs.length then .ack site else .refused site)
  else if inDram a bs.length && s.admitted m a bs.length 2 then
    if s.deadAt a bs.length then s.answer (.refused site) else (s.writePhys none a bs).answer (.ack site)
  else (s.deny m).answer (.refused site)

/-- HOST_WRITE: site q writes `data` at physical address a (08 R215, 20 R410). -/
def execHostWrite (s : State) : Host.Outcome State Fault Refusal :=
  .next (if s.hostUp.getD s.arg.q false && !s.arg.data.isEmpty then s.hostWrite s.arg.q s.arg.a s.arg.data else s)

/-- The host's copy of lines it has read: it may hold them, their region's bit is set, and the SLC takes them (20 R406). -/
def State.hostHolds (s : State) (site a n : Nat) : State :=
  (linesOf a n).foldl (fun s l =>
    let s1 := s.fillSlc l
    let c := s1.caches
    { s1 with caches := { c with
      host := if c.host.contains (site, l) then c.host else c.host ++ [(site, l)]
      presence := if c.presence.contains (l / 4, 16 + site) then c.presence else c.presence ++ [(l / 4, 16 + site)] } }) s

/-- HOST_READ: site q reads n bytes at physical address a; it is never served early (20 R406, 08 R215). -/
def execHostRead (s : State) : Host.Outcome State Fault Refusal :=
  let site := s.arg.q
  let a := s.arg.a
  let n := s.arg.n
  let m := hostMaster site
  .next (
    if !s.hostUp.getD site false || n == 0 then s
    else if inControl site a && a + n ≤ controlBase site + 256 then
      s.answer (.data site (((s.control.getD site {}).bytes.drop (a - controlBase site)).take n))
    else if !s.admitted m a n 1 then (s.deny m).answer (.refused site)
    else if inWindows a then s.answer (.data site (List.replicate n 0))
    else if inDram a n then
      if s.brokenAt a n then s.answer (.refused site) else (s.hostHolds site a n).answer (.data site (s.readPhys a n))
    else (s.deny m).answer (.refused site))

/-- Memory of a host site (20 R402). -/
def inSiteRange (site a : Nat) : Bool := hostPa site 0 ≤ a && a < hostPa site 0 + 0x2000000000000

/-- HOST_SNOOP: a host invalidates its line in every L0 and L1, and then changes its memory there; `data` is what it writes
(20 R406). -/
def execHostSnoop (s : State) : Host.Outcome State Fault Refusal :=
  let l := lineOf s.arg.a
  .next (if s.arg.q < 2 && inSiteRange s.arg.q s.arg.a && s.hostUp.getD s.arg.q false then
    let s1 := (List.range 16).foldl (fun s c => s.dropL1 c l) s
    let s2 : State := { s1 with caches := { s1.caches with l0 := s1.caches.l0.filter fun e => e.2 != l } }
    (s2.writePhys none s.arg.a (s.arg.data.take (128 - s.arg.a % 128))).answer (.ack s.arg.q)
  else s)

/-! ### Requests of PCIe functions and fabric peers -/

/-- An atomic at a home slice: the old value and its flags (09 R227, R228). -/
def State.homeAtomic (s : State) (a : Nat) (ty : Ty) (op : BitVec 5) (b c : Dword) : State × List Byte × BitVec 5 :=
  let n := ty.width / 8
  let old := s.readPhys a n
  match atomNew ty op.toNat (ofBytes old) b.toNat c.toNat with
  | none => (s, old, 0)
  | some (new, f) => (s.writePhys none a (toBytes n new), old, f)

/-- First byte and length of a request. -/
def Request.range : Request → Nat × Nat
  | .read a n => (a, n)
  | .write a bs _ => (a, bs.length)
  | .atomic a ty .. => (a, ty.width / 8)
  | .shoot .. | .other => (0, 0)

/-- Bits of PERM that a request takes. -/
def Request.need : Request → Nat
  | .read .. => 1
  | .write .. => 2
  | .atomic .. => 3
  | .shoot .. | .other => 3

/-- An inbound request of a PCIe function through a port (20 R408). -/
def State.pcieRequest (s : State) (port : Nat) (m : Word) (r : Request) : State :=
  let (a, n) := Request.range r
  let posted := match r with
    | .write .. => true
    | _ => false
  let deny := if posted then s.deny m else (s.deny m).answer (.refused port)
  match r with
  | .shoot .. | .other | .atomic .. => s.answer (.unsupported port)
  | .read .. | .write .. =>
    if inHostRange a || inAperture a == some port then s.answer (.unsupported port)
    else match inAperture a with
      | some p =>
        if !s.admitted m a n (Request.need r) then deny
        else if s.pcieUp.getD p false then s.answer (.request (fabricDetail 2 0 p) a r) else deny
      | none =>
        match r with
        | .write _ bs _ =>
          if inWindows a then s.windowWrite m a bs
          else if !inDram a n || !s.admitted m a n 2 then deny
          else if s.deadAt a n then s else s.writePhys none a bs
        | _ =>
          if !s.admitted m a n 1 then deny
          else if inWindows a then s.answer (.data port (List.replicate n 0))
          else if !inDram a n then deny
          else if s.brokenAt a n then s.answer (.refused port)
          else s.answer (.data port (s.readPhys a n))

/-- PCIE_INBOUND: a request of requester `master` through port q. Posted writes perform as they arrive (20 R408, 08 R216). -/
def execPcieInbound (s : State) : Host.Outcome State Fault Refusal :=
  let m : Word := 0x20000000#32 ||| BitVec.ofNat 32 (s.arg.q % 256 * 65536) ||| (s.arg.master &&& 0xFFFF#32)
  .next (if s.pcieUp.getD s.arg.q false && (0 < (Request.range s.arg.req).2 || s.arg.req == .other) then s.pcieRequest s.arg.q m s.arg.req else s)

/-- FABRIC_REQUEST: a request of device n is checked and executes at the home slice; its answer leaves after it (20 R414,
R416, R418). A write to an unbound window is counted as a denial and acknowledged (R412; DESIGN CHOICE, log 48). A shoot-down of its
service processor (18 R396) is acknowledged by SHOOTDOWN_ACK. -/
def execFabricRequest (s : State) : Host.Outcome State Fault Refusal :=
  let dev := s.arg.n % 256
  let m : Word := 0x30000000#32 ||| BitVec.ofNat 32 dev
  let r := s.arg.req
  let (a, n) := Request.range r
  let refuse := (s.deny m).answer (.refused dev)
  .next (
    if !s.fabricUp then s
    else match r with
    | .shoot asid page pages =>
      let (id, s1) := s.newId
      let x : Shoot := { id := id, site := 2 + dev, asid := asid, base := page, pages := pages }
      State.invalidate { s1 with shoots := s1.shoots ++ [x] } x
    | _ => if n == 0 then s else match r with
    | .write _ bs _ =>
      if inWindows a then
        if s.windowTakes m a n then (s.windowWrite m a bs).answer (.ack dev) else refuse
      else if !inDram a n || !s.admitted m a n 2 then refuse
      else if s.deadAt a n then s.answer (.refused dev)
      else (s.writePhys none a bs).answer (.ack dev)
    | .read .. =>
      if !s.admitted m a n 1 then refuse
      else if inWindows a then s.answer (.data dev (List.replicate n 0))
      else if !inDram a n then refuse
      else if s.brokenAt a n then s.answer (.refused dev)
      else s.answer (.data dev (s.readPhys a n))
    | .atomic _ ty op b c ret =>
      if !inDram a n || !s.admitted m a n 3 then refuse
      else if s.brokenAt a n then s.answer (.refused dev)
      else
        let (s1, old, f) := s.homeAtomic a ty op b c
        s1.answer (.atomic dev (if ret then old else []) f)
    | .shoot .. | .other => refuse)

/-- NOTIFY_WRITE: a master that the table admits writes queue q's NOTIFY register (21 R421). -/
def execNotifyWrite (s : State) : Host.Outcome State Fault Refusal :=
  let a := s.qdesc s.arg.q + 0x68
  let bs := s.arg.data.take 8
  .next (if bs.isEmpty then s
    else if !s.admitted s.arg.master a bs.length 2 then s.deny s.arg.master
    else if s.deadAt a bs.length then s else s.writePhys none a bs)

/-! ### Lost links (20 R406, R417) -/

/-- An access through a link: host site q, or PCIe port q - 2. -/
def throughLink (q : Nat) (p : Place) : Bool :=
  match p with
  | .host site .. => site == q
  | .pcie port _ => port + 2 == q
  | _ => false

/-- LOST_HOST_LINK: the link of host site q, or of PCIe port q - 2, is lost; accesses through it fail with FABRIC, detail 4
(20 R406). -/
def execLostHostLink (s : State) : Host.Outcome State Fault Refusal :=
  let q := s.arg.q
  let s1 : State := { s with
    hostUp := if q < 2 then s.hostUp.set q false else s.hostUp
    pcieUp := if 2 ≤ q then s.pcieUp.set (q - 2) false else s.pcieUp
    caches := if q < 2 then Caches.trim { s.caches with host := s.caches.host.filter fun e => e.1 != q } else s.caches }
  let f : Fail := if q < 2 then fabricFail 1 4 q else fabricFail 2 4 (q - 2)
  let s2 := s1.threads.foldl (fun s x => x.ops.foldl (fun s a =>
    if (a.pieces.any fun p => throughLink q p.1) && !a.fixed then s.failAt x a f else s) s) s1
  let s3 := s2.far.foldl (fun s x => if throughLink q x.place && x.answer == .none then s.answerFar x.id (.fail f) else s) s2
  .next ((s3.preqs.filter fun r => r.table.isSome && r.site == q).foldl (fun s r => s.tableAnswer r (some f)) s3)

end Sys2Proof.Machine
end

