-- ==== Sys2Proof/Machine/Boot.lean ====
section
/-! DEFINITION. Start-up, attestation and power states (23 R435 to R438). -/

namespace Sys2Proof.Machine

/-! ### Images (23 R435, R436) -/

/-- A bit vector from a field of an image's configuration block. -/
def cfg (img : List Byte) (n : Nat) : Nat := Config.imageField img n

/-- Values of a verified image; the place of each field in the configuration block is the image's (log 4). -/
def loadImage (img : List Byte) : Image :=
  { spBase := BitVec.ofNat 64 (cfg img 0), stkBase := BitVec.ofNat 64 (cfg img 1), kvec := BitVec.ofNat 64 (cfg img 2)
    homemap := cfg img 3 % 4, devId := cfg img 4 % 256, fabric := cfg img 5 % 2 == 1
    fwSpace := { asid := BitVec.ofNat 16 (cfg img 6), root := cfg img 7, five := cfg img 8 == 5, site := cfg img 9 % 2 }
    fwEntry := BitVec.ofNat 64 (cfg img 10)
    qdesc := (List.range 64).map fun q => BitVec.ofNat 64 (cfg img (16 + q))
    members := (List.range 256).filter fun d => cfg img (128 + d) % 2 == 1
    access := (List.range 256).map fun i => toBytes 32 (cfg img (512 + i))
    limits := ((List.range 256).map fun d => (d, cfg img (1024 + d))).filter fun x => 65536 ≤ x.2 && x.2 ≤ 2 ^ 24 && 2 ^ Nat.log2 x.2 == x.2 }

/-- Windows as R189 asks: 4 GiB aligned, canonical at 48 bits, and not overlapping. -/
def windowsOk (x : Image) : Bool :=
  let ok (a : Dword) : Bool := a.extractLsb' 0 32 == 0#32 && (a.setWidth 48).signExtend 64 == a
  ok x.spBase && ok x.stkBase && x.spBase != x.stkBase

/-- Why an image slot is rejected: 1 signature, 2 version or a reserved field, 3 offsets, 4 windows or interleave mode, 5 a queue
descriptor (23 R436); none when it is not. -/
def imageFault (img : List Byte) : Option Nat :=
  let sig := field img 0x18 8
  let code := field img 0x10 8
  let conf := field img 8 8
  let x := loadImage img
  if img.length < 32 || !Config.imageVerifies sig img then some 1
  else if field img 0 2 != 1 || !zeros img 2 2 then some 2
  else if !(conf < code && code < sig && sig < img.length) || sig % 4 != 0 then some 3
  else if !windowsOk x || cfg img 3 % 4 == 3 then some 4
  else if x.qdesc.any fun a => a.extractLsb' 0 7 != 0#7 then some 5
  else none

/-- The image that runs: the one with the higher FWVER, slot 0 when they are equal. -/
def selectImage (f : Flash) : Option (List Byte) :=
  let ver (i : List Byte) : Nat := field i 4 4
  match imageFault f.slot0, imageFault f.slot1 with
  | none, none => some (if ver f.slot0 < ver f.slot1 then f.slot1 else f.slot0)
  | none, some _ => some f.slot0
  | some _, none => some f.slot1
  | some _, some _ => none

/-- The service processor's threads at the firmware entry. -/
def firmwareThreads (first : Nat) (entry : Dword) : List Thread :=
  (List.range 64).map fun q =>
    { id := first + q, unit := .service, pc := entry, alloc := 256, sup := true, tid := q }

/-- What a reset leaves of the module: the outside's inputs, flash and memory. -/
def State.cleared (s : State) : State :=
  { (State.reset) with agenda := s.agenda, oracle := s.oracle, nextId := s.nextId, flash := s.flash, mem := s.mem, arg := s.arg }

/-- Links that train: bits 0 and 1 host sites, 2 and 3 PCIe ports, 4 to 27 fabric ports (23 R435 step 6). -/
def State.trainLinks (s : State) : State :=
  let (m, s1) := s.choose (2 ^ 28)
  { s1 with
    hostUp := [m.testBit 0, m.testBit 1]
    pcieUp := [m.testBit 2, m.testBit 3]
    ports := (List.range 24).map fun i => m.testBit (4 + i) }

/-- Steps 6 and 7 of R435. -/
def State.startFirmware (s : State) : State :=
  { s with nextId := s.nextId + 64, threads := firmwareThreads s.nextId s.img.fwEntry }

/-- MODULE_RESET: the boot ROM selects an image, loads its configuration, trains links and starts the firmware; without an image no
thread starts and no link trains (23 R435, R436). -/
def execModuleReset (s : State) : Host.Outcome State Fault Refusal :=
  let s0 := s.cleared
  let reject (s : State) (slot : Nat) (img : List Byte) : State :=
    match imageFault img with
    | some r => s.logEntry (.bootReject slot r)
    | none => s
  let s1 : State := { reject (reject s0 0 s.flash.slot0) 1 s.flash.slot1 with booted := true }
  match selectImage s.flash with
  | none => .next s1
  | some img =>
    .next (State.startFirmware (State.trainLinks { s1 with img := loadImage img, fwVer := word img 4, bootImage := img }))

/-! ### Attestation (23 R437) -/

/-- The fields that an attestation signs. -/
def State.attestation (s : State) (nonce : List Byte) : List Byte :=
  nonce ++ toBytes 4 s.fwVer.toNat ++ Config.shake256 (s.bootImage.take (field s.bootImage 0x18 8)) ++ Config.publicKey

/-- ATTESTATION_REQUEST: answers a nonce of 32 bytes; the leaf index advances before it signs, and no index is used twice
(23 R437). `n` is 1 when the write of the index to flash fails. -/
def execAttestationRequest (s : State) : Host.Outcome State Fault Refusal :=
  let m := s.attestation s.arg.data
  .next (
    if s.arg.data.length != 32 || s.bootImage.isEmpty then s
    else if s.arg.n == 1 || 2 ^ 20 ≤ s.flash.leaf then { s with replies := s.replies ++ [.attest m none] }
    else
      { s with
        flash := { s.flash with leaf := s.flash.leaf + 1 }
        replies := s.replies ++ [.attest m (some (Config.xmssSign Config.identityKey s.flash.leaf m))] })

/-! ### Power (23 R438) -/

/-- A launch is live, or a queue holds entries. -/
def State.workLeft (s : State) : Bool :=
  (s.launches.any fun l => l.state != .done) || (List.range 64).any fun q =>
    let d := s.qdescBytes q
    s.booted && word d 0x30 != word d 0x2C

/-- Entering STANDBY: modified lines are written back, then the SLC, the compute dies and the B-store dies lose power. The I/O die with
its service-processor threads and the directories of the base tiles keep theirs: the threads stay as they are, and the directories
go on to name the lines that the host sites hold. -/
def State.standby (s : State) : State :=
  { s with
    power := .standby
    caches := Caches.trim { presence := s.caches.presence, host := s.caches.host }
    threads := s.threads.filter fun x => x.unit == .service
    groups := [], gangs := [], grids := [], rays := [], walks := [], timers := [], keys := [], istore := [], islock := false, rels := [] }

/-- What is left without power: flash, host memory and, with standby power, LPDDR. -/
def State.unpowered (s : State) (keep : Nat → Bool) : State :=
  { (State.reset) with
    agenda := s.agenda, oracle := s.oracle, nextId := s.nextId, flash := s.flash, power := .off, mem := s.mem.filter fun c => keep c.1 }

/-- POWER_STATE_REQUEST: a state is entered, or refused with BUSY while there is work (23 R438). Leaving STANDBY repeats steps 6 and 7 of
R435 for the dies that were powered down: they hold no thread and no link (log 50). -/
def execPowerStateRequest (s : State) : Host.Outcome State Fault Refusal :=
  let done (s : State) : State := { s with replies := s.replies ++ [.power s.power] }
  .next (match s.power, s.arg.power with
    | .off, .run => { s with power := .run }
    | .off, _ => s
    | _, .run => done { s with power := .run }
    | _, .idle => done { s with power := .idle }
    | _, .standby => if s.workLeft then { s with replies := s.replies ++ [.busy] } else done s.standby
    | _, .off => if s.workLeft then { s with replies := s.replies ++ [.busy] } else s.unpowered fun a => dramEnd ≤ a)

/-- Memory with the lines that LPDDR has not received as LPDDR holds them; lines of stacks go with their threads. -/
def State.lpddr (s : State) : Memory :=
  (s.caches.dirty.filter fun d => 128 * d.line < dramEnd).foldl (fun m d => m.store (128 * d.line) d.old) s.mem

/-- POWER_LOSS: modified lines still in the SLC are lost; LPDDR keeps its bytes when n is 1, while it has standby power
(23 R438). -/
def execPowerLoss (s : State) : Host.Outcome State Fault Refusal :=
  .next (State.unpowered { s with mem := s.lpddr } fun a => s.arg.n == 1 || dramEnd ≤ a)

end Sys2Proof.Machine
end

