-- ==== Sys2Proof/Machine/Integer.lean ====
section
/-! DEFINITION. Integer arithmetic, logic, shifts, bit fields, moves and predicates (04 R97 to R110): one meaning for each
instruction form. -/

namespace Sys2Proof.Machine

/-- ADD, compact: 04 R98. -/
def execAdd (x : C3) (s : State) : Host.Outcome State Fault Refusal :=
  alu2 (.add x) (x.toArith 0x03 none) (addVal (x.toArith 0x03 none)) s

/-- ADD: 04 R98. -/
def execAdd96 (x : AForm) (s : State) : Host.Outcome State Fault Refusal :=
  alu2 (.add96 x) (x.toArith 0x03) (addVal (x.toArith 0x03)) s

/-- SUB, compact: 04 R98. -/
def execSub (x : C3) (s : State) : Host.Outcome State Fault Refusal :=
  alu2 (.sub x) (x.toArith 0x04 none) (subVal (x.toArith 0x04 none)) s

/-- SUB: 04 R98. -/
def execSub96 (x : AForm) (s : State) : Host.Outcome State Fault Refusal :=
  alu2 (.sub96 x) (x.toArith 0x04) (subVal (x.toArith 0x04)) s

/-- NEG, compact: 04 R98. -/
def execNeg (x : C3) (s : State) : Host.Outcome State Fault Refusal :=
  alu1 (.neg x) (x.toArith 0x05 none) (negVal (x.toArith 0x05 none)) s

/-- NEG: 04 R98. -/
def execNeg96 (x : AForm) (s : State) : Host.Outcome State Fault Refusal :=
  alu1 (.neg96 x) (x.toArith 0x05) (negVal (x.toArith 0x05)) s

/-- ABS, compact: 04 R98. -/
def execAbs (x : C3) (s : State) : Host.Outcome State Fault Refusal :=
  alu1 (.abs x) (x.toArith 0x06 none) (absVal (x.toArith 0x06 none)) s

/-- ABS: 04 R98. -/
def execAbs96 (x : AForm) (s : State) : Host.Outcome State Fault Refusal :=
  alu1 (.abs96 x) (x.toArith 0x06) (absVal (x.toArith 0x06)) s

/-- MIN, compact: 04 R98. -/
def execMin (x : C3) (s : State) : Host.Outcome State Fault Refusal :=
  alu2 (.min x) (x.toArith 0x07 none) (minVal (x.toArith 0x07 none)) s

/-- MIN: 04 R98. -/
def execMin96 (x : AForm) (s : State) : Host.Outcome State Fault Refusal :=
  alu2 (.min96 x) (x.toArith 0x07) (minVal (x.toArith 0x07)) s

/-- MAX, compact: 04 R98. -/
def execMax (x : C3) (s : State) : Host.Outcome State Fault Refusal :=
  alu2 (.max x) (x.toArith 0x08 none) (maxVal (x.toArith 0x08 none)) s

/-- MAX: 04 R98. -/
def execMax96 (x : AForm) (s : State) : Host.Outcome State Fault Refusal :=
  alu2 (.max96 x) (x.toArith 0x08) (maxVal (x.toArith 0x08)) s

/-- MUL, compact: 04 R98. -/
def execMul (x : C3) (s : State) : Host.Outcome State Fault Refusal :=
  alu2 (.mul x) (x.toArith 0x09 none) (mulVal (x.toArith 0x09 none)) s

/-- MUL: 04 R98. -/
def execMul96 (x : AForm) (s : State) : Host.Outcome State Fault Refusal :=
  alu2 (.mul96 x) (x.toArith 0x09) (mulVal (x.toArith 0x09)) s

/-- MULHI, compact: 04 R98. -/
def execMulhi (x : C3) (s : State) : Host.Outcome State Fault Refusal :=
  alu2 (.mulhi x) (x.toArith 0x0A none) (mulhiVal (x.toArith 0x0A none)) s

/-- MULHI: 04 R98. -/
def execMulhi96 (x : AForm) (s : State) : Host.Outcome State Fault Refusal :=
  alu2 (.mulhi96 x) (x.toArith 0x0A) (mulhiVal (x.toArith 0x0A)) s

/-- MAD, compact: 04 R98. -/
def execMad (x : C3) (s : State) : Host.Outcome State Fault Refusal :=
  alu3 (.mad x) (x.toArith 0x0B none) (madVal (x.toArith 0x0B none)) s

/-- MAD: 04 R98. -/
def execMad96 (x : AForm) (s : State) : Host.Outcome State Fault Refusal :=
  alu3 (.mad96 x) (x.toArith 0x0B) (madVal (x.toArith 0x0B)) s

/-- AND, compact: 04 R102. -/
def execAnd (x : C3) (s : State) : Host.Outcome State Fault Refusal :=
  alu2 (.and x) (x.toArith 0x10 none) (andVal (x.toArith 0x10 none)) s

/-- AND: 04 R102. -/
def execAnd96 (x : AForm) (s : State) : Host.Outcome State Fault Refusal :=
  alu2 (.and96 x) (x.toArith 0x10) (andVal (x.toArith 0x10)) s

/-- OR, compact: 04 R102. -/
def execOr (x : C3) (s : State) : Host.Outcome State Fault Refusal :=
  alu2 (.or x) (x.toArith 0x11 none) (orVal (x.toArith 0x11 none)) s

/-- OR: 04 R102. -/
def execOr96 (x : AForm) (s : State) : Host.Outcome State Fault Refusal :=
  alu2 (.or96 x) (x.toArith 0x11) (orVal (x.toArith 0x11)) s

/-- XOR, compact: 04 R102. -/
def execXor (x : C3) (s : State) : Host.Outcome State Fault Refusal :=
  alu2 (.xor x) (x.toArith 0x12 none) (xorVal (x.toArith 0x12 none)) s

/-- XOR: 04 R102. -/
def execXor96 (x : AForm) (s : State) : Host.Outcome State Fault Refusal :=
  alu2 (.xor96 x) (x.toArith 0x12) (xorVal (x.toArith 0x12)) s

/-- NOT, compact: 04 R102. -/
def execNot (x : C3) (s : State) : Host.Outcome State Fault Refusal :=
  alu1 (.not x) (x.toArith 0x13 none) (notVal (x.toArith 0x13 none)) s

/-- NOT: 04 R102. -/
def execNot96 (x : AForm) (s : State) : Host.Outcome State Fault Refusal :=
  alu1 (.not96 x) (x.toArith 0x13) (notVal (x.toArith 0x13)) s

/-- ANDN, compact: 04 R102. -/
def execAndn (x : C3) (s : State) : Host.Outcome State Fault Refusal :=
  alu2 (.andn x) (x.toArith 0x14 none) (andnVal (x.toArith 0x14 none)) s

/-- ANDN: 04 R102. -/
def execAndn96 (x : AForm) (s : State) : Host.Outcome State Fault Refusal :=
  alu2 (.andn96 x) (x.toArith 0x14) (andnVal (x.toArith 0x14)) s

/-- SHL, compact: 04 R104. -/
def execShl (x : C3) (s : State) : Host.Outcome State Fault Refusal :=
  aluShift (.shl x) (x.toArith 0x16 none) (shlVal (x.toArith 0x16 none)) s

/-- SHL: 04 R104. -/
def execShl96 (x : AForm) (s : State) : Host.Outcome State Fault Refusal :=
  aluShift (.shl96 x) (x.toArith 0x16) (shlVal (x.toArith 0x16)) s

/-- SHR, compact: 04 R104. -/
def execShr (x : C3) (s : State) : Host.Outcome State Fault Refusal :=
  aluShift (.shr x) (x.toArith 0x17 none) (shrVal (x.toArith 0x17 none)) s

/-- SHR: 04 R104. -/
def execShr96 (x : AForm) (s : State) : Host.Outcome State Fault Refusal :=
  aluShift (.shr96 x) (x.toArith 0x17) (shrVal (x.toArith 0x17)) s

/-- SAR, compact: 04 R104. -/
def execSar (x : C3) (s : State) : Host.Outcome State Fault Refusal :=
  aluShift (.sar x) (x.toArith 0x18 none) (sarVal (x.toArith 0x18 none)) s

/-- SAR: 04 R104. -/
def execSar96 (x : AForm) (s : State) : Host.Outcome State Fault Refusal :=
  aluShift (.sar96 x) (x.toArith 0x18) (sarVal (x.toArith 0x18)) s

/-- ROL, compact: 04 R104. -/
def execRol (x : C3) (s : State) : Host.Outcome State Fault Refusal :=
  aluShift (.rol x) (x.toArith 0x19 none) (rolVal (x.toArith 0x19 none)) s

/-- ROL: 04 R104. -/
def execRol96 (x : AForm) (s : State) : Host.Outcome State Fault Refusal :=
  aluShift (.rol96 x) (x.toArith 0x19) (rolVal (x.toArith 0x19)) s

/-- ROR, compact: 04 R104. -/
def execRor (x : C3) (s : State) : Host.Outcome State Fault Refusal :=
  aluShift (.ror x) (x.toArith 0x1A none) (rorVal (x.toArith 0x1A none)) s

/-- ROR: 04 R104. -/
def execRor96 (x : AForm) (s : State) : Host.Outcome State Fault Refusal :=
  aluShift (.ror96 x) (x.toArith 0x1A) (rorVal (x.toArith 0x1A)) s

/-- POPC, compact: 04 R102. -/
def execPopc (x : C3) (s : State) : Host.Outcome State Fault Refusal :=
  aluCount (.popc x) (x.toArith 0x1D none) (popcVal (x.toArith 0x1D none)) s

/-- POPC: 04 R102. -/
def execPopc96 (x : AForm) (s : State) : Host.Outcome State Fault Refusal :=
  aluCount (.popc96 x) (x.toArith 0x1D) (popcVal (x.toArith 0x1D)) s

/-- CLZ, compact: 04 R102. -/
def execClz (x : C3) (s : State) : Host.Outcome State Fault Refusal :=
  aluCount (.clz x) (x.toArith 0x1E none) (clzVal (x.toArith 0x1E none)) s

/-- CLZ: 04 R102. -/
def execClz96 (x : AForm) (s : State) : Host.Outcome State Fault Refusal :=
  aluCount (.clz96 x) (x.toArith 0x1E) (clzVal (x.toArith 0x1E)) s

/-- CTZ, compact: 04 R102. -/
def execCtz (x : C3) (s : State) : Host.Outcome State Fault Refusal :=
  aluCount (.ctz x) (x.toArith 0x1F none) (ctzVal (x.toArith 0x1F none)) s

/-- CTZ: 04 R102. -/
def execCtz96 (x : AForm) (s : State) : Host.Outcome State Fault Refusal :=
  aluCount (.ctz96 x) (x.toArith 0x1F) (ctzVal (x.toArith 0x1F)) s

/-- BREV, compact: 04 R102. -/
def execBrev (x : C3) (s : State) : Host.Outcome State Fault Refusal :=
  alu1 (.brev x) (x.toArith 0x20 none) (brevVal (x.toArith 0x20 none)) s

/-- BREV: 04 R102. -/
def execBrev96 (x : AForm) (s : State) : Host.Outcome State Fault Refusal :=
  alu1 (.brev96 x) (x.toArith 0x20) (brevVal (x.toArith 0x20)) s

/-- REVB, compact: 04 R102. -/
def execRevb (x : C3) (s : State) : Host.Outcome State Fault Refusal :=
  alu1 (.revb x) (x.toArith 0x21 none) (revbVal (x.toArith 0x21 none)) s

/-- REVB: 04 R102. -/
def execRevb96 (x : AForm) (s : State) : Host.Outcome State Fault Refusal :=
  alu1 (.revb96 x) (x.toArith 0x21) (revbVal (x.toArith 0x21)) s

/-- DIV, compact: UNIMPL when its guard is true (02 R60, 04 R99). -/
def execDiv (x : C3) (s : State) : Host.Outcome State Fault Refusal :=
  unimplTeam (.div x) s

/-- DIV: UNIMPL when its guard is true (02 R60, 04 R99). -/
def execDiv96 (x : AForm) (s : State) : Host.Outcome State Fault Refusal :=
  unimplTeam (.div96 x) s

/-- REM, compact: UNIMPL when its guard is true (02 R60, 04 R99). -/
def execRem (x : C3) (s : State) : Host.Outcome State Fault Refusal :=
  unimplTeam (.rem x) s

/-- REM: UNIMPL when its guard is true (02 R60, 04 R99). -/
def execRem96 (x : AForm) (s : State) : Host.Outcome State Fault Refusal :=
  unimplTeam (.rem96 x) s

/-- SAD: 04 R98. -/
def execSad (x : Arith) (s : State) : Host.Outcome State Fault Refusal :=
  alu3 (.sad x) x (sadVal x) s

/-- CLAMP: 04 R98. -/
def execClamp (x : Arith) (s : State) : Host.Outcome State Fault Refusal :=
  alu3 (.clamp x) x (clampVal x) s

/-- LOP: 04 R103. -/
def execLop (x : Arith) (s : State) : Host.Outcome State Fault Refusal :=
  alu3 (.lop x) x (lopVal x) s

/-- BFX: 04 R105. -/
def execBfx (x : Arith) (s : State) : Host.Outcome State Fault Refusal :=
  aluShift (.bfx x) x (bfxVal x) s

/-- BFINS: 04 R105. -/
def execBfins (x : Arith) (s : State) : Host.Outcome State Fault Refusal :=
  aluTeam (.bfins x) (fun s0 th =>
    { d := x.d, w := x.ty.regWidth
      val := bfinsVal x (s0.argA th x) (s0.raw32 th x.toOps4 x.b).toNat (s0.argC th x) }) s

/-- MADW: 32-bit factors, 64-bit sum (04 R100). -/
def execMadw (x : Arith) (s : State) : Host.Outcome State Fault Refusal :=
  let ty64 : Ty := if x.ty == .i32 then .i64 else .n64
  aluTeam (.madw x) (fun s0 th =>
    { d := x.d, w := 64
      val := encodeI ty64 x.sat (decodeI x.ty (s0.argA th x) * decodeI x.ty (s0.argB th x)
        + decodeI ty64 (s0.raw64 th x.toOps4 x.c).toNat) }) s

/-- LEA: 04 R100. -/
def execLea (x : Arith) (s : State) : Host.Outcome State Fault Refusal :=
  aluTeam (.lea x) (fun s0 th =>
    let b := s0.raw32 th x.toOps4 x.b
    let i : Dword := if x.fld 19 1 == 1#1 then b.signExtend 64 else b.setWidth 64
    { d := x.d, w := 64, val := (s0.raw64 th x.toOps4 x.a + i <<< (x.fld 16 3).toNat).toNat }) s

/-- ICVT: 04 R101. -/
def execIcvt (x : Arith) (s : State) : Host.Outcome State Fault Refusal :=
  let st := (Ty.ofCode (x.fld 16 5)).getD .i32
  aluTeam (.icvt x) (fun s0 th =>
    { d := x.d, w := x.ty.regWidth, val := icvtVal x.ty st x.sat (s0.arg' th (litOf x.toOps4) st x.a) }) s

/-- MOV, compact: 04 R106. -/
def execMov (x : C3) (s : State) : Host.Outcome State Fault Refusal :=
  alu1 (.mov x) (x.toArith 0x01 none) id s

/-- MOV: raw bits of the type, a quad for `.b128` (04 R106). -/
def execMov96 (x : AForm) (s : State) : Host.Outcome State Fault Refusal :=
  let y := x.toArith 0x01
  aluTeam (.mov96 x) (fun s0 th =>
    { d := y.d, w := y.ty.regWidth
      val := if y.ty == .b128 then (State.src128 th y.a).toNat else s0.argA th y }) s

/-- SEL: 04 R107. -/
def execSel (x : Arith) (s : State) : Host.Outcome State Fault Refusal :=
  aluTeam (.sel x) (fun s0 th =>
    let p := th.pred (x.fld 16 3) != (x.fld 19 1 == 1#1)
    { d := x.d, w := x.ty.regWidth, val := if p then s0.argA th x else s0.argB th x }) s

/-- CMP: 04 R108. -/
def execCmp (x : Arith) (s : State) : Host.Outcome State Fault Refusal :=
  aluTeam (.cmp x) (fun s0 th =>
    let r := cmpInt (x.fld 19 4).toNat (decodeI x.ty (s0.argA th x)) (decodeI x.ty (s0.argB th x))
    { d := x.d, w := 32, val := if r then 1 else 0, pd := some (x.fld 16 3, r) }) s

/-- PLOP: 04 R109. -/
def execPlop (x : Arith) (s : State) : Host.Outcome State Fault Refusal :=
  aluTeam (.plop x) (fun _ th =>
    let i := (if th.pred (x.fld 19 3) then 4 else 0) + (if th.pred (x.fld 22 3) then 2 else 0)
      + (if th.pred (x.fld 25 3) then 1 else 0)
    { d := .zero, w := 32, val := 0, pd := some (x.fld 16 3, x.mod8.getLsbD i) }) s

/-- PMOV: 04 R110. -/
def execPmov (x : Arith) (s : State) : Host.Outcome State Fault Refusal :=
  runTeam (.pmov x) (fun s0 s1 th =>
    if x.fld 16 1 == 0#1 then .done (s1.put th.id { d := x.d, w := 32, val := 0x80 + th.p.toNat })
    else .done (s1.modThread th.id fun y => { y with p := (s0.raw32 th x.toOps4 x.a).setWidth 7 })) s

end Sys2Proof.Machine
end

