-- ==== Sys2Proof/Machine/Packed.lean ====
section
/-! DEFINITION. Packed and narrow arithmetic within one thread: HADD to DOT, PACK, UNPK and EDGE (06 R175 to R178, R181, R182,
R184), and the pair form (02 R52 to R55). -/

namespace Sys2Proof.Machine

/-! ### Packed 16-bit elements -/

/-- A packed operand: an immediate supplies its value in both elements (02 R50). -/
def State.packed (s : State) (th : Thread) (x : Arith) (o : Opnd) : Nat :=
  match o with
  | .imm _ => s.arg' th (litOf x.toOps4) x.ty o * 65537
  | _ => (s.raw32 th x.toOps4 o).toNat

/-- Two elements' results as one word with both flags. -/
def packed2 (f : Nat → FRes) : FRes :=
  let lo := f 0
  let hi := f 1
  { bits := hi.bits * 65536 + lo.bits, flags := lo.flags ||| hi.flags }

/-- Element e of a packed word. -/
def half (a e : Nat) : Nat := a / 2 ^ (16 * e) % 65536

def haddVal (ty : Ty) (a b _ : Nat) : FRes := packed2 fun e => fadd ty .rne (half a e) (half b e)
def hmulVal (ty : Ty) (a b _ : Nat) : FRes := packed2 fun e => fmul ty .rne (half a e) (half b e)
def hfmaVal (ty : Ty) (a b c : Nat) : FRes := packed2 fun e => ffma ty .rne (half a e) (half b e) (half c e)
def hminVal (ty : Ty) (a b _ : Nat) : FRes := packed2 fun e => fminmax ty false (half a e) (half b e)
def hmaxVal (ty : Ty) (a b _ : Nat) : FRes := packed2 fun e => fminmax ty true (half a e) (half b e)

/-- A packed instruction of up to three sources. -/
def packedTeam (i : Instr) (x : Arith) (f : Ty → Nat → Nat → Nat → FRes) (s : State) : Host.Outcome State Fault Refusal :=
  aluTeam i (fun s0 th =>
    let r := f x.ty (s0.packed th x x.a) (s0.packed th x x.b) (s0.packed th x x.c)
    { d := x.d, w := 32, val := r.bits, flags := r.flags }) s

/-- HADD, compact: 06 R175. -/
def execHadd (x : C3) (s : State) : Host.Outcome State Fault Refusal :=
  packedTeam (.hadd x) (x.toArith 0x80 none) haddVal s

/-- HADD: 06 R175. -/
def execHadd96 (x : AForm) (s : State) : Host.Outcome State Fault Refusal :=
  packedTeam (.hadd96 x) (x.toArith 0x80) haddVal s

/-- HMUL, compact: 06 R175. -/
def execHmul (x : C3) (s : State) : Host.Outcome State Fault Refusal :=
  packedTeam (.hmul x) (x.toArith 0x81 none) hmulVal s

/-- HMUL: 06 R175. -/
def execHmul96 (x : AForm) (s : State) : Host.Outcome State Fault Refusal :=
  packedTeam (.hmul96 x) (x.toArith 0x81) hmulVal s

/-- HFMA, compact: 06 R175. -/
def execHfma (x : C3) (s : State) : Host.Outcome State Fault Refusal :=
  packedTeam (.hfma x) (x.toArith 0x82 none) hfmaVal s

/-- HFMA: 06 R175. -/
def execHfma96 (x : AForm) (s : State) : Host.Outcome State Fault Refusal :=
  packedTeam (.hfma96 x) (x.toArith 0x82) hfmaVal s

/-- HMIN: 06 R176. -/
def execHmin (x : Arith) (s : State) : Host.Outcome State Fault Refusal := packedTeam (.hmin x) x hminVal s

/-- HMAX: 06 R176. -/
def execHmax (x : Arith) (s : State) : Host.Outcome State Fault Refusal := packedTeam (.hmax x) x hmaxVal s

/-! ### DOT (06 R177, R178) -/

/-- n v registers from a base as one bit string (03 R73). -/
def Thread.span (th : Thread) (o : Opnd) (n : Nat) : Nat :=
  match o with
  | .v b => pack 32 ((List.range n).map fun i => (th.getV (b + BitVec.ofNat 8 i)).toNat)
  | _ => 0

/-- Products of a DOT and its block length. -/
def dotShape (ty : Ty) : Nat × Nat :=
  match ty with
  | .f16 | .bf16 => (16, 16)
  | .e2m1 => (64, 32)
  | .i4 => (64, 64)
  | _ => (32, 32)

/-- DOT of floating-point formats: one block step for each block, from C (03 R87). -/
def dotFloat (ta tb : Ty) (ps : List (Nat × Nat)) (l : Nat) (mx : Bool) (vs : Nat) : Nat → Nat → FRes → FRes
  | 0, _, acc => acc
  | n + 1, j, acc =>
    let scale (b : Nat) : FVal := if mx then scaleV (vs / 2 ^ (16 * j + b) % 256) else .fin false 1 0
    let r := blockStep acc.bits (blockOf ta tb ((ps.drop (l * j)).take l)) (scale 0) (scale 8)
    dotFloat ta tb ps l mx vs n (j + 1) { r with flags := r.flags ||| acc.flags }

/-- DOT of spans given as bit strings. -/
def dotVal (ta tb : Ty) (sat mx : Bool) (a b c vs : Nat) : FRes :=
  let (n, l) := dotShape ta
  let ps := (unpack ta.width n a).zip (unpack tb.width n b)
  if Ty.isInt ta then
    let sum : Int := ps.foldl (fun x p => x + decodeI ta p.1 * decodeI tb p.2) 0
    { bits := encodeI .i32 sat (decodeI .i32 c + sum) }
  else dotFloat ta tb ps l mx vs (n / l) 0 { bits := c }

/-- DOT: 06 R178. C is an FP32 or a 32-bit integer operand. -/
def execDot (x : Arith) (s : State) : Host.Outcome State Fault Refusal :=
  let tb := (Ty.ofCode (x.fld 16 5)).getD .f16
  aluTeam (.dot x) (fun s0 th =>
    let c := s0.arg' th (litOf x.toOps4) (if Ty.isInt x.ty then .i32 else .f32) x.c
    let r := dotVal x.ty tb x.sat (x.mod8 == 1#8) (th.span x.a x.ty.dotSpan) (th.span x.b tb.dotSpan) c
      (th.getV (x.fld 24 8)).toNat
    { d := x.d, w := 32, val := r.bits, flags := r.flags }) s

/-! ### PACK and UNPK (06 R181, R182) -/

/-- One element of a PACK: a conversion from FP32, or a clamp from a 32-bit integer. -/
def packElem (dt : Ty) (mode : Rnd) (sat : Bool) (a : Nat) : FRes :=
  match dt with
  | .i8 | .i4 => { bits := encodeI dt true (decodeI .i32 a) }
  | _ => roundTo dt mode sat (decodeF .f32 a)

/-- D's old value with w bits at element j replaced. -/
def putElem (old w j e : Nat) : Nat :=
  old % 2 ^ (w * j) + e * 2 ^ (w * j) + old / 2 ^ (w * j + w) * 2 ^ (w * j + w)

/-- PACK: 06 R181. -/
def execPack (x : Arith) (s : State) : Host.Outcome State Fault Refusal :=
  let st : Ty := if x.fld 21 3 == 1#3 then .i32 else .f32
  let j := (x.fld 16 5).toNat
  aluTeam (.pack x) (fun s0 th =>
    let lit := litOf x.toOps4
    let a := packElem x.ty (th.rnd x.rnd) x.sat (s0.arg' th lit st x.a)
    let b := packElem x.ty (th.rnd x.rnd) x.sat (s0.arg' th lit st x.b)
    let old := (s0.src th lit x.d 32).toNat
    { d := x.d, w := 32, val := putElem (putElem old x.ty.width j a.bits) x.ty.width (j + 1) b.bits
      flags := a.flags ||| b.flags }) s

/-- UNPK of an element of the type. -/
def unpkVal (ty : Ty) (e : Nat) : FRes :=
  match ty with
  | .i8 | .i4 => { bits := encodeI .i32 false (decodeI ty e) }
  | _ => roundTo .f32 .rne false (decodeF ty e)

/-- The 32 bits that UNPK reads: an immediate is an operand of its element type, converted when that is a 16-bit format (02 R50;
log 57). -/
def State.unpkSrc (s : State) (th : Thread) (x : Arith) : Nat :=
  match x.a, x.ty with
  | .imm _, .f16 | .imm _, .bf16 => s.arg' th (litOf x.toOps4) x.ty x.a
  | _, _ => (s.raw32 th x.toOps4 x.a).toNat

/-- UNPK: 06 R182. -/
def execUnpk (x : Arith) (s : State) : Host.Outcome State Fault Refusal :=
  let w := x.ty.width
  aluTeam (.unpk x) (fun s0 th =>
    let r := unpkVal x.ty (s0.unpkSrc th x / 2 ^ (w * (x.fld 16 5).toNat) % 2 ^ w)
    { d := x.d, w := 32, val := r.bits, flags := r.flags }) s

/-! ### EDGE (06 R184) -/

/-- Sign of an exact sum: negative, zero or positive as -1, 0, 1. -/
def signV (v : FVal) : Int :=
  match v with
  | .fin n m _ => if m == 0 then 0 else if n then -1 else 1
  | _ => 0

/-- i + 1/2. -/
def halfV (i : Int) : FVal := .fin (decide (2 * i + 1 < 0)) (2 * i + 1).natAbs (-1)

/-- One sample of the coverage test. -/
def edgeHit (a b c : FVal) (px py : Int) : Bool :=
  let e := (addV .rne (addV .rne (mulV a (halfV px)).1 (mulV b (halfV py)).1).1 c).1
  signV e == 1 || (signV e == 0 && (signV a == 1 || (signV a == 0 && signV b == 1)))

/-- EDGE of coefficients, origin and mask. -/
def edgeVal (a b c : FVal) (x y : Int) (mask : Nat) : FRes :=
  let fin := !(a.isNan || a.isInf || b.isNan || b.isInf || c.isNan || c.isInf)
  let m := pack 1 ((List.range 16).map fun k =>
    if fin && edgeHit a b c (x + (k % 4 : Nat)) (y + (k / 4 : Nat)) then 1 else 0)
  { bits := m &&& (mask % 65536), flags := nvIf (a.isSnan || b.isSnan || c.isSnan) }

/-- EDGE: 06 R184. -/
def execEdge (x : Arith) (s : State) : Host.Outcome State Fault Refusal :=
  aluTeam (.edge x) (fun s0 th =>
    let q := State.src128 th x.a
    let k (i : Nat) : FVal := decodeF .f32 (q.toNat / 2 ^ (32 * i) % 2 ^ 32)
    let org := s0.raw64 th x.toOps4 x.b
    let r := edgeVal (k 0) (k 1) (k 2) (org.extractLsb' 0 32).toInt (org.extractLsb' 32 32).toInt
      (s0.raw32 th x.toOps4 x.c).toNat
    { d := x.d, w := 32, val := r.bits, flags := r.flags }) s

/-! ### The pair form -/

/-- The instruction that a half acts as, on 32-bit operands (02 R53). -/
def halfVal (h : Half) (a b c : Nat) : FRes :=
  let w : Arith := { g := 7, d := .zero, a := .zero, b := .zero, c := .zero, mod8 := 0, lit := none, ext := 0, sat := false
                     rnd := 0, ty := h.ty }
  let int (n : Nat) : FRes := { bits := n }
  match h.sub.toNat with
  | 0x00 => ffma .f32 .rne a b c
  | 0x01 => fmul .f32 .rne a b
  | 0x02 => fadd .f32 .rne a b
  | 0x03 => fadd .f32 .rne a (fneg .f32 b)
  | 0x04 => fminmax .f32 false a b
  | 0x05 => fminmax .f32 true a b
  | 0x06 => hfmaVal h.ty a b c
  | 0x07 => hmulVal h.ty a b c
  | 0x08 => haddVal h.ty a b c
  | 0x40 => int (addVal w a b)
  | 0x41 => int (subVal w a b)
  | 0x42 => int (mulVal w a b)
  | 0x43 => int (madVal w a b c)
  | 0x44 => int (andVal w a b)
  | 0x45 => int (orVal w a b)
  | 0x46 => int (xorVal w a b)
  | 0x47 => int (andnVal w a b)
  | 0x48 => int (shlVal w a b)
  | 0x49 => int (shrVal w a b)
  | 0x4A => int (sarVal w a b)
  | 0x4B => int a
  | 0x4C => int (minVal w a b)
  | _ => int (maxVal w a b)

/-- What one half delivers, from the state before the pair; nothing when its guard is false. -/
def halfOut (s : State) (th : Thread) (lit : Dword) (h : Half) : Option Out :=
  if th.guard h.g then
    let v (o : Opnd) : Nat := (s.src th lit o 32).toNat
    let r := halfVal h (v h.a) (v h.b) (v h.c)
    some { d := h.d, w := 32, val := r.bits, flags := r.flags }
  else none

/-- PAIR: half 0's result, then half 1's (02 R55, 01 R19). -/
def execPair (x : Pair) (s : State) : Host.Outcome State Fault Refusal :=
  runTeam (.pair x) (fun s0 s1 th =>
    let put (s : State) (o : Option Out) : State := match o with
      | some o => s.put th.id o
      | none => s
    let lit := x.lit.getD 0
    .done (put (put s1 (halfOut s0 th lit x.h0)) (halfOut s0 th lit x.h1))) s

end Sys2Proof.Machine
end

