-- ==== Sys2Proof/Machine/Special.lean ====
section
/-! DEFINITION. The special functions, correctly rounded (03 R92 to R94). A function whose value is not rational is
approximated in fixed point with an error bound, with more bits until both ends of the interval round alike. -/

namespace Sys2Proof.Machine

/-! ### Fixed point: an integer v stands for v / 2^p -/

/-- z^k/k - or + z^(k+2)/(k+2) and so on, t being z^k. -/
def oddSeries (p : Nat) (alt : Bool) (z2 : Nat) : Nat → Nat → Nat → Int
  | 0, _, _ => 0
  | n + 1, k, t =>
    let rest := oddSeries p alt z2 n (k + 2) (t * z2 / 2 ^ p)
    if alt then (t / k : Nat) - rest else (t / k : Nat) + rest

/-- The natural logarithm of m, 1 ≤ m < 2. -/
def lnFix (p m : Nat) : Int :=
  let z := (m - 2 ^ p) * 2 ^ p / (m + 2 ^ p)
  2 * oddSeries p false (z * z / 2 ^ p) (p / 3 + 4) 1 z

/-- The natural logarithm of 2. -/
def ln2Fix (p : Nat) : Int := 2 * oddSeries p false (2 ^ p / 9) (p / 3 + 4) 1 (2 ^ p / 3)

def atanInv (p n : Nat) : Int := oddSeries p true (2 ^ p / (n * n)) (p / 4 + 4) 1 (2 ^ p / n)

/-- The circle constant. -/
def piFix (p : Nat) : Int := 16 * atanInv p 5 - 4 * atanInv p 239

/-- t + t*y/k + and so on: the exponential series from its term t. -/
def expSeries (p y : Nat) : Nat → Nat → Nat → Nat
  | 0, _, t => t
  | n + 1, k, t => t + expSeries p y n (k + 1) (t * y / 2 ^ p / k)

def expFix (p y : Nat) : Nat := expSeries p y (p + 16) 1 (2 ^ p)

/-- t - t*y2/(k(k+1)) + and so on: sine from t = r and k = 2, cosine from t = 1 and k = 1. -/
def sinSeries (p y2 : Nat) : Nat → Nat → Nat → Int
  | 0, _, _ => 0
  | n + 1, k, t => (t : Int) - sinSeries p y2 n (k + 2) (t * y2 / 2 ^ p / (k * (k + 1)))

/-- An approximation: a fixed-point value times 2^e, and its error bound in units of the last place. -/
structure Approx where
  v : Int
  p : Nat
  e : Int := 0
  err : Nat
  deriving DecidableEq, Repr

def Approx.at_ (a : Approx) (d : Int) : FVal := .fin (decide (a.v + d < 0)) (a.v + d).natAbs (a.e - a.p)

/-- Rounds with the first precision that decides it. -/
def roundApprox (f : Nat → Approx) : List Nat → Nat
  | [] => rne .f32 ((f 512).at_ 0)
  | p :: ps =>
    let a := f p
    let lo := rne .f32 (a.at_ (-(a.err : Int)))
    if lo == rne .f32 (a.at_ a.err) then lo else roundApprox f ps

def precisions : List Nat := [128, 256]

/-- m * 2^e in fixed point, truncated. -/
def toFix (p m : Nat) (e : Int) : Nat := if 0 ≤ e + p then m * 2 ^ (e + p).toNat else m / 2 ^ (-(e + p)).toNat

/-- 2^x for a finite x = (-1)^n m 2^e. -/
def ex2Approx (n : Bool) (m : Nat) (e : Int) (p : Nat) : Approx :=
  let x : Int := if n then -(toFix p m e : Int) else toFix p m e
  let w := x / (2 ^ p : Nat)
  let fr := (x - w * (2 ^ p : Nat)).toNat
  { v := expFix p (fr * (ln2Fix p).toNat / 2 ^ p), p := p, e := w, err := 2 ^ 20 }

/-- The base-2 logarithm of m * 2^e, m not zero. -/
def lg2Approx (m : Nat) (e : Int) (p : Nat) : Approx :=
  let k := Nat.log2 m
  { v := (e + k) * (2 ^ p : Nat) + lnFix p (m * 2 ^ (p - k)) * (2 ^ p : Nat) / ln2Fix p, p := p, err := 2 ^ 20 }

/-- Quadrant and remainder of an angle m * 2^e: the remainder lies within an eighth of a turn. -/
def reduceAngle (m : Nat) (e : Int) (p : Nat) : Nat × Int :=
  let q := p + 160
  let x : Int := toFix q m e
  let pi := piFix q
  let k := (4 * x + pi) / (2 * pi)
  ((k % 4).toNat, (2 * x - k * pi) / (2 ^ 161 : Nat))

/-- sin of (-1)^n m 2^e plus `turn` quarter turns. -/
def sinApprox (turn : Nat) (n : Bool) (m : Nat) (e : Int) (p : Nat) : Approx :=
  let (k, r) := reduceAngle m e p
  let k := if n then (4 - k) % 4 else k
  let r := if n then -r else r
  let y2 := r.natAbs * r.natAbs / 2 ^ p
  let s : Int := sinSeries p y2 (p / 4 + 8) 2 r.natAbs
  let s : Int := if r < 0 then -s else s
  let c : Int := sinSeries p y2 (p / 4 + 8) 1 (2 ^ p)
  let v := match (k + turn) % 4 with
    | 0 => s
    | 1 => c
    | 2 => -s
    | _ => -c
  { v := v, p := p, err := 2 ^ 20 }

/-- tanh of m * 2^e with its sign. -/
def tanhApprox (n : Bool) (m : Nat) (e : Int) (p : Nat) : Approx :=
  let x := expFix p (2 * toFix p m e)
  let v : Int := ((x - 2 ^ p) * 2 ^ p / (x + 2 ^ p) : Nat)
  { v := if n then -v else v, p := p, err := 2 ^ 48 }

/-- 1/sqrt(m * 2^e), its last bit set when it is inexact. -/
def rsqFin (m : Nat) (e : Int) : FVal :=
  let (m1, e1) := if e % 2 == 0 then (m, e) else (2 * m, e - 1)
  let r := isqrt (2 ^ 256 / m1)
  .fin false (2 * r + (if r * r * m1 == 2 ^ 256 then 0 else 1)) (-(e1 / 2) - 129)

/-! ### The functions (03 R93): an FP32 code and the flags NV and DZ -/

/-- The seven functions, in opcode order from 0x85. -/
inductive Sfn where
  | rcp | rsq | ex2 | lg2 | sin | cos | tanh
  deriving DecidableEq, Repr

def infCode (neg : Bool) : Nat := (Ty.fmt .f32).put neg 0x7F800000

/-- Whether (-1)^n m 2^e, finite, is less than an integer. -/
def ltInt (n : Bool) (m : Nat) (e : Int) (i : Int) : Bool := ltV (.fin n m e) (ofInt i)

def nanRes (s : Bool) : FRes := { bits := 0x7FC00000, flags := nvIf s }

/-- The function of an FP32 code. -/
def sfn32 (f : Sfn) (a : Nat) : FRes :=
  match f, decodeF .f32 a with
  | _, .nan s => nanRes s
  | .rcp, v =>
    let (q, fl) := divV (.fin false 1 0) v
    { bits := rne .f32 q, flags := fl }
  | .rsq, .inf n => if n then nanRes true else { bits := 0 }
  | .rsq, .fin n m e =>
    if m == 0 then { bits := infCode n, flags := fDZ }
    else if n then nanRes true
    else { bits := rne .f32 (rsqFin m e) }
  | .ex2, .inf n => { bits := if n then 0 else infCode false }
  | .ex2, .fin n m e =>
    if !ltInt n m e 128 then { bits := infCode false }
    else if !ltV (ofInt (-152)) (.fin n m e) then { bits := 0 }
    else if m == 0 then { bits := 0x3F800000 }
    else { bits := roundApprox (ex2Approx n m e) precisions }
  | .lg2, .inf n => if n then nanRes true else { bits := infCode false }
  | .lg2, .fin n m e =>
    if m == 0 then { bits := infCode true, flags := fDZ }
    else if n then nanRes true
    else if m == 2 ^ Nat.log2 m then { bits := rne .f32 (ofInt (e + Nat.log2 m)) }
    else { bits := roundApprox (lg2Approx m e) precisions }
  | .sin, .inf _ | .cos, .inf _ => nanRes true
  | .sin, .fin n m e =>
    if ltV (.fin false m e) (pow2V (-12)) then { bits := a }
    else { bits := roundApprox (sinApprox 0 n m e) precisions }
  | .cos, .fin n m e =>
    if ltV (.fin false m e) (pow2V (-13)) then { bits := 0x3F800000 }
    else { bits := roundApprox (sinApprox 1 n m e) precisions }
  | .tanh, .inf n => { bits := (Ty.fmt .f32).put n 0x3F800000 }
  | .tanh, .fin n m e =>
    if ltV (.fin false m e) (pow2V (-12)) then { bits := a }
    else if leV (.fin false 73 (-3)) (.fin false m e) then { bits := (Ty.fmt .f32).put n 0x3F800000 }
    else { bits := roundApprox (tanhApprox n m e) precisions }

/-- The function at a type: a 16-bit input widens exactly, and its result is rounded once more (03 R94). -/
def sfnVal (f : Sfn) (ty : Ty) (a : Nat) : FRes :=
  if ty == .f32 then sfn32 f a
  else
    let w := roundTo .f32 .rne false (decodeF ty a)
    let r := sfn32 f w.bits
    { bits := rne ty (decodeF .f32 r.bits), flags := (r.flags ||| w.flags) &&& (fNV ||| fDZ) }

/-- A special-function instruction. -/
def sfnTeam (i : Instr) (x : Arith) (f : Sfn) (s : State) : Host.Outcome State Fault Refusal :=
  aluTeam i (fun s0 th =>
    let r := sfnVal f x.ty (s0.argA th x)
    { d := x.d, w := 32, val := r.bits, flags := r.flags }) s

/-- RCP, compact: 06 R180. -/
def execRcp (x : C3) (s : State) : Host.Outcome State Fault Refusal :=
  sfnTeam (.rcp x) (x.toArith 0x85 none) .rcp s

/-- RCP: 06 R180. -/
def execRcp96 (x : AForm) (s : State) : Host.Outcome State Fault Refusal :=
  sfnTeam (.rcp96 x) (x.toArith 0x85) .rcp s

/-- RSQ, compact: 06 R180. -/
def execRsq (x : C3) (s : State) : Host.Outcome State Fault Refusal :=
  sfnTeam (.rsq x) (x.toArith 0x86 none) .rsq s

/-- RSQ: 06 R180. -/
def execRsq96 (x : AForm) (s : State) : Host.Outcome State Fault Refusal :=
  sfnTeam (.rsq96 x) (x.toArith 0x86) .rsq s

/-- EX2, compact: 06 R180. -/
def execEx2 (x : C3) (s : State) : Host.Outcome State Fault Refusal :=
  sfnTeam (.ex2 x) (x.toArith 0x87 none) .ex2 s

/-- EX2: 06 R180. -/
def execEx296 (x : AForm) (s : State) : Host.Outcome State Fault Refusal :=
  sfnTeam (.ex296 x) (x.toArith 0x87) .ex2 s

/-- LG2, compact: 06 R180. -/
def execLg2 (x : C3) (s : State) : Host.Outcome State Fault Refusal :=
  sfnTeam (.lg2 x) (x.toArith 0x88 none) .lg2 s

/-- LG2: 06 R180. -/
def execLg296 (x : AForm) (s : State) : Host.Outcome State Fault Refusal :=
  sfnTeam (.lg296 x) (x.toArith 0x88) .lg2 s

/-- SIN, compact: 06 R180. -/
def execSin (x : C3) (s : State) : Host.Outcome State Fault Refusal :=
  sfnTeam (.sin x) (x.toArith 0x89 none) .sin s

/-- SIN: 06 R180. -/
def execSin96 (x : AForm) (s : State) : Host.Outcome State Fault Refusal :=
  sfnTeam (.sin96 x) (x.toArith 0x89) .sin s

/-- COS, compact: 06 R180. -/
def execCos (x : C3) (s : State) : Host.Outcome State Fault Refusal :=
  sfnTeam (.cos x) (x.toArith 0x8A none) .cos s

/-- COS: 06 R180. -/
def execCos96 (x : AForm) (s : State) : Host.Outcome State Fault Refusal :=
  sfnTeam (.cos96 x) (x.toArith 0x8A) .cos s

/-- TANH, compact: 06 R180. -/
def execTanh (x : C3) (s : State) : Host.Outcome State Fault Refusal :=
  sfnTeam (.tanh x) (x.toArith 0x8B none) .tanh s

/-- TANH: 06 R180. -/
def execTanh96 (x : AForm) (s : State) : Host.Outcome State Fault Refusal :=
  sfnTeam (.tanh96 x) (x.toArith 0x8B) .tanh s

end Sys2Proof.Machine
end

