-- ==== Sys2Proof/Machine/System.lean ====
section
/-! DEFINITION. System registers: MOVS, SETS and writes of SX.TIME (01 R31, R32, 04 R131, R132; the registers of 05 R143, 07 R189,
11 R249, 12 R289, 13 R307, 17 R361, 18 R385, 20 R404, 21 R419). -/

namespace Sys2Proof.Machine

/-- Register numbers of 64 bits. -/
def sysWide (r : Nat) : Bool :=
  [0x010, 0x011, 0x025, 0x026, 0x027, 0x028, 0x029, 0x02A, 0x030, 0x032, 0x040, 0x041, 0x042, 0x043, 0x044, 0x051, 0x060, 0x061
  , 0x062, 0x070, 0x090].contains r

/-- How many indices an indexed family has for a thread. -/
def State.sysCount (s : State) (th : Thread) (r : Nat) : Option Nat :=
  match r with
  | 0x043 => some (s.slotCount th)
  | 0x044 => some 8
  | 0x051 => some 512
  | 0x090 => some 64
  | _ => none

/-- SX.TIME (01 R32). -/
def State.time (s : State) : Dword := s.timeSet + BitVec.ofNat 64 ((s.cycle - s.timeAt) * 5 / 7)

def unitCode : UnitKind → Nat
  | .device => 0
  | .intersection => 1
  | .service => 2

def originCode : Origin → Nat
  | .launch => 0
  | .spawn => 1
  | .slot => 2
  | .engine => 3

/-- SX.SLOTSTATE of a slot (11 R249). -/
def Slot.bits (x : Slot) : Dword :=
  BitVec.ofNat 64 (pack 16 [x.target.toNat, x.remain.toNat] + x.pending.toNat * 2 ^ 32 + (if x.armed then 2 ^ 60 else 0)
    + (if x.phase then 2 ^ 61 else 0) + (if x.ready then 2 ^ 62 else 0) + (if x.fault then 2 ^ 63 else 0))

/-- SX.QSTATE of a queue (11 R249). -/
def TQueue.bits (q : TQueue) : Dword :=
  BitVec.ofNat 64 (pack 16 [q.head, q.cap, q.count] + if q.init then 2 ^ 63 else 0)

/-- The group that a core is hitched for, if it is: the one that reads, or another on its core (12 R289). -/
def State.coreHitched (s : State) (g : Group) : Option Group :=
  if g.hitched.isSome then some g else (s.onCore g.core).find? fun y => y.holds && y.hitched.isSome

/-- SX.HARNESS (12 R289): the core's place in its grid, and a HITCH or UNHITCH of the group that reads. -/
def State.harnessBits (s : State) (g : Group) : Dword :=
  match s.coreHitched g with
  | none => 0
  | some y =>
    let h := y.hitched.getD { w := 0, dp := 0 }
    BitVec.ofNat 64 (2 ^ 31 + (if (s.hitchWaiter g.id).isSome then 2 ^ 30 else 0) + y.posX * 2 ^ 16 + y.posZ * 2 ^ 12
      + h.w * 2 ^ 8 + h.dp * 2 ^ 4)

def stateCode : CopyState → Nat
  | .empty => 0
  | .loading => 1
  | .valid => 2
  | .broken => 3

/-- State and kind of a copy; the kind reads 0 when it is EMPTY. -/
def FrameCopy.code (c : FrameCopy) : Nat :=
  4 * stateCode c.st + (match c.st, c.kind with
    | .empty, _ => 0
    | _, .dense => 0
    | _, .values => 1
    | _, .meta_ => 2)

/-- SX.BFRAME (12 R289). -/
def Frame.bits (x : Frame) : Dword :=
  BitVec.ofNat 64 ((if x.fresh then 2 ^ 63 else 0) + (if x.live then 2 ^ 62 else 0) + (x.copy x.live).code * 2 ^ 58
    + (x.copy (!x.live)).code * 2 ^ 54)

/-- Shape of a thread's stage. -/
def State.stageDim (s : State) (th : Thread) (g : Group) : Nat × Nat × Nat :=
  if g.spawned != 0 then (th.count, 1, 1)
  else match s.launch? g.launch with
    | some l => l.lr.shape.getD th.stage (1, 1, 1)
    | none => (1, 1, 1)

/-- A register of a device thread's group. -/
def State.groupReg (s : State) (th : Thread) (g : Group) (r idx : Nat) : Dword :=
  let n (x : Nat) : Dword := BitVec.ofNat 64 x
  let l := s.launch? g.launch
  match r with
  | 0x021 => n th.lane
  | 0x022 => n (th.lane / 32)
  | 0x023 => n th.stage
  | 0x024 => n th.tid
  | 0x025 => let d := s.stageDim th g; xyz th.tid d.1 d.2.1
  | 0x026 => let d := s.stageDim th g; packXyz d.1 d.2.1 d.2.2
  | 0x027 => s.groupXyz g
  | 0x028 => if g.spawned != 0 then packXyz 1 1 1 else (l.map fun l => packXyz l.lr.gx l.lr.gy l.lr.gz).getD 0
  | 0x029 => s.gangXyz g
  | 0x02A => (l.map fun l => packXyz l.lr.lx l.lr.ly l.lr.lz).getD 0
  | 0x02B => n (g.core / 32 * 256 + g.core % 32)
  | 0x02C => n (originCode th.origin)
  | 0x031 => n g.hdr.scratch
  | 0x033 => n ((l.map fun l => l.lr.stack).getD 0)
  | 0x040 => slotBits g.slots (·.ready)
  | 0x041 => slotBits g.slots (·.fault)
  | 0x042 => slotBits g.slots (·.phase)
  | 0x043 => (g.slots.getD idx {}).bits
  | 0x044 => (g.queues.getD idx {}).bits
  | 0x050 => s.harnessBits g
  | 0x051 => ((s.coreHitched g).map fun y => (y.frameAt idx).bits).getD 0
  | 0x052 => n g.tileFlags.toNat
  | _ => 0

/-- A register for a thread without a group: one that it shares with its launch, a harness register, which reads as zero on a core
that is not hitched (12 R289); otherwise the manual states no value (log 10). -/
def State.loneReg (s : State) (th : Thread) (r idx : Nat) : Dword :=
  match r with
  | 0x02A => match s.launchOf th with
    | some l => packXyz l.lr.lx l.lr.ly l.lr.lz
    | none => Config.sysReg th.id r idx
  | 0x033 => match s.launchOf th with
    | some l => BitVec.ofNat 64 l.lr.stack
    | none => Config.sysReg th.id r idx
  | 0x050 | 0x051 => 0
  | _ => Config.sysReg th.id r idx

/-- The value of a system register for a thread. -/
def State.readSys (s : State) (th : Thread) (r idx : Nat) : Dword :=
  let n (x : Nat) : Dword := BitVec.ofNat 64 x
  let sp := s.spaceOf th
  match r with
  | 0x001 => th.status.setWidth 64 &&& 0x1F#64
  | 0x002 => (th.status.extractLsb' 8 2).setWidth 64
  | 0x003 => th.status.setWidth 64
  | 0x004 => if th.sup then 1 else 0
  | 0x005 => n (unitCode th.unit)
  | 0x006 => 0x100
  | 0x007 => th.cnt.word.setWidth 64
  | 0x010 => n s.cycle
  | 0x011 => s.time
  | 0x020 => 32
  | 0x030 => s.img.spBase
  | 0x032 => s.img.stkBase
  | 0x060 => if th.unit == .intersection then Config.sysReg th.id r idx else s.tvec th
  | 0x061 => s.img.kvec
  | 0x062 => s.tframe th
  | 0x063 => th.tstate.setWidth 64
  | 0x070 => n (sp.asid.toNat * 2 ^ 32 + if sp.five then 256 + 57 else 48)
  | 0x080 => n ((if s.fabricUp then 65536 else 0) + s.img.devId)
  | 0x081 => n s.img.homemap
  | 0x090 => s.img.qdesc.getD idx 0
  | 0x091 => n th.tid
  | _ =>
    match th.unit, s.group? th.group with
    | .device, some g => s.groupReg th g r idx
    | _, _ => s.loneReg th r idx

/-- The register number and the width of MOVS or SETS. -/
def sysNum (x : Desc) : Nat := (x.w2.extractLsb' 0 12).toNat
def sysBits (x : Desc) : Nat := if x.w2.getLsbD 15 then 64 else 32

/-- RANGE on the index of an indexed family (04 R131). -/
def State.sysRange (s : State) (th : Thread) (x : Desc) (idx : Nat) : Bool :=
  match s.sysCount th (sysNum x) with
  | some c => c ≤ idx
  | none => false

/-- MOVS: 04 R131, R132. -/
def execMovs (x : Desc) (s : State) : Host.Outcome State Fault Refusal :=
  runTeam (.movs x) (fun s0 s1 th =>
    let idx := (s0.b32 th x).toNat
    if s1.sysRange th x idx then .trap s1 .range 0 0
    else
      let v := s1.readSys th (sysNum x) idx
      let v := if sysBits x == 32 || !sysWide (sysNum x) then v &&& 0xFFFFFFFF#64 else v
      .done (s1.result th.id x.d (sysBits x) (v.setWidth 128))) s

/-- What a write does to a system register's writable fields for the thread's mode. SX.TILEFLAGS of a thread that has no group is not
written: no rule says what such a write does (DESIGN CHOICE, log 10). -/
def State.writeSys (s : State) (th : Thread) (r : Nat) (v : Dword) : State :=
  let w : Word := v.setWidth 32
  match r with
  | 0x001 => s.modThread th.id fun x => { x with status := (x.status &&& ~~~0x1F#32) ||| (w &&& 0x1F#32) }
  | 0x002 => s.modThread th.id fun x => { x with status := (x.status &&& ~~~0x300#32) ||| ((w &&& 3#32) <<< 8) }
  | 0x003 => s.modThread th.id fun x => { x with status := w &&& statusMask }
  | 0x052 => if th.unit == .device then s.modGroup th.group fun g => { g with tileFlags := w.extractLsb' 0 5 } else s
  | 0x060 =>
    if !th.sup then s
    else match th.unit with
      | .service => s.modThread th.id fun x => { x with tvec := v }
      | .device => s.modGroup th.group fun g => { g with tvec := v }
      | .intersection => s
  | 0x062 => if th.sup && th.unit == .service then s.modThread th.id fun x => { x with tframe := v } else s
  | _ => s

/-- The value that SETS writes, zero-extended. -/
def State.setsVal (s : State) (th : Thread) (x : Desc) : Dword :=
  if sysBits x == 64 then s.a64 th x else (s.a32 th x).setWidth 64

/-- SETS of a register other than SX.TIME: 04 R131. -/
def execSets (x : Desc) (s : State) : Host.Outcome State Fault Refusal :=
  runTeam (.sets x) (fun s0 s1 th =>
    if s1.sysRange th x (s0.b32 th x).toNat then .trap s1 .range 0 0
    else .done (s1.writeSys th (sysNum x) (s0.setsVal th x))) s

/-- SETS of SX.TIME: in supervisor mode it sets the module's count; in user mode it is ignored (01 R30, R32). -/
def execSxTimeWrite (x : Desc) (s : State) : Host.Outcome State Fault Refusal :=
  runTeam (.sxTimeWrite x) (fun s0 s1 th =>
    .done (if th.sup then { s1 with timeSet := s0.setsVal th x, timeAt := s1.cycle } else s1)) s

end Sys2Proof.Machine
end

