-- ==== Sys2Proof/Machine/Traps.lean ====
section
/-! DEFINITION. RTE, MOVIX, SETIX, REGION and YIELD (17 R365 to R368, R378, R379) and records of threads that stay halted
(R370). -/

namespace Sys2Proof.Machine

/-! ### The frame -/

/-- Reads n bytes of the trap frame from offset o for an instruction: a thread's stack, or memory for a service-processor thread. -/
def State.ownFrame (s : State) (th : Thread) (o n : Nat) : State × Own :=
  match th.unit with
  | .service => s.ownRead th (th.tframe + BitVec.ofNat 64 o) n 1 true
  | _ =>
    if th.writing then (s, .later)
    else match s.frameRead th o n with
      | (s1, .ok bs) => (s1, .ok bs)
      | (s1, .error f) => (s1, .bad { cause := f.cause, addr := s.tframe th + BitVec.ofNat 64 o })

/-- Bytes of an instruction whose first word is w (01 R34). -/
def wordLen (w : Word) : Nat := 4 * lengthWords w

/-! ### RTE (17 R366) -/

/-- The target of RTE from a frame. -/
def rteTarget (adv : Bool) (fr : List Byte) : Dword :=
  let t := dword fr 0x18
  if adv && !(field fr 1 1).testBit 0 then t + BitVec.ofNat 64 (wordLen (word fr 0x28)) else t

/-- The frame's reserved bytes and bits are zero (00 R9, 17 R362). That PREDS[15:7] and FRFLAGS[7:2] count as reserved bits of the
frame, while those of STATUS are ignored, is the model's choice (log 61). -/
def frameOk (fr : List Byte) : Bool :=
  zeros fr 2 2 && zeros fr 0xA 2 && zeros fr 0x40 16 && field fr 1 1 < 4 && field fr 8 2 < 128

/-- RTE of one member. A failed check, of the frame (log 61) or of the target, escalates, since the thread is in a handler. -/
def rteOne (x : Desc) (s : State) (th : Thread) : Res :=
  if !th.tstate.getLsbD 0 then .trap s .range 0 0
  else if th.busy (List.range 8) || th.flagsDue then .stall s
  else
    let (s1, r) := s.ownFrame th 0 128
    r.res s1 th (.rte x) fun fr =>
      let t := rteTarget (x.w2.getLsbD 0) fr
      if !frameOk fr then .trap s1 .desc 0 0
      else match s1.targetTrap th t with
      | some c => .trap s1 c t 0
      | none => .jump (s1.modThread th.id fun y => y.restore fr t)

/-- RTE: 17 R366. -/
def execRte (x : Desc) (s : State) : Host.Outcome State Fault Refusal :=
  runTeam (.rte x) (fun _ s1 th => rteOne x s1 th) s

/-! ### MOVIX and SETIX (17 R367, R368) -/

/-- The operand that an index names, with its width, before any check of registers. -/
def indexOperand (a : Word) : Option (Opnd × Nat) :=
  if a.extractLsb' 13 19 != 0#19 || a.getLsbD 11 then none
  else
    let w := if a.getLsbD 10 then 64 else 32
    let o := if a.getLsbD 12 then (if a.extractLsb' 7 3 != 0#3 then none else spec7 (a.extractLsb' 0 7))
      else spec10 (a.extractLsb' 0 10)
    o.map fun o => (o, w)

/-- Codes of the literal. -/
def isLit (o : Opnd) : Bool :=
  match o with
  | .lit | .litLo | .litHi => true
  | _ => false

/-- RANGE on an index's register: an odd pair base, or a register beyond an allocation. -/
def indexRange (o : Opnd) (w alloc uniforms : Nat) : Bool :=
  let odd (n : Nat) : Bool := w == 64 && n % 2 != 0
  match o with
  | .v n => odd n.toNat || min alloc 255 < n.toNat + w / 32
  | .o n => odd n.toNat
  | .k n => uniforms ≤ n.toNat
  | _ => false

/-- The literal of a frame's instruction words, when they have one. -/
def frameLit (ws : List Byte) : Option Dword :=
  match lengthWords (word ws 0) with
  | 3 => if (word ws 0).getLsbD 1 then some (dword ws 4) else none
  | 5 => some (dword ws 12)
  | _ => none

/-- Where the frame holds a code's copy. -/
def frameAt (o : Opnd) : Option Nat :=
  match o with
  | .v n => if n.toNat < 8 then some (0x50 + 4 * n.toNat) else none
  | .y0 => some 0x70
  | .y1 => some 0x78
  | _ => none

/-- MOVIX of one member. Under `.ctx` it reads those bytes of the frame that its index names, and no others (log 61). -/
def movixGo (x : Desc) (a : Word) (ctx : Bool) (s : State) (th : Thread) : Res :=
  match indexOperand a with
  | none => .trap s .range 0 0
  | some (o, w) =>
    let out (s : State) (v : Dword) : Res :=
      .done (s.result th.id x.d 64 ((if w == 32 then v &&& 0xFFFFFFFF#64 else v).setWidth 128))
    if indexRange o w th.alloc (s.uniforms th) || (isLit o && !ctx) then .trap s .range 0 0
    else if isLit o then
      let (s1, r) := s.ownFrame th 0x28 20
      r.res s1 th (.movix x) fun ws =>
        match frameLit ws with
        | none => .trap s1 .range 0 0
        | some l => out s1 (s1.src th l o w)
    else match if ctx then frameAt o else none with
      | some off =>
        let (s1, r) := s.ownFrame th off (w / 8)
        r.res s1 th (.movix x) fun bs => out s1 (BitVec.ofNat 64 (ofBytes bs))
      | none => if th.stalled [.src o w] then .stall s else out s (s.src th 0 o w)

/-- MOVIX: 17 R367. `.ctx` reads the one field that it names; it neither consumes the frame nor checks its reserved bytes, which is
the model's choice (log 61). -/
def execMovix (x : Desc) (s : State) : Host.Outcome State Fault Refusal :=
  runTeam (.movix x) (fun s0 s1 th =>
    let ctx := x.w2.getLsbD 0
    if ctx && !th.tstate.getLsbD 0 then .trap s1 .range 0 0 else movixGo x (s0.a32 th x) ctx s1 th) s

/-- Writes bytes of the frame for an instruction: a write of a thread's stack fails only where the slice of its home is out of order
(17 R368, R384, 23 R433). -/
def State.putFrame (s : State) (th : Thread) (i : Instr) (o : Nat) (bs : List Byte) : Res :=
  match th.unit with
  | .service =>
    match s.agentWrite (.thread th.id) s.img.fwSpace th.sup 0 th.sup 3 (th.tframe + BitVec.ofNat 64 o) bs with
    | (s1, .ok _) => .done s1
    | (s1, .wait t _) => if t == 0 then .stall s1 else .stall (s1.parkAt th.id i t (th.tframe + BitVec.ofNat 64 o))
    | (s1, .fail f va) => .trap s1 f.cause va f.detail
  | _ =>
    let at_ := (s.tframe th - s.img.stkBase).toNat + o
    if s.stackDead th.id at_ bs.length then .trap s .machine (s.tframe th + BitVec.ofNat 64 o) 0 else .done (s.writeStack th at_ bs)

/-- SETIX of one member. `.ctx` checks nothing of the frame that it writes into (log 61), and lost data in its stack does not fail the write (log 62).
What it writes is what a later MOVIX.ctx of the same field reads (17 R367), the y0 of 19 R398's listing too (DEDUCED, log 80). -/
def setixGo (x : Desc) (a : Word) (b : Dword) (ctx : Bool) (s : State) (th : Thread) : Res :=
  match indexOperand a with
  | none => .trap s .range 0 0
  | some (o, w) =>
    let imm := match o with
      | .imm _ => true
      | .y0 | .y1 => !ctx
      | _ => false
    if indexRange o w th.alloc (s.uniforms th) || isLit o || imm || (ctx && !th.tstate.getLsbD 0) then .trap s .range 0 0
    else
      let v := if w == 32 then b &&& 0xFFFFFFFF#64 else b
      match if ctx then frameAt o else none with
      | some off =>
        if th.writing && th.unit == .service then .stall s
        else s.putFrame th (.setix x) off (toBytes (if off < 0x70 then w / 8 else 8) v.toNat)
      | none => if th.stalled [.dst o w] then .stall s else .done (s.deliver th.id o w (v.setWidth 128))

/-- SETIX: 17 R368. Like MOVIX, `.ctx` neither consumes the frame nor checks its reserved bytes (log 61). -/
def execSetix (x : Desc) (s : State) : Host.Outcome State Fault Refusal :=
  runTeam (.setix x) (fun s0 s1 th => setixGo x (s0.a32 th x) (s0.b64 th x) (x.w2.getLsbD 0) s1 th) s

/-! ### REGION (17 R379) -/

/-- REGION.open: an OPEN region is committed and a new one begins at this instruction. -/
def execRegionOpen (x : Desc) (s : State) : Host.Outcome State Fault Refusal :=
  runTeam (.regionOpen x) (fun _ s1 th =>
    let s2 := s1.closeRegion th.id
    .done (s2.modThread th.id fun y => { y with region := .opened th.pc s2.nextId })) s

/-- REGION.close: an OPEN region is committed; the state becomes NONE. -/
def execRegionClose (x : Desc) (s : State) : Host.Outcome State Fault Refusal :=
  runTeam (.regionClose x) (fun _ s1 th => .done ((s1.closeRegion th.id).modThread th.id fun y => { y with region := .none })) s

/-! ### YIELD (17 R378) -/

/-- YIELD: 17 R378. -/
def execYield (x : Desc) (s : State) : Host.Outcome State Fault Refusal :=
  runTeam (.yield x) (fun s0 s1 th =>
    let n := min (s0.a32 th x).toNat 65535
    if n == 0 then .done s1 else .stall (s1.holdAt th.id (.yield x) (.yield_ n))) s

/-- The thread's group is resident, or it has none. -/
def State.resident (s : State) (th : Thread) : Bool :=
  match th.unit with
  | .device => match s.group? th.group with
    | some g => g.res == .running
    | none => false
  | _ => true

/-- YIELD_EXPIRY: a YIELD's resident cycles have passed and the thread continues (17 R378). -/
def execYieldExpiry (s : State) : Host.Outcome State Fault Refusal :=
  match s.thread? s.arg.t with
  | none => .next s
  | some th =>
    match th.hold with
    | .yield_ left =>
      .next (if s.resident th && th.holdAt + left ≤ s.cycle then s.modThread th.id fun y => y.release else s)
    | _ => .next s

/-! ### Halted threads -/

/-- HALT_RECORD_TIMEOUT: 65,536 cycles after a halt the thread's record is written (17 R370). -/
def execHaltRecordTimeout (s : State) : Host.Outcome State Fault Refusal :=
  match s.thread? s.arg.t with
  | none => .next s
  | some th =>
    .next (if th.unit == .device && th.halted.isSome && !th.recorded && th.haltAt + 65536 ≤ s.cycle then s.haltRecord th false else s)

end Sys2Proof.Machine
end

