-- ==== Sys2Proof/Machine/Dispatch.lean ====
section
/-! DEFINITION. What each instruction does: one arm for each constructor of Instr, each a direct call of its meaning. -/

namespace Sys2Proof.Machine

def exec (i : Instr) (s : State) : Host.Outcome State Fault Refusal :=
  match i with
  | .mov x => Sys2Proof.Machine.execMov x s
  | .mov96 x => Sys2Proof.Machine.execMov96 x s
  | .sel x => Sys2Proof.Machine.execSel x s
  | .add x => Sys2Proof.Machine.execAdd x s
  | .add96 x => Sys2Proof.Machine.execAdd96 x s
  | .sub x => Sys2Proof.Machine.execSub x s
  | .sub96 x => Sys2Proof.Machine.execSub96 x s
  | .neg x => Sys2Proof.Machine.execNeg x s
  | .neg96 x => Sys2Proof.Machine.execNeg96 x s
  | .abs x => Sys2Proof.Machine.execAbs x s
  | .abs96 x => Sys2Proof.Machine.execAbs96 x s
  | .min x => Sys2Proof.Machine.execMin x s
  | .min96 x => Sys2Proof.Machine.execMin96 x s
  | .max x => Sys2Proof.Machine.execMax x s
  | .max96 x => Sys2Proof.Machine.execMax96 x s
  | .mul x => Sys2Proof.Machine.execMul x s
  | .mul96 x => Sys2Proof.Machine.execMul96 x s
  | .mulhi x => Sys2Proof.Machine.execMulhi x s
  | .mulhi96 x => Sys2Proof.Machine.execMulhi96 x s
  | .mad x => Sys2Proof.Machine.execMad x s
  | .mad96 x => Sys2Proof.Machine.execMad96 x s
  | .madw x => Sys2Proof.Machine.execMadw x s
  | .div x => Sys2Proof.Machine.execDiv x s
  | .div96 x => Sys2Proof.Machine.execDiv96 x s
  | .rem x => Sys2Proof.Machine.execRem x s
  | .rem96 x => Sys2Proof.Machine.execRem96 x s
  | .sad x => Sys2Proof.Machine.execSad x s
  | .and x => Sys2Proof.Machine.execAnd x s
  | .and96 x => Sys2Proof.Machine.execAnd96 x s
  | .or x => Sys2Proof.Machine.execOr x s
  | .or96 x => Sys2Proof.Machine.execOr96 x s
  | .xor x => Sys2Proof.Machine.execXor x s
  | .xor96 x => Sys2Proof.Machine.execXor96 x s
  | .not x => Sys2Proof.Machine.execNot x s
  | .not96 x => Sys2Proof.Machine.execNot96 x s
  | .andn x => Sys2Proof.Machine.execAndn x s
  | .andn96 x => Sys2Proof.Machine.execAndn96 x s
  | .lop x => Sys2Proof.Machine.execLop x s
  | .shl x => Sys2Proof.Machine.execShl x s
  | .shl96 x => Sys2Proof.Machine.execShl96 x s
  | .shr x => Sys2Proof.Machine.execShr x s
  | .shr96 x => Sys2Proof.Machine.execShr96 x s
  | .sar x => Sys2Proof.Machine.execSar x s
  | .sar96 x => Sys2Proof.Machine.execSar96 x s
  | .rol x => Sys2Proof.Machine.execRol x s
  | .rol96 x => Sys2Proof.Machine.execRol96 x s
  | .ror x => Sys2Proof.Machine.execRor x s
  | .ror96 x => Sys2Proof.Machine.execRor96 x s
  | .bfx x => Sys2Proof.Machine.execBfx x s
  | .bfins x => Sys2Proof.Machine.execBfins x s
  | .popc x => Sys2Proof.Machine.execPopc x s
  | .popc96 x => Sys2Proof.Machine.execPopc96 x s
  | .clz x => Sys2Proof.Machine.execClz x s
  | .clz96 x => Sys2Proof.Machine.execClz96 x s
  | .ctz x => Sys2Proof.Machine.execCtz x s
  | .ctz96 x => Sys2Proof.Machine.execCtz96 x s
  | .brev x => Sys2Proof.Machine.execBrev x s
  | .brev96 x => Sys2Proof.Machine.execBrev96 x s
  | .revb x => Sys2Proof.Machine.execRevb x s
  | .revb96 x => Sys2Proof.Machine.execRevb96 x s
  | .cmp x => Sys2Proof.Machine.execCmp x s
  | .plop x => Sys2Proof.Machine.execPlop x s
  | .pmov x => Sys2Proof.Machine.execPmov x s
  | .lea x => Sys2Proof.Machine.execLea x s
  | .icvt x => Sys2Proof.Machine.execIcvt x s
  | .clamp x => Sys2Proof.Machine.execClamp x s
  | .fadd x => Sys2Proof.Machine.execFadd x s
  | .fadd96 x => Sys2Proof.Machine.execFadd96 x s
  | .fsub x => Sys2Proof.Machine.execFsub x s
  | .fsub96 x => Sys2Proof.Machine.execFsub96 x s
  | .fmul x => Sys2Proof.Machine.execFmul x s
  | .fmul96 x => Sys2Proof.Machine.execFmul96 x s
  | .ffma x => Sys2Proof.Machine.execFfma x s
  | .ffma96 x => Sys2Proof.Machine.execFfma96 x s
  | .fmin x => Sys2Proof.Machine.execFmin x s
  | .fmin96 x => Sys2Proof.Machine.execFmin96 x s
  | .fmax x => Sys2Proof.Machine.execFmax x s
  | .fmax96 x => Sys2Proof.Machine.execFmax96 x s
  | .fabs x => Sys2Proof.Machine.execFabs x s
  | .fabs96 x => Sys2Proof.Machine.execFabs96 x s
  | .fneg x => Sys2Proof.Machine.execFneg x s
  | .fneg96 x => Sys2Proof.Machine.execFneg96 x s
  | .fcmp x => Sys2Proof.Machine.execFcmp x s
  | .fclass x => Sys2Proof.Machine.execFclass x s
  | .fdiv x => Sys2Proof.Machine.execFdiv x s
  | .fsqrt x => Sys2Proof.Machine.execFsqrt x s
  | .cvt x => Sys2Proof.Machine.execCvt x s
  | .cvtfi x => Sys2Proof.Machine.execCvtfi x s
  | .cvtif x => Sys2Proof.Machine.execCvtif x s
  | .frnd x => Sys2Proof.Machine.execFrnd x s
  | .fscale x => Sys2Proof.Machine.execFscale x s
  | .bra x => Sys2Proof.Machine.execBra x s
  | .bra96 x => Sys2Proof.Machine.execBra96 x s
  | .call x => Sys2Proof.Machine.execCall x s
  | .call96 x => Sys2Proof.Machine.execCall96 x s
  | .jmp x => Sys2Proof.Machine.execJmp x s
  | .jmp96 x => Sys2Proof.Machine.execJmp96 x s
  | .calli x => Sys2Proof.Machine.execCalli x s
  | .calli96 x => Sys2Proof.Machine.execCalli96 x s
  | .ret x => Sys2Proof.Machine.execRet x s
  | .ret96 x => Sys2Proof.Machine.execRet96 x s
  | .exit x => Sys2Proof.Machine.execExit x s
  | .exit96 x => Sys2Proof.Machine.execExit96 x s
  | .brk x => Sys2Proof.Machine.execBrk x s
  | .svc x => Sys2Proof.Machine.execSvc x s
  | .svc96 x => Sys2Proof.Machine.execSvc96 x s
  | .wait x => Sys2Proof.Machine.execWait x s
  | .nop x => Sys2Proof.Machine.execNop x s
  | .nop96 x => Sys2Proof.Machine.execNop96 x s
  | .ld x => Sys2Proof.Machine.execLd x s
  | .ld96 x => Sys2Proof.Machine.execLd96 x s
  | .st x => Sys2Proof.Machine.execSt x s
  | .st96 x => Sys2Proof.Machine.execSt96 x s
  | .movs x => Sys2Proof.Machine.execMovs x s
  | .sets x => Sys2Proof.Machine.execSets x s
  | .sxTimeWrite x => Sys2Proof.Machine.execSxTimeWrite x s
  | .pair x => Sys2Proof.Machine.execPair x s
  | .join x => Sys2Proof.Machine.execJoin x s
  | .lead x => Sys2Proof.Machine.execLead x s
  | .spawn x => Sys2Proof.Machine.execSpawn x s
  | .bar x => Sys2Proof.Machine.execBar x s
  | .xch x => Sys2Proof.Machine.execXch x s
  | .xlred x => Sys2Proof.Machine.execXlred x s
  | .xlscan x => Sys2Proof.Machine.execXlscan x s
  | .ballot x => Sys2Proof.Machine.execBallot x s
  | .quorum x => Sys2Proof.Machine.execQuorum x s
  | .peer x => Sys2Proof.Machine.execPeer x s
  | .hadd x => Sys2Proof.Machine.execHadd x s
  | .hadd96 x => Sys2Proof.Machine.execHadd96 x s
  | .hmul x => Sys2Proof.Machine.execHmul x s
  | .hmul96 x => Sys2Proof.Machine.execHmul96 x s
  | .hfma x => Sys2Proof.Machine.execHfma x s
  | .hfma96 x => Sys2Proof.Machine.execHfma96 x s
  | .hmin x => Sys2Proof.Machine.execHmin x s
  | .hmax x => Sys2Proof.Machine.execHmax x s
  | .dot x => Sys2Proof.Machine.execDot x s
  | .rcp x => Sys2Proof.Machine.execRcp x s
  | .rcp96 x => Sys2Proof.Machine.execRcp96 x s
  | .rsq x => Sys2Proof.Machine.execRsq x s
  | .rsq96 x => Sys2Proof.Machine.execRsq96 x s
  | .ex2 x => Sys2Proof.Machine.execEx2 x s
  | .ex296 x => Sys2Proof.Machine.execEx296 x s
  | .lg2 x => Sys2Proof.Machine.execLg2 x s
  | .lg296 x => Sys2Proof.Machine.execLg296 x s
  | .sin x => Sys2Proof.Machine.execSin x s
  | .sin96 x => Sys2Proof.Machine.execSin96 x s
  | .cos x => Sys2Proof.Machine.execCos x s
  | .cos96 x => Sys2Proof.Machine.execCos96 x s
  | .tanh x => Sys2Proof.Machine.execTanh x s
  | .tanh96 x => Sys2Proof.Machine.execTanh96 x s
  | .pack x => Sys2Proof.Machine.execPack x s
  | .unpk x => Sys2Proof.Machine.execUnpk x s
  | .qblk x => Sys2Proof.Machine.execQblk x s
  | .edge x => Sys2Proof.Machine.execEdge x s
  | .ldmx x => Sys2Proof.Machine.execLdmx x s
  | .atom x => Sys2Proof.Machine.execAtom x s
  | .red x => Sys2Proof.Machine.execRed x s
  | .fence x => Sys2Proof.Machine.execFence x s
  | .ifence x => Sys2Proof.Machine.execIfence x s
  | .cwb x => Sys2Proof.Machine.execCwb x s
  | .cinval x => Sys2Proof.Machine.execCinval x s
  | .pref x => Sys2Proof.Machine.execPref x s
  | .cpy x => Sys2Proof.Machine.execCpy x s
  | .cpyt x => Sys2Proof.Machine.execCpyt x s
  | .slotarm x => Sys2Proof.Machine.execSlotarm x s
  | .sarrive x => Sys2Proof.Machine.execSarrive x s
  | .sacq x => Sys2Proof.Machine.execSacq x s
  | .swait x => Sys2Proof.Machine.execSwait x s
  | .sfirst x => Sys2Proof.Machine.execSfirst x s
  | .sreset x => Sys2Proof.Machine.execSreset x s
  | .ondone x => Sys2Proof.Machine.execOndone x s
  | .give x => Sys2Proof.Machine.execGive x s
  | .take x => Sys2Proof.Machine.execTake x s
  | .qinit x => Sys2Proof.Machine.execQinit x s
  | .qpush x => Sys2Proof.Machine.execQpush x s
  | .qpop x => Sys2Proof.Machine.execQpop x s
  | .qtryPush x => Sys2Proof.Machine.execQtryPush x s
  | .qtryPop x => Sys2Proof.Machine.execQtryPop x s
  | .hitch x => Sys2Proof.Machine.execHitch x s
  | .unhitch x => Sys2Proof.Machine.execUnhitch x s
  | .bload x => Sys2Proof.Machine.execBload x s
  | .bswap x => Sys2Proof.Machine.execBswap x s
  | .mma x => Sys2Proof.Machine.execMma x s
  | .accz x => Sys2Proof.Machine.execAccz x s
  | .accld x => Sys2Proof.Machine.execAccld x s
  | .accst x => Sys2Proof.Machine.execAccst x s
  | .trace x => Sys2Proof.Machine.execTrace x s
  | .pairs x => Sys2Proof.Machine.execPairs x s
  | .isload x => Sys2Proof.Machine.execIsload x s
  | .isray x => Sys2Proof.Machine.execIsray x s
  | .iscand x => Sys2Proof.Machine.execIscand x s
  | .isacc x => Sys2Proof.Machine.execIsacc x s
  | .isrej x => Sys2Proof.Machine.execIsrej x s
  | .isend x => Sys2Proof.Machine.execIsend x s
  | .sgfork x => Sys2Proof.Machine.execSgfork x s
  | .sgpost x => Sys2Proof.Machine.execSgpost x s
  | .sgcancel x => Sys2Proof.Machine.execSgcancel x s
  | .sgcancelAll x => Sys2Proof.Machine.execSgcancelAll x s
  | .sgstat x => Sys2Proof.Machine.execSgstat x s
  | .rte x => Sys2Proof.Machine.execRte x s
  | .movix x => Sys2Proof.Machine.execMovix x s
  | .setix x => Sys2Proof.Machine.execSetix x s
  | .regionOpen x => Sys2Proof.Machine.execRegionOpen x s
  | .regionClose x => Sys2Proof.Machine.execRegionClose x s
  | .yield x => Sys2Proof.Machine.execYield x s
  | .qwait x => Sys2Proof.Machine.execQwait x s
  | .launchStart x => Sys2Proof.Machine.execLaunchStart x s
  | .launchReply x => Sys2Proof.Machine.execLaunchReply x s
  | .launchPreempt x => Sys2Proof.Machine.execLaunchPreempt x s
  | .launchResume x => Sys2Proof.Machine.execLaunchResume x s
  | .launchEnd x => Sys2Proof.Machine.execLaunchEnd x s
  | .launchBind x => Sys2Proof.Machine.execLaunchBind x s
  | .illegalOpcode ws => Sys2Proof.Machine.execIllegalOpcode ws s
  | .threadEnd => Sys2Proof.Machine.execThreadEnd s
  | .loadComplete => Sys2Proof.Machine.execLoadComplete s
  | .storeComplete => Sys2Proof.Machine.execStoreComplete s
  | .releaseWritePerform => Sys2Proof.Machine.execReleaseWritePerform s
  | .writePerform => Sys2Proof.Machine.execWritePerform s
  | .keyReadyTimeout => Sys2Proof.Machine.execKeyReadyTimeout s
  | .keyAgeExpiry => Sys2Proof.Machine.execKeyAgeExpiry s
  | .spawnPoolRoom => Sys2Proof.Machine.execSpawnPoolRoom s
  | .poolInsertDeferred => Sys2Proof.Machine.execPoolInsertDeferred s
  | .binTimerExpiry => Sys2Proof.Machine.execBinTimerExpiry s
  | .spawnedGroupStart => Sys2Proof.Machine.execSpawnedGroupStart s
  | .flagwordOr => Sys2Proof.Machine.execFlagwordOr s
  | .copyProgress => Sys2Proof.Machine.execCopyProgress s
  | .copyRetire => Sys2Proof.Machine.execCopyRetire s
  | .copyFault => Sys2Proof.Machine.execCopyFault s
  | .sresetDone => Sys2Proof.Machine.execSresetDone s
  | .takeDone => Sys2Proof.Machine.execTakeDone s
  | .queueWaitServed => Sys2Proof.Machine.execQueueWaitServed s
  | .unhitchComplete => Sys2Proof.Machine.execUnhitchComplete s
  | .bloadRetire => Sys2Proof.Machine.execBloadRetire s
  | .bloadFault => Sys2Proof.Machine.execBloadFault s
  | .gridOpRetire => Sys2Proof.Machine.execGridOpRetire s
  | .gridOpFault => Sys2Proof.Machine.execGridOpFault s
  | .accCmdRetire => Sys2Proof.Machine.execAccCmdRetire s
  | .harnessDrain => Sys2Proof.Machine.execHarnessDrain s
  | .harnessRestore => Sys2Proof.Machine.execHarnessRestore s
  | .traversalRoom => Sys2Proof.Machine.execTraversalRoom s
  | .intersectionProgramStart => Sys2Proof.Machine.execIntersectionProgramStart s
  | .programBudgetExpiry => Sys2Proof.Machine.execProgramBudgetExpiry s
  | .rayWalkEnd => Sys2Proof.Machine.execRayWalkEnd s
  | .pairEmit => Sys2Proof.Machine.execPairEmit s
  | .pairWalkEnd => Sys2Proof.Machine.execPairWalkEnd s
  | .isloadApply => Sys2Proof.Machine.execIsloadApply s
  | .sgOpen => Sys2Proof.Machine.execSgOpen s
  | .sgEvent => Sys2Proof.Machine.execSgEvent s
  | .sgTimerExpiry => Sys2Proof.Machine.execSgTimerExpiry s
  | .sgCloseDone => Sys2Proof.Machine.execSgCloseDone s
  | .sgElapsedWrite => Sys2Proof.Machine.execSgElapsedWrite s
  | .gangPlace => Sys2Proof.Machine.execGangPlace s
  | .gangWaitExpiry => Sys2Proof.Machine.execGangWaitExpiry s
  | .groupFree => Sys2Proof.Machine.execGroupFree s
  | .launchComplete => Sys2Proof.Machine.execLaunchComplete s
  | .groupEvict => Sys2Proof.Machine.execGroupEvict s
  | .groupReplace => Sys2Proof.Machine.execGroupReplace s
  | .deferredFault => Sys2Proof.Machine.execDeferredFault s
  | .takePendingTrap => Sys2Proof.Machine.execTakePendingTrap s
  | .haltRecordTimeout => Sys2Proof.Machine.execHaltRecordTimeout s
  | .yieldExpiry => Sys2Proof.Machine.execYieldExpiry s
  | .preemptHalt => Sys2Proof.Machine.execPreemptHalt s
  | .groupRestore => Sys2Proof.Machine.execGroupRestore s
  | .correctedError => Sys2Proof.Machine.execCorrectedError s
  | .spareMove => Sys2Proof.Machine.execSpareMove s
  | .lastingContainment => Sys2Proof.Machine.execLastingContainment s
  | .uncorrectableError => Sys2Proof.Machine.execUncorrectableError s
  | .pageRequestRoom => Sys2Proof.Machine.execPageRequestRoom s
  | .pageReply => Sys2Proof.Machine.execPageReply s
  | .shootdown => Sys2Proof.Machine.execShootdown s
  | .shootdownAck => Sys2Proof.Machine.execShootdownAck s
  | .pageHomeMove => Sys2Proof.Machine.execPageHomeMove s
  | .hostWrite => Sys2Proof.Machine.execHostWrite s
  | .hostRead => Sys2Proof.Machine.execHostRead s
  | .hostSnoop => Sys2Proof.Machine.execHostSnoop s
  | .pcieInbound => Sys2Proof.Machine.execPcieInbound s
  | .fabricRequest => Sys2Proof.Machine.execFabricRequest s
  | .fabricResponse => Sys2Proof.Machine.execFabricResponse s
  | .sendWindowRoom => Sys2Proof.Machine.execSendWindowRoom s
  | .fabricTimeout => Sys2Proof.Machine.execFabricTimeout s
  | .fabricPathLoss => Sys2Proof.Machine.execFabricPathLoss s
  | .arrivalWindowWrite => Sys2Proof.Machine.execArrivalWindowWrite s
  | .notifyWrite => Sys2Proof.Machine.execNotifyWrite s
  | .launchIdFree => Sys2Proof.Machine.execLaunchIdFree s
  | .launchEndDone => Sys2Proof.Machine.execLaunchEndDone s
  | .doneRingRecheck => Sys2Proof.Machine.execDoneRingRecheck s
  | .moduleReset => Sys2Proof.Machine.execModuleReset s
  | .attestationRequest => Sys2Proof.Machine.execAttestationRequest s
  | .powerStateRequest => Sys2Proof.Machine.execPowerStateRequest s
  | .powerLoss => Sys2Proof.Machine.execPowerLoss s
  | .fetchFault => Sys2Proof.Machine.execFetchFault s
  | .lostHostLink => Sys2Proof.Machine.execLostHostLink s
  | .gridPassEnd => Sys2Proof.Machine.execGridPassEnd s

end Sys2Proof.Machine
end

