-- ==== Sys2Proof/Machine/Sched.lean ====
section
/-! DEFINITION. Which team a quadrant may issue (05 R144 to R147), what an entry of the agenda does (log 2), what follows from the
passing of cycles and from each step, and what the module does on its own when the agenda is empty. -/

namespace Sys2Proof.Machine

/-- The instruction that threads execute for what they have fetched. -/
def Fetched.instr : Fetched → Option Instr
  | .ok i => some i
  | .illegal ws => some (.illegalOpcode ws)
  | .fault .. => some .fetchFault
  | .park _ | .later => none

/-- The parts of a team that issues, each with its instruction: one part unless two modes have fetched differently. -/
def teamParts (ids : List Nat) (fs : List (List Thread × Fetched)) : List (List Nat × Instr) :=
  let parts := fs.filterMap fun f => f.2.instr.map fun i => (ids.filter fun t => f.1.any fun x => x.id == t, i)
  match parts with
  | [(a, i), (b, j)] => if a.isEmpty then [(ids, j)] else if b.isEmpty || i == j then [(ids, i)] else parts
  | _ => parts

/-- The parts of a team execute. -/
def State.runParts (s : State) : List (List Nat × Instr) → Host.Outcome State Fault Refusal
  | [] => .next s
  | (ids, i) :: rest =>
    match exec i { s with team := ids } with
    | .next s1 => s1.runParts rest
    | r => r

/-- Threads whose fetch waits for a page are parked (18 R391). -/
def State.parkFetch (s : State) (fs : List (List Thread × Fetched)) : State :=
  fs.foldl (fun s f => match f.2 with
    | .park tag => s.mapThreads fun x => if f.1.any fun y => y.id == x.id then { x with fetchTag := some tag, holdAt := s.cycle } else x
    | _ => s) s

/-- Its quadrant has issued no team in this cycle, nor has a later quadrant of the core: the order of one cycle's issues is that of
the quadrants (05 R145, 11 R265). -/
def State.quadFree (s : State) (th : Thread) : Bool :=
  th.unit != .device || s.issued.all fun e => e.1 != s.coreOf th || e.2 < th.lane / 32

/-- The key of a thread issues: its age and the readiness of its threads start anew, and its quadrant has issued in this cycle. -/
def State.tookKey (s : State) (th : Thread) : State :=
  if th.unit != .device then s
  else { s with
    keys := s.keys.filter fun k => !(k.1 == th.group && k.2.1 == th.pc && k.2.2.1 == th.lane / 32)
    issued := s.issued ++ [s.quadOf th]
    threads := s.threads.map fun x => if x.unit == .device && x.key == th.key then { x with ready := none } else x }

/-- Issues a team: the ready threads of a selectable key's candidate team, all of them. Anything else changes nothing, but for a
fetch that waits for a page or for an answer from outside. -/
def State.issueTeam (s : State) (ids : List Nat) (arg : StepArgs) : Host.Outcome State Fault Refusal :=
  match (ids.head?).bind s.thread? with
  | none => .next s
  | some th =>
    let cand := s.candidates th
    let (s1, fs) := State.fetchTeam { s with arg := arg } cand
    let rdy := (s.readyOf cand fs).map (·.id)
    let waits := fs.any fun f => f.2 == .later
    if fs.any fun f => f.2.instr.isNone && f.2 != .later then .next (s1.parkFetch fs)
    else if rdy == ids && (rdy.length == cand.length || (s.keySince th.key).isSome) && s.mayGo th ((s.keySince th.key).getD s.cycle)
        && s.quadFree th then
      match (s1.tookKey th).runParts (teamParts ids fs) with
      | .next s2 => .next (fs.foldl (fun s f => match f.1 with
          | x :: _ => if f.2 == .later then s else s.farDrop (.fetch x.id)
          | [] => s) s2)
      | r => r
    else .next (if waits then s1 else s)

/-- What an entry of the agenda does. -/
def State.act (s : State) (a : Act) : Host.Outcome State Fault Refusal :=
  match a with
  | .issue ids arg => s.issueTeam ids arg
  | .event i arg => if i.isStep then exec i { s with arg := arg } else .next s
  | .firmware q => .next (s.serveFirmware q)

/-! ### The module on its own -/

/-- The completions of a thread's accesses, and its own waits. -/
def Thread.dueActs (th : Thread) : List Act :=
  (th.ops.flatMap fun a =>
    [.event .deferredFault { a := a.id }, .event .loadComplete { a := a.id }, .event .writePerform { a := a.id }
    , .event .releaseWritePerform { a := a.id }, .event .storeComplete { a := a.id }, .event .sgEvent { a := a.id }
    , .event .fabricTimeout { a := a.id }])
  ++ [.event .threadEnd { t := th.id }, .event .takePendingTrap { t := th.id }, .event .yieldExpiry { t := th.id }
  , .event .haltRecordTimeout { t := th.id }, .event .keyReadyTimeout { t := th.id }, .event .keyAgeExpiry { t := th.id }
  , .event .spawnPoolRoom { t := th.id }, .event .sresetDone { t := th.id }, .event .takeDone { t := th.id }
  , .event .traversalRoom { t := th.id }, .event .programBudgetExpiry { t := th.id }, .event .isloadApply { t := th.id }
  , .event .sgOpen { t := th.id }]

/-- The steps of a group's harness, queues and commands, and its end. -/
def Group.dueActs (g : Group) : List Act :=
  (g.cmds.flatMap fun c =>
    [.event .copyProgress { a := c.id }, .event .copyRetire { a := c.id }, .event .copyFault { a := c.id }
    , .event .bloadRetire { a := c.id }, .event .bloadFault { a := c.id }, .event .accCmdRetire { a := c.id }
    , .event .fabricTimeout { a := c.id }])
  ++ ((List.range g.queues.length).map fun n => .event .queueWaitServed { g := g.id, n := n })
  ++ [.event .unhitchComplete { g := g.id }, .event .harnessDrain { g := g.id }, .event .harnessRestore { g := g.id }
  , .event .groupReplace { g := g.id }, .event .groupFree { g := g.id }]

/-- The steps of a launch: its flag word, bins, insertions, pre-emption and end. -/
def Launch.dueActs (l : Launch) : List Act :=
  [.event .flagwordOr { l := l.id }, .event .poolInsertDeferred { l := l.id }]
  ++ (l.bins.map fun b => .event .binTimerExpiry { l := l.id, a := b.opened })
  ++ [.event .preemptHalt { l := l.id }, .event .launchComplete { l := l.id }, .event .launchEndDone { l := l.id }
  , .event .launchIdFree { l := l.id }]

/-- The issue of the candidate team that `th` leads. -/
def State.dueIssue (s : State) (th : Thread) : List Act :=
  let cand := s.candidates th
  if (cand.head?.map (·.id)) == some th.id then
    match s.readyOf cand (s.fetchTeam cand).2 with
    | [] => [.issue [th.id] {}]
    | rdy => [.issue (rdy.map (·.id)) {}]
  else []

/-- Steps that may be due, and issues of every key. -/
def State.dueActs (s : State) : List Act :=
  s.threads.flatMap Thread.dueActs ++ s.groups.flatMap Group.dueActs ++ s.launches.flatMap Launch.dueActs
  ++ (s.grids.flatMap fun o =>
    [.event .gridOpFault { a := o.id }, .event .gridPassEnd { a := o.id, n := 1 }, .event .gridOpRetire { a := o.id }])
  ++ (s.rays.flatMap fun r =>
    [.event .intersectionProgramStart { a := r.id, n := r.seen.length + 1 }, .event .rayWalkEnd { a := r.id, n := r.seen.length + 1 }])
  ++ (s.walks.flatMap fun w =>
    [.event .pairEmit { a := w.id, n := w.seen.length + 1 }, .event .pairWalkEnd { a := w.id, n := w.seen.length + 1 }])
  ++ (s.timers.flatMap fun e =>
    [.event .sgTimerExpiry { a := e.id }, .event .sgCloseDone { a := e.id }]
      ++ if s.sgBehind e then [.event .sgElapsedWrite { a := e.id }] else [])
  ++ (s.far.map fun x => .event .fabricTimeout { a := x.id }) ++ (s.preqs.map fun r => .event .fabricTimeout { a := r.tag }) ++ (s.moves.map fun m => .event .pageHomeMove { q := m.queue })
  ++ (s.gangs.flatMap fun g => [.event .gangWaitExpiry { a := g.id }, .event .spawnedGroupStart { a := g.id }])
  ++ [.event .gangPlace {}, .event .groupRestore {}, .event .sendWindowRoom {}]
  ++ ([0, 1].flatMap fun n => [.event .pageRequestRoom { n := n }, .event .shootdownAck { n := n }])
  ++ s.threads.flatMap s.dueIssue

/-- The first due step that changes the state; a cycle passes when there is none. -/
def State.idle (s : State) : List Act → Host.Outcome State Fault Refusal
  | [] => .next s
  | a :: rest =>
    match s.act a with
    | .next s1 => if { s1 with arg := s.arg, team := s.team } == s then s.idle rest else .next s1
    | r => r

/-- What the passing of cycles does by itself: bins and sample groups whose cycle of expiry is past launch and close (05 R151,
15 R352); ELAPSED of a sample group is written every 65,536 cycles of its count. -/
def State.elapse (s : State) : State :=
  let s1 := s.launches.foldl (fun s l => s.expireBins l.id) s
  let s2 := (s1.timers.filter s1.sgBehind).foldl State.sgElapse s1
  (s2.timers.filter s2.sgOver).foldl State.sgExpire s2

/-- Cycles pass. -/
def State.pass (s : State) (dt : Nat) : State :=
  if dt == 0 then s else (State.elapse { s with cycle := s.cycle + dt, issued := [] }).refresh

/-- What follows from a step at once: accesses whose page has come go on (18 R393), home slices walk again for the descriptors of open
groups (R394), QWAITs that an event ends (21 R423), threads that park
(18 R391), reservations (21 R428) and the key table (05 R145). -/
def State.follow (s : State) : State := ((((s.retryPages.sgRewalks).wakeQwait).parkDue).reserveAll).refresh

/-- A step with what follows from it. -/
def followed (r : Host.Outcome State Fault Refusal) : Host.Outcome State Fault Refusal :=
  match r with
  | .next s => .next s.follow
  | r => r

/-- One step of a running module: the agenda's next entry, otherwise what is due. -/
def State.run1 (s : State) : Host.Outcome State Fault Refusal :=
  match s.agenda with
  | (dt, a) :: rest => followed ((State.pass { s with agenda := rest } dt).act a)
  | [] => let s1 := s.pass 1; followed (s1.idle s1.dueActs)

/-- The head of the agenda asks for a power state, or resets the module. -/
def Act.isPower : Act → Bool
  | .event .powerStateRequest _ => true
  | _ => false

/-- One step of the module: without power nothing runs but a request for power (23 R438), and after a reset the boot ROM runs
first (23 R435). -/
def State.step1 (s : State) : Host.Outcome State Fault Refusal :=
  if s.power == .off && !(s.agenda.head?.map fun x => x.2.isPower).getD false then .fault .poweredOff
  else if s.power != .off && !s.booted then exec .moduleReset s
  else s.run1

/-! ### Placing one instruction (log 12) -/

/-- Page tables that map the first GiB to itself, with every permission, A and D set: the root at 0x1000, one table at 0x2000. -/
def placedTables (m : Memory) : Memory := (m.store 0x1000 (toBytes 8 0x2001)).store 0x2000 (toBytes 8 0x7F)

def placedHeader : Header :=
  { threads := [1, 0, 0, 0], regs := [32, 0, 0, 0], uniforms := 256, scratch := 16384, slots := 64, accwin := 8, awin := 8 }

def placedLaunch : Launch :=
  { id := 1, queue := 0, lr := { entry := 0xFFC0, stack := 4096 }, hdr := placedHeader, space := { asid := 1, root := 0x1000 } }

def placedGroup : Group :=
  { id := 2, launch := 1, gang := 3, hdr := placedHeader, entry := 0xFFC0, slots := List.replicate 64 {}, queues := List.replicate 8 {} }

def placedThread (code : Nat) : Thread := { id := 4, unit := .device, group := 2, pc := 0x10000, alloc := 256, fresh := code }

/-- A booted module with one thread of one group, whose next issue fetches `ws` at its PC. -/
def State.placeWords (s : State) (ws : List Word) : State :=
  { s with
    power := .run, booted := true, nextId := 5
    img := { s.img with spBase := 0x7E0000000000, stkBase := 0x7F0000000000 }
    mem := (placedTables s.mem).store 0x10000 (ws.flatMap fun w => toBytes 4 w.toNat)
    poison := [], deadSlices := [], tlb := [], walkc := [], keys := [], issued := [], far := [], rels := []
    launches := [placedLaunch], groups := [placedGroup], threads := [placedThread s.code.length]
    agenda := (0, .issue [4] {}) :: s.agenda }

end Sys2Proof.Machine
end

