-- ==== Sys2Proof/Machine/Step.lean ====
section
/-! DEFINITION. One step of the module, and the state in which the next step runs a given instruction. -/

namespace Sys2Proof.Machine

/-- One step: the next entry of the agenda, or what is due (log 2). -/
def step (s : State) : Host.Outcome State Fault Refusal := s.step1

/-- s with the instruction whose bits are w where the next step fetches it (log 12). -/
def State.withFetchWord (s : State) (nbits w : Nat) : State := s.placeWords (wordsOfNat 5 (w % 2 ^ nbits))

end Sys2Proof.Machine
end

