-- ==== Sys2Proof/Safety.lean ====
section
/-! DEFINITION. What claims are stated in: when a thread executes an instruction with its own effect (01 R27, 02 R59, 04 R126), what
an issue of a team leaves, when memory is in its canonical form, and when a step's machine is safe. -/

namespace Sys2Proof.Machine

/-- A thread may execute an instruction with the instruction's own effect: it is in the state, may issue, has no trap pending or
raised by decoding, its guard is true, its registers and flags are ready, and no OPEN region is committed first. -/
structure Runs (i : Instr) (s : State) (th : Thread) : Prop where
  here : s.thread? th.id = some th
  issues : s.canIssue th = true
  calm : th.pend = []
  decodes : s.decodeTrap th i = none
  guard : th.guard i.guard = true
  ready : stallsAt th i = false
  noRegion : ∀ a n, th.region = .opened a n → keepsRegion i = true

/-- Every member of the team that issues runs the instruction. -/
def TeamRuns (i : Instr) (s : State) : Prop := s.team.Nodup ∧ ∀ t ∈ s.team, ∃ th, th.id = t ∧ Runs i s th

/-- One thread issues alone and runs the instruction. -/
def Alone (i : Instr) (s : State) (th : Thread) : Prop := s.team = [th.id] ∧ Runs i s th

/-- A member has executed an instruction of i's length that left the state s. -/
def State.past (s : State) (i : Instr) (th : Thread) : State := (s.advance th.id i.len).executed th

/-- What an issue leaves whose effect for a member is a result: the members in order, every source read from the state before
the issue (01 R17, 06 R161). -/
def State.teamPut (s : State) (i : Instr) (f : Thread → Out) : State :=
  s.team.foldl (fun acc t => match s.thread? t with
    | some th => (acc.put t (f th)).past i th
    | none => acc) s

/-! ### Results of one instruction -/

/-- A result of the instruction's own width. -/
def ofType (y : Arith) (val : Nat) : Out := { d := y.d, w := y.ty.regWidth, val := val }

/-- The integer operands of a thread, by the signedness of the type (04 R98). -/
def State.intA (s : State) (th : Thread) (y : Arith) : Int := decodeI y.ty (s.argA th y)
def State.intB (s : State) (th : Thread) (y : Arith) : Int := decodeI y.ty (s.argB th y)
def State.intC (s : State) (th : Thread) (y : Arith) : Int := decodeI y.ty (s.argC th y)

/-- The 32-bit amount of a shift, a rotation or a field (04 R104, R105). -/
def State.amount (s : State) (th : Thread) (y : Arith) : Nat := (s.raw32 th y.toOps4 y.b).toNat

/-- Every member of a running team receives f, and the issue goes on to the next instruction. -/
def Gives (i : Instr) (f : State → Thread → Out) : Prop := ∀ s, TeamRuns i s → exec i s = .next (s.teamPut i (f s))

/-- The exact integer of the operands, clamped under saturation or wrapped to the type (04 R98). -/
def GivesInt (i : Instr) (y : Arith) (f : Int → Int → Int → Int) : Prop :=
  Gives i fun s th => ofType y (encodeI y.ty y.sat (f (s.intA th y) (s.intB th y) (s.intC th y)))

/-- A code computed from the codes of the operands. -/
def GivesCode (i : Instr) (y : Arith) (f : Nat → Nat → Nat → Nat) : Prop :=
  Gives i fun s th => ofType y (f (s.argA th y) (s.argB th y) (s.argC th y))

/-- A code computed from operand A and the amount in B. -/
def GivesShift (i : Instr) (y : Arith) (f : Nat → Nat → Nat) : Prop :=
  Gives i fun s th => ofType y (f (s.argA th y) (s.amount th y))

/-- A 32-bit count of the bits of A. -/
def GivesCount (i : Instr) (y : Arith) (f : Nat → Nat) : Prop :=
  Gives i fun s th => { d := y.d, w := 32, val := f (s.argA th y) }

/-- A floating-point result and its flags, in the rounding direction of the instruction. -/
def GivesFloat (i : Instr) (y : Arith) (f : Rnd → Nat → Nat → Nat → FRes) : Prop :=
  Gives i fun s th => fOut y (f (th.rnd y.rnd) (s.argA th y) (s.argB th y) (s.argC th y))

/-- A thread that issues alone traps with no other effect than the trap's entry. It waits at the instruction while a load to a
register of the frame is outstanding (01 R29). -/
def TrapsTo (i : Instr) (s : State) (th : Thread) (c : Cause) (addr : Dword) (detail : Word) : Prop :=
  exec i s = .next (if th.frameWaits then s.stay th i else s.trapHere th (encode i) c addr detail)

def Traps (i : Instr) (c : Cause) : Prop := ∀ s th, Alone i s th → TrapsTo i s th c 0 0

/-- A thread that issues alone goes to a target that may be fetched from, with the link it names; a target that may not be raises
its trap, with no link (04 R120 to R122). -/
def Jumps (i : Instr) (target : State → Thread → Dword) (link : Option Opnd) : Prop :=
  ∀ s th, Alone i s th →
    match s.targetTrap th (target s th) with
    | some c => TrapsTo i s th c (target s th) 0
    | none =>
      let s1 := match link with
        | some d => s.result th.id d 64 ((th.pc + BitVec.ofNat 64 i.len).setWidth 128)
        | none => s
      exec i s = .next ((s1.modThread th.id fun x => { x with pc := target s th }).executed th)

/-- A thread that issues alone leaves the state that f gives, and goes on. -/
def Does (i : Instr) (pre : State → Thread → Prop) (f : State → Thread → State) : Prop :=
  ∀ s th, Alone i s th → pre s th → exec i s = .next ((f s th).past i th)

/-- A thread that issues alone stays at the instruction in the state that f gives: held there, or not yet done with it. -/
def Holds (i : Instr) (pre : State → Thread → Prop) (f : State → Thread → State) : Prop :=
  ∀ s th, Alone i s th → pre s th → exec i s = .next ((f s th).stay th i)

/-- No access of the module to another device or a PCIe port is outstanding. -/
def State.Homely (s : State) : Prop :=
  s.unacked = [] ∧ s.far = [] ∧ ∀ x ∈ s.threads, ∀ a ∈ x.ops, (a.pieces.any fun p => p.1.far) = false

/-- A thread traps with no effect beyond its own trap entry: a device thread has a handler and a frame that can be written, and no
OPEN region is committed first. -/
def State.TrapsPrecisely (s : State) (th : Thread) : Prop :=
  s.Homely ∧ th.unit ≠ .service ∧ (th.unit = .device → s.tvec th ≠ 0 ∧ s.tframe th ≠ 0 ∧ th.tstate.getLsbD 0 = false
      ∧ s.stackBad th.id (s.tframe th - s.img.stkBase).toNat 128 = false)
    ∧ ∀ a n, th.region ≠ .opened a n

/-- A thread that issues a memory instruction alone takes the trap that `bad` says its operands raise, and nothing is accessed; the
number of the issue is used up. -/
def TrapsOn (i : Instr) (bad : State → Thread → Bad → Prop) : Prop :=
  ∀ s th b, Alone i s th → s.TrapsPrecisely th → bad s th b →
    exec i s = .next (if th.frameWaits then s.newId.2.stay th i else s.newId.2.trapHere th (encode i) b.cause b.addr b.detail)

/-- What a thread asks of memory fails the checks of its address's class (07 R185 to R187, 09 R223). -/
def State.BadAddress (s : State) (th : Thread) (q : Ask) (b : Bad) : Prop := s.classify th q.va q.size q.align = .error b

/-- It lies in the thread's stack, which its operation does not reach (09 R231). -/
def State.NotOnStack (s : State) (th : Thread) (q : Ask) (b : Bad) : Prop :=
  (∃ o, s.classify th q.va q.size q.align = .ok (.stack o))
    ∧ canonical (s.spaceOf th) (q.va + BitVec.ofNat 64 (q.size - 1)) = true ∧ b = { cause := .prot, addr := q.va }

/-- What a thread asks of memory passes its checks: the address of its class, room in the counters, and no acquire or release that
holds it (09 R223, 01 R28, 08 R204). The access takes the place p in the state s1, in which its page has been translated. -/
def Granted (s : State) (th : Thread) (q : Ask) (s1 : State) (p : Place) (tail : Option (Nat × Place)) : Prop :=
  counterFull q.op th.cnt = false ∧ (q.order.rel && parkedBy th q.order) = false ∧ acqHolds th p = false ∧ p.far = false ∧ (∀ n r, tail = some (n, r) → r.far = false)
  ∧ ∃ c, s.newId.2.classify th q.va q.size q.align = .ok c
    ∧ canonical (s.spaceOf th) (q.va + BitVec.ofNat 64 (q.size - 1)) = true
    ∧ match c with
      | .spad o => p = .spad o ∧ tail = none ∧ s1 = s.newId.2
      | .stack o => p = .stack o ∧ tail = none ∧ s1 = s.newId.2 ∧ classTrap q.op p = false ∧ s.stackBad th.id o q.size = false
      | .global => ∃ p0 tail0, s.newId.2.placeGlobal th th.sup q.va q.size q.kind = (s1, p0, tail0) ∧ classTrap q.op p0 = false
        ∧ s1.linkAll q.va q.size p0 tail0 = (p, tail)

/-- A group without its record of the writes that k values depend on, which every step tidies. -/
def Group.bare (g : Group) : Group := { g with kdeps := [] }

/-- A thread without what it remembers of others' writes that it has read, and without the waits that this memory adds to its releases
(08 R204, R208). -/
def Thread.bare (th : Thread) : Thread :=
  { th with
    saw := [], heard := [], relDeps := []
    ops := th.ops.map fun a => { a with waits := [], deps := [] }
    fences := th.fences.map fun f => { f with waits := [] }
    acqs := th.acqs.map fun q => { q with waits := [] } }

/-- What the issue of an access leaves: the thread goes on, its counter rises, its registers stay, and the access is outstanding.
Unless the access has failed already, memory is that of the state m, and groups and launches are those of s (01 R28, 09 R219). -/
def Issued (i : Instr) (s : State) (th : Thread) (q : Ask) (p : Place) (tail : Option (Nat × Place)) (m t : State) : Prop :=
  ∃ th2, t.thread? th.id = some th2
    ∧ ((∀ f v, p ≠ .failed f v) → t.mem = m.mem ∧ t.groups.map Group.bare = s.groups.map Group.bare ∧ t.launches = s.launches)
    ∧ th2.pc = th.pc + BitVec.ofNat 64 i.len ∧ th2.cnt = bump q.op th.cnt
    ∧ th2.v = th.v ∧ th2.o = th.o ∧ th2.y0 = th.y0 ∧ th2.y1 = th.y1 ∧ th2.p = th.p ∧ th2.status = th.status
    ∧ ∃ a ∈ th2.ops, a.op = q.op ∧ a.va = q.va ∧ a.size = q.size ∧ a.place = p ∧ a.tail = tail
      ∧ a.dst = q.dst ∧ a.order = q.order ∧ a.pc = th.pc ∧ a.words = encode i ∧ a.counted = true

/-- A thread that issues alone, without an OPEN region, issues the access and goes on. -/
def Issues (i : Instr) (pre : State → Thread → Prop) (ask : State → Thread → Ask) : Prop :=
  ∀ s th s1 p tail, Alone i s th → pre s th → s.Homely → (∀ a n, th.region ≠ .opened a n) → Granted s th (ask s th) s1 p tail →
    ∃ t, exec i s = .next t ∧ Issued i s th (ask s th) p tail s1 t

/-- Memory m2 is m1 with the bytes bs at address a, and no other byte changed. -/
def Memory.Put (m1 m2 : Memory) (a : Nat) (bs : List Byte) : Prop :=
  ∀ x, m2.read x = if a ≤ x ∧ x < a + bs.length then bs.getD (x - a) 0 else m1.read x

/-- Physical memory is in its canonical form. -/
def State.MemoryOk (s : State) : Prop := s.mem.wf = true

/-- A step that does not stop. -/
def Safe (s : State) : Prop := ∃ t, step s = .next t

end Sys2Proof.Machine
end

