-- ==== Sys2Proof/Certificates/Slice0/Obligations.lean ====
section
/-! DEFINITION. Statements about the model, for the provers. -/

open Sys2Proof Sys2Proof.Machine

/-- For every well-formed instruction that the checks on the words alone accept, decode of encode is the instruction, with every
operand at every value its specifier admits. The device steps have no encoding and are not meant. (R33, R34, R35, R36, R37, R38,
R40, R42, R45, R46, R52) -/
def Obligations.DecodeReadsBackEncode : Prop :=
  ∀ i : Instr, i.wf = true → i.legal = true → i.isStep = false → decode (encode i) = .ok i

/-- The encodings that the manual works out: mov with a literal, a compact ffma, a guarded 96-bit fmul, cmp, a guarded bra, a
compact st, nop, xch, an acquiring ld and a red with a slot. (02_encoding.md worked encodings, 04_scalar_instructions.md worked
encodings, 06_parallel_instructions.md R169 example, 09_memory_instructions.md worked encodings) -/
def Obligations.WordsDecodeAsPrinted : Prop :=
  decode [0xFAF61006, 0x10000000, 0] = .ok (.mov96 (.c3 { m := true, b := .zero, a := .lit, d := .v 4 } 0x10000000))
  ∧ decode [0x0910310C] = .ok (.ffma { m := false, b := .v 9, a := .v 8, d := .v 12 })
  ∧ decode [0x00832109, 0x00A3FD28, 0x00000023] = .ok (.fmul96 (.wide
      { g := 10, d := .v 200, a := .v 8, b := .k 40, c := .zero, mod8 := 0, lit := none, ext := 0, sat := false, rnd := 1
        ty := .f32 }))
  ∧ decode [0x0073FC89, 0x0073FF04, 0x00110001] = .ok (.cmp
      { g := 7, d := .zero, a := .v 7, b := .imm 4, c := .zero, mod8 := 0, lit := none, ext := 0x11, sat := false, rnd := 0
        ty := .i32 })
  ∧ decode [0x8FF3FD81, 0x0013FCFF, 0xFFFFFFF0] = .ok (.bra96
      { g := 1, d := .zero, a := .zero, b := .zero, c := .zero, mod8 := 0, lit := none, w2 := 0xFFFFFFF0 })
  ∧ decode [0x02083244] = .ok (.st { imm := 2, a := .v 4, d := .v 12 })
  ∧ decode [0x7AF5E9A4] = .ok (.nop { m := false, b := .zero, a := .zero, d := .zero })
  ∧ decode [0x00802DD1, 0x0073FCFF, 0x07430000] = .ok (.xch
      { g := 7, d := .v 11, a := .v 8, b := .zero, c := .zero, mod8 := 0, lit := none, ext := 0x743, sat := false, rnd := 0
        ty := .b32 })
  ∧ decode [0x40600641, 0x0073FCFF, 0x00000D20] = .ok (.ld96 (.wide
      { g := 7, d := .v 1, a := .v 6, b := .zero, c := .zero, mod8 := 0, lit := none, off := 0, agent := 6, store := 2, ord := 1
        ty := .b32 }))
  ∧ decode [0x4043FE51, 0x207C1409, 0x00040943] = .ok (.red
      { g := 7, d := .zero, a := .v 4, b := .v 9, c := .imm 5, mod8 := 0x20, lit := none, off := 64, agent := 4, store := 2
        ord := 2, ty := .f32 })

/-- Words as many as the length bits of the first ask for, whose opcode is 0x00, 0xFF, 0xFD, 0xFE or reserved, decode to the
instruction that raises ILLEGAL; a thread that executes it alone takes ILLEGAL with its PC at the instruction and nothing else.
That the trap waits until no load to a register that the trap frame saves is outstanding, which TrapsTo states, is the model's
reading of R29 (log 70). (R34, R56, R58, R29, log 70) -/
def Obligations.ReservedOpcodesRaiseIllegal : Prop :=
  ∀ (w0 : Word) (rest : List Word), reservedOp (w0.extractLsb' 2 8) = true → rest.length + 1 = lengthWords w0 →
    decode (w0 :: rest) = .ok (.illegalOpcode (w0 :: rest)) ∧ Traps (.illegalOpcode (w0 :: rest)) .illegal

/-- With power, after start-up, and with the issue of a team at the head of the agenda: when the fetch for the candidate team gives
an instruction, the named threads are all its ready members, the team is whole or its key selectable, no older key must go
first, and the quadrant has issued no team in this cycle, the step is exec of that instruction for that team, after the cycles
that the agenda lets pass and with what follows from a step at once: a finished fetch is forgotten, accesses whose page has come
go on, and the key table is brought up to date. What the rules say is which threads are a candidate team, when its key is
selectable and which key goes first. That a step takes the head of an agenda (log 2), lets dt cycles pass (log 3) and ends with
what follows at once, and how ready cycles and ages are kept and tie (logs 19 and 65), are the model's choices. (R27, R144,
R145, R146, log 2, log 3, log 19, log 65) -/
def Obligations.StepRunsDecodedInstruction : Prop :=
  ∀ (s s1 : State) (dt : Nat) (ids : List Nat) (arg : StepArgs) (rest : List (Nat × Act)) (t : Nat) (th : Thread) (i : Instr),
    s.power ≠ .off → s.booted = true → s.agenda = (dt, .issue ids arg) :: rest →
    let s0 : State := State.pass { s with agenda := rest } dt
    let cand := s0.candidates th
    ids.head? = some t → s0.thread? t = some th →
    State.fetchTeam { s0 with arg := arg } cand = (s1, [(cand, .ok i)]) →
    (cand.filter (s0.readyFor i)).map (·.id) = ids →
    (ids.length = cand.length ∨ (s0.keySince th.key).isSome = true) →
    s0.mayGo th ((s0.keySince th.key).getD s0.cycle) = true → s0.quadFree th = true →
    step s = match exec i { s1.tookKey th with team := ids } with
      | .next s2 => .next (State.follow (match cand with
        | x :: _ => s2.farDrop (.fetch x.id)
        | [] => s2))
      | r => r

/-- For a device thread at an address outside the windows, canonical, that translates to a local memory address whose line can be
read and that no write since the thread's last IFENCE has touched, the fetched word is the little-endian word of memory there.
(R26, R33, R188) -/
def Obligations.FetchReadsMemoryAtPc : Prop :=
  ∀ (s s1 : State) (th : Thread) (fresh lv pa cache : Nat) (va e : Dword) (ws : List Word),
    th.unit = .device → s.windowed va = false → canonical (s.spaceOf th) va = true →
    s.translate (s.spaceOf th) va .fetch th.sup = (s1, .ok e lv) →
    s1.physPlace e (leafPa e lv va) 4 false false = .dram pa cache → (∀ l ∈ linesOf pa 4, s1.badLine l = false) →
    pa + 4 ≤ dramEnd → pa = leafPa e lv va →
    (∀ w ∈ s1.code.take (s1.code.length - fresh), ¬(pa ≤ w.pa ∧ w.pa < pa + 4)) →
    s.fetchWord th fresh va ws = (s1, .ok (word (s1.mem.load pa 4) 0))

/-- Without power a step stops, unless the next entry of the agenda asks for a power state; with power and before start-up the step
is MODULE_RESET, after which the module is started whatever the images hold. That this start is reached whatever the images
hold, and that it keeps memory and flash, is the model's reading (log 49), and so are the stop without power and the agenda
entry that ends it (log 50). (R435, R436, R438, log 49, log 50) -/
def Obligations.PowerAndStartUp : Prop :=
  (∀ s : State, s.power = .off → (∀ dt arg rest, s.agenda ≠ (dt, .event .powerStateRequest arg) :: rest) →
    step s = .fault .poweredOff)
  ∧ (∀ s : State, s.power ≠ .off → s.booted = false →
    step s = exec .moduleReset s ∧ ∃ t, exec .moduleReset s = .next t ∧ t.booted = true ∧ t.mem = s.mem ∧ t.flash = s.flash)

/-- On a memory in canonical form, after storing a list of bytes from an address on, each address in the range reads the byte stored
there and every other address reads as before. (R24) -/
def Obligations.StoredBytesReadBack : Prop :=
  ∀ (m : Memory) (a b : Nat) (bs : List Byte), m.wf = true →
    (m.store a bs).read b = if a ≤ b ∧ b < a + bs.length then bs.getD (b - a) 0 else m.read b

/-- At reset physical memory lists nothing and is canonical, no thread, group or launch exists, no link is in service, PCIe and host
links are down, the management log is empty, SX.TIME and the cycle count are zero, and the module has not started. That a zero
byte is what unlisted memory reads as, and that image values are zero before an image is loaded, are choices of the model (logs
1 and 5). (R435, R31, log 1, log 5) -/
def Obligations.ResetState : Prop :=
  State.reset.MemoryOk ∧ State.reset.mem = [] ∧ State.reset.threads = [] ∧ State.reset.groups = [] ∧ State.reset.launches = []
  ∧ State.reset.booted = false ∧ State.reset.ports.all (! ·) = true ∧ State.reset.hostUp = [false, false]
  ∧ State.reset.pcieUp = [false, false] ∧ State.reset.log = [] ∧ State.reset.cycle = 0 ∧ State.reset.time = 0

/-- In every state whose physical memory lists rising addresses and no zero byte, if a step answers a next state, physical memory of
that state is in the same form, so that equal memories are equal data. The form is the model's own; every step of every
instruction and of the device keeps it. (R24, log 1) -/
def Obligations.StepKeepsMemoryCanonical : Prop :=
  ∀ s t : State, s.MemoryOk → step s = .next t → t.MemoryOk

/-- For every team whose members run ADD, SUB, NEG, ABS, MIN, MAX, MUL, MULHI, MAD (compact and 96-bit forms), SAD or CLAMP, the
issue answers the state in which every member's D holds the exact result of its operands read by the type's signedness, clamped
under .sat and otherwise wrapped, and in which it has moved past the instruction. (R97, R98, R39, R161) -/
def Obligations.IntegerArithmeticResults : Prop :=
  (∀ x, GivesInt (.add x) (x.toArith 0x03 none) fun a b _ => a + b) ∧ (∀ x, GivesInt (.add96 x) (x.toArith 0x03) fun a b _ => a + b)
  ∧ (∀ x, GivesInt (.sub x) (x.toArith 0x04 none) fun a b _ => a - b) ∧ (∀ x, GivesInt (.sub96 x) (x.toArith 0x04) fun a b _ => a - b)
  ∧ (∀ x, GivesInt (.neg x) (x.toArith 0x05 none) fun a _ _ => -a) ∧ (∀ x, GivesInt (.neg96 x) (x.toArith 0x05) fun a _ _ => -a)
  ∧ (∀ x, GivesInt (.abs x) (x.toArith 0x06 none) fun a _ _ => (a.natAbs : Int)) ∧ (∀ x, GivesInt (.abs96 x) (x.toArith 0x06) fun a _ _ => (a.natAbs : Int))
  ∧ (∀ x, GivesInt (.min x) (x.toArith 0x07 none) fun a b _ => if a < b then a else b) ∧ (∀ x, GivesInt (.min96 x) (x.toArith 0x07) fun a b _ => if a < b then a else b)
  ∧ (∀ x, GivesInt (.max x) (x.toArith 0x08 none) fun a b _ => if a < b then b else a) ∧ (∀ x, GivesInt (.max96 x) (x.toArith 0x08) fun a b _ => if a < b then b else a)
  ∧ (∀ x, GivesInt (.mul x) (x.toArith 0x09 none) fun a b _ => a * b) ∧ (∀ x, GivesInt (.mul96 x) (x.toArith 0x09) fun a b _ => a * b)
  ∧ (∀ x, GivesInt (.mulhi x) (x.toArith 0x0A none) fun a b _ => a * b / ((2 ^ (x.toArith 0x0A none).ty.width : Nat) : Int))
  ∧ (∀ x, GivesInt (.mulhi96 x) (x.toArith 0x0A) fun a b _ => a * b / ((2 ^ (x.toArith 0x0A).ty.width : Nat) : Int))
  ∧ (∀ x, GivesInt (.mad x) (x.toArith 0x0B none) fun a b c => a * b + c) ∧ (∀ x, GivesInt (.mad96 x) (x.toArith 0x0B) fun a b c => a * b + c)
  ∧ (∀ x, GivesInt (.sad x) x fun a b c => ((a - b).natAbs : Int) + c)
  ∧ (∀ x, GivesInt (.clamp x) x fun a b c => if c < (if a < b then b else a) then c else if a < b then b else a)

/-- For every integer or raw type and exact integer: the code fits the type's width; without saturation the value of the code
differs from the exact integer by a multiple of 2^w and lies in the type's range; with saturation it is the exact integer, or
the type's bound on the side where the integer lies outside. (R68, R98) -/
def Obligations.IntegersWrapOrClamp : Prop :=
  ∀ (ty : Ty) (e : Int), ty ∈ [Ty.b32, .i32, .n32, .b64, .i64, .n64, .i8, .n8, .i4] →
    let lo := (Ty.range ty).1
    let hi := (Ty.range ty).2
    encodeI ty false e < 2 ^ ty.width ∧ encodeI ty true e < 2 ^ ty.width
    ∧ (decodeI ty (encodeI ty false e) - e) % ((2 ^ ty.width : Nat) : Int) = 0
    ∧ lo ≤ decodeI ty (encodeI ty false e) ∧ decodeI ty (encodeI ty false e) ≤ hi
    ∧ decodeI ty (encodeI ty true e) = if e < lo then lo else if hi < e then hi else e

/-- MADW multiplies 32-bit operands and adds a 64-bit one at the type's signedness into a 64-bit D, wrapped or clamped; LEA adds to
A the 32-bit B, sign- or zero-extended and shifted by s; ICVT delivers the source value wrapped or clamped to the destination
type. (R100, R101, R69) -/
def Obligations.WideAndConvertedIntegers : Prop :=
  (∀ x, Gives (.madw x) fun s th =>
    let t : Ty := if x.ty == .i32 then .i64 else .n64
    { d := x.d, w := 64
      val := encodeI t x.sat (s.intA th x * s.intB th x + decodeI t (s.raw64 th x.toOps4 x.c).toNat) })
  ∧ (∀ x, Gives (.lea x) fun s th =>
    let b := s.raw32 th x.toOps4 x.b
    let i : Dword := if x.fld 19 1 == 1#1 then b.signExtend 64 else b.setWidth 64
    { d := x.d, w := 64, val := (s.raw64 th x.toOps4 x.a + i <<< (x.fld 16 3).toNat).toNat })
  ∧ (∀ x, Gives (.icvt x) fun s th =>
    let st := (Ty.ofCode (x.fld 16 5)).getD .i32
    ofType x (encodeI x.ty x.sat (decodeI st (s.arg' th (litOf x.toOps4) st x.a))))

/-- AND, OR, XOR, NOT, ANDN and LOP deliver the bitwise function of their operands, LOP by the table of word 2; BREV and REVB
reverse the bits and the bytes of the type's width; POPC, CLZ and CTZ deliver a 32-bit count, w for CLZ and CTZ of zero. (R102,
R103) -/
def Obligations.BitwiseResults : Prop :=
  (∀ x, GivesCode (.and x) (x.toArith 0x10 none) fun a b _ => a &&& b) ∧ (∀ x, GivesCode (.and96 x) (x.toArith 0x10) fun a b _ => a &&& b)
  ∧ (∀ x, GivesCode (.or x) (x.toArith 0x11 none) fun a b _ => a ||| b) ∧ (∀ x, GivesCode (.or96 x) (x.toArith 0x11) fun a b _ => a ||| b)
  ∧ (∀ x, GivesCode (.xor x) (x.toArith 0x12 none) fun a b _ => a ^^^ b) ∧ (∀ x, GivesCode (.xor96 x) (x.toArith 0x12) fun a b _ => a ^^^ b)
  ∧ (∀ x, GivesCode (.not x) (x.toArith 0x13 none) fun a _ _ => a ^^^ (2 ^ (x.toArith 0x13 none).ty.width - 1))
  ∧ (∀ x, GivesCode (.not96 x) (x.toArith 0x13) fun a _ _ => a ^^^ (2 ^ (x.toArith 0x13).ty.width - 1))
  ∧ (∀ x, GivesCode (.andn x) (x.toArith 0x14 none) fun a b _ => a &&& (b ^^^ (2 ^ (x.toArith 0x14 none).ty.width - 1)))
  ∧ (∀ x, GivesCode (.andn96 x) (x.toArith 0x14) fun a b _ => a &&& (b ^^^ (2 ^ (x.toArith 0x14).ty.width - 1)))
  ∧ (∀ x, GivesCode (.lop x) x (lopVal x))
  ∧ (∀ x, GivesCode (.brev x) (x.toArith 0x20 none) fun a _ _ => brevVal (x.toArith 0x20 none) a)
  ∧ (∀ x, GivesCode (.brev96 x) (x.toArith 0x20) fun a _ _ => brevVal (x.toArith 0x20) a)
  ∧ (∀ x, GivesCode (.revb x) (x.toArith 0x21 none) fun a _ _ => revbVal (x.toArith 0x21 none) a)
  ∧ (∀ x, GivesCode (.revb96 x) (x.toArith 0x21) fun a _ _ => revbVal (x.toArith 0x21) a)
  ∧ (∀ x, GivesCount (.popc x) (x.toArith 0x1D none) (popcVal (x.toArith 0x1D none)))
  ∧ (∀ x, GivesCount (.popc96 x) (x.toArith 0x1D) (popcVal (x.toArith 0x1D)))
  ∧ (∀ x, GivesCount (.clz x) (x.toArith 0x1E none) (clzVal (x.toArith 0x1E none)))
  ∧ (∀ x, GivesCount (.clz96 x) (x.toArith 0x1E) (clzVal (x.toArith 0x1E)))
  ∧ (∀ x, GivesCount (.ctz x) (x.toArith 0x1F none) (ctzVal (x.toArith 0x1F none)))
  ∧ (∀ x, GivesCount (.ctz96 x) (x.toArith 0x1F) (ctzVal (x.toArith 0x1F)))
  ∧ (∀ (x : Arith) (a b c i : Nat), i < x.ty.width →
    ((lopVal x a b c).testBit i = (x.fld 16 8).getLsbD ((a.testBit i).toNat * 4 + (b.testBit i).toNat * 2 + (c.testBit i).toNat)
    ∧ (brevVal x a).testBit i = a.testBit (x.ty.width - 1 - i)))
  ∧ (∀ x : Arith, clzVal x 0 = x.ty.width ∧ ctzVal x 0 = x.ty.width ∧ popcVal x 0 = 0)

/-- SHL, SHR, SAR, ROL, ROR, BFX and BFINS deliver, for operands within the type's width and every amount: SHL bit i - n of a or 0,
SHR bit i + n of a or 0, SAR the same with bit w - 1 as fill, ROL and ROR the bit that lies n mod w lower and higher round the
word; BFX the field, sign-extended for signed types, and BFINS C with the field replaced. A field of no length or beyond the top
gives 0 and C. (R104, R105) -/
def Obligations.ShiftAndFieldResults : Prop :=
  (∀ x, GivesShift (.shl x) (x.toArith 0x16 none) (shlVal (x.toArith 0x16 none))) ∧ (∀ x, GivesShift (.shl96 x) (x.toArith 0x16) (shlVal (x.toArith 0x16)))
  ∧ (∀ x, GivesShift (.shr x) (x.toArith 0x17 none) (shrVal (x.toArith 0x17 none))) ∧ (∀ x, GivesShift (.shr96 x) (x.toArith 0x17) (shrVal (x.toArith 0x17)))
  ∧ (∀ x, GivesShift (.sar x) (x.toArith 0x18 none) (sarVal (x.toArith 0x18 none))) ∧ (∀ x, GivesShift (.sar96 x) (x.toArith 0x18) (sarVal (x.toArith 0x18)))
  ∧ (∀ x, GivesShift (.rol x) (x.toArith 0x19 none) (rolVal (x.toArith 0x19 none))) ∧ (∀ x, GivesShift (.rol96 x) (x.toArith 0x19) (rolVal (x.toArith 0x19)))
  ∧ (∀ x, GivesShift (.ror x) (x.toArith 0x1A none) (rorVal (x.toArith 0x1A none))) ∧ (∀ x, GivesShift (.ror96 x) (x.toArith 0x1A) (rorVal (x.toArith 0x1A)))
  ∧ (∀ x, GivesShift (.bfx x) x (bfxVal x))
  ∧ (∀ x, Gives (.bfins x) fun s th => ofType x (bfinsVal x (s.argA th x) (s.amount th x) (s.argC th x)))
  ∧ (∀ (x : Arith) (a n i : Nat), i < x.ty.width → a < 2 ^ x.ty.width →
    let w := x.ty.width
    (shlVal x a n).testBit i = (decide (n ≤ i) && a.testBit (i - n))
    ∧ (shrVal x a n).testBit i = a.testBit (i + n)
    ∧ (sarVal x a n).testBit i = a.testBit (if i + n < w then i + n else w - 1)
    ∧ (rolVal x a n).testBit i = a.testBit ((i + (w - n % w)) % w)
    ∧ (rorVal x a n).testBit i = a.testBit ((i + n) % w))
  ∧ (∀ (x : Arith) (a b c i : Nat), i < x.ty.width → a < 2 ^ x.ty.width → c < 2 ^ x.ty.width →
    let w := x.ty.width
    let pos := b % 256
    let len := min (b / 256 % 256) (w - pos)
    if b / 256 % 256 = 0 ∨ w ≤ pos then bfxVal x a b = 0 ∧ bfinsVal x a b c = c
    else
      (bfxVal x a b).testBit i = (if i < len then a.testBit (pos + i) else x.ty.signed && a.testBit (pos + len - 1))
      ∧ (bfinsVal x a b c).testBit i = if pos ≤ i ∧ i < pos + len then a.testBit (i - pos) else c.testBit i)

/-- MOV copies A as raw bits of the type, a quad for .b128; SEL chooses by its predicate; CMP writes its relation to a predicate,
and 1 or 0 to D; PLOP writes one bit of its table to a predicate; PMOV delivers the predicate file with bit 7 set, or takes it
from A, for a thread that issues alone. (R106, R107, R108, R109, R110) -/
def Obligations.MovesSelectionsAndPredicates : Prop :=
  (∀ x, GivesCode (.mov x) (x.toArith 0x01 none) fun a _ _ => a)
  ∧ (∀ x, Gives (.mov96 x) fun s th =>
    let y := x.toArith 0x01
    ofType y (if y.ty == .b128 then (State.src128 th y.a).toNat else s.argA th y))
  ∧ (∀ x, Gives (.sel x) fun s th =>
    ofType x (if th.pred (x.fld 16 3) != (x.fld 19 1 == 1#1) then s.argA th x else s.argB th x))
  ∧ (∀ x, Gives (.cmp x) fun s th =>
    let a := s.intA th x
    let b := s.intB th x
    let r : Bool := match (x.fld 19 4).toNat with
      | 0 => a == b
      | 1 => a != b
      | 2 => decide (a < b)
      | 3 => decide (a ≤ b)
      | 4 => decide (b < a)
      | _ => decide (b ≤ a)
    { d := x.d, w := 32, val := if r then 1 else 0, pd := some (x.fld 16 3, r) })
  ∧ (∀ x, Gives (.plop x) fun _ th =>
    let n (lo : Nat) : Nat := if th.pred (x.fld lo 3) then 1 else 0
    { d := .zero, w := 32, val := 0, pd := some (x.fld 16 3, x.mod8.getLsbD (4 * n 19 + 2 * n 22 + n 25)) })
  ∧ (∀ x s th, Alone (.pmov x) s th → exec (.pmov x) s = .next (State.past
    (if x.fld 16 1 == 0#1 then s.put th.id { d := x.d, w := 32, val := 0x80 + th.p.toNat }
      else s.modThread th.id fun y => { y with p := (s.raw32 th x.toOps4 x.a).setWidth 7 }) (.pmov x) th))

/-- A thread that runs an integer division or remainder, or a .f64 division or square root, alone takes UNIMPL at the instruction
and nothing else. That the trap waits until no load to a register that the trap frame saves is outstanding, which TrapsTo
states, is the model's reading of R29 (log 70). (R60, R99, R29, log 70) -/
def Obligations.EmulableInstructionsRaiseUnimpl : Prop :=
  (∀ x, Traps (.div x) .unimpl) ∧ (∀ x, Traps (.div96 x) .unimpl) ∧ (∀ x, Traps (.rem x) .unimpl) ∧ (∀ x, Traps (.rem96 x) .unimpl)
  ∧ (∀ x : Arith, x.ty = .f64 → Traps (.fdiv x) .unimpl ∧ Traps (.fsqrt x) .unimpl)

/-- FADD, FSUB, FMUL and FFMA deliver the exact sum, difference, product or product and sum rounded once to the type in the
instruction's direction; FMIN and FMAX one operand; FABS clears and FNEG inverts the sign bit with no flag; FDIV and FSQRT of
.f32 the rounded quotient and root. Flags are ORed into the status word. For finite operands the sum, the product and the
product and sum are roundTo of the exact value, a zero sum with the sign of R80; the quotient by a number that is not zero and
the root of a positive number are roundTo of a value of more than 64 bits that is the exact one, or odd and between its
neighbours' halves. roundTo leaves the value of a finite code of .f32, .f64, .f16 and .bf16 as it is, with no flag. (R111, R112,
R113, R114, R116, R79, R80, R81) -/
def Obligations.FloatArithmeticResults : Prop :=
  (∀ x, GivesFloat (.fadd x) (x.toArith 0x40 none) fun r a b _ => fadd (x.toArith 0x40 none).ty r a b)
  ∧ (∀ x, GivesFloat (.fadd96 x) (x.toArith 0x40) fun r a b _ => fadd (x.toArith 0x40).ty r a b)
  ∧ (∀ x, GivesFloat (.fsub x) (x.toArith 0x41 none) fun r a b _ => fadd (x.toArith 0x41 none).ty r a (fneg (x.toArith 0x41 none).ty b))
  ∧ (∀ x, GivesFloat (.fsub96 x) (x.toArith 0x41) fun r a b _ => fadd (x.toArith 0x41).ty r a (fneg (x.toArith 0x41).ty b))
  ∧ (∀ x, GivesFloat (.fmul x) (x.toArith 0x42 none) fun r a b _ => fmul (x.toArith 0x42 none).ty r a b)
  ∧ (∀ x, GivesFloat (.fmul96 x) (x.toArith 0x42) fun r a b _ => fmul (x.toArith 0x42).ty r a b)
  ∧ (∀ x, GivesFloat (.ffma x) (x.toArith 0x43 none) fun r a b c => ffma (x.toArith 0x43 none).ty r a b c)
  ∧ (∀ x, GivesFloat (.ffma96 x) (x.toArith 0x43) fun r a b c => ffma (x.toArith 0x43).ty r a b c)
  ∧ (∀ x, GivesFloat (.fmin x) (x.toArith 0x44 none) fun _ a b _ => fminmax (x.toArith 0x44 none).ty false a b)
  ∧ (∀ x, GivesFloat (.fmin96 x) (x.toArith 0x44) fun _ a b _ => fminmax (x.toArith 0x44).ty false a b)
  ∧ (∀ x, GivesFloat (.fmax x) (x.toArith 0x45 none) fun _ a b _ => fminmax (x.toArith 0x45 none).ty true a b)
  ∧ (∀ x, GivesFloat (.fmax96 x) (x.toArith 0x45) fun _ a b _ => fminmax (x.toArith 0x45).ty true a b)
  ∧ (∀ x, GivesFloat (.fabs x) (x.toArith 0x46 none) fun _ a _ _ => { bits := a % 2 ^ ((x.toArith 0x46 none).ty.width - 1) })
  ∧ (∀ x, GivesFloat (.fabs96 x) (x.toArith 0x46) fun _ a _ _ => { bits := a % 2 ^ ((x.toArith 0x46).ty.width - 1) })
  ∧ (∀ x, GivesFloat (.fneg x) (x.toArith 0x47 none) fun _ a _ _ => { bits := fneg (x.toArith 0x47 none).ty a })
  ∧ (∀ x, GivesFloat (.fneg96 x) (x.toArith 0x47) fun _ a _ _ => { bits := fneg (x.toArith 0x47).ty a })
  ∧ (∀ x : Arith, x.ty ≠ .f64 → GivesFloat (.fdiv x) x fun r a b _ => fdiv x.ty r a b)
  ∧ (∀ x : Arith, x.ty ≠ .f64 → GivesFloat (.fsqrt x) x fun r a _ _ => fsqrt x.ty r a)
  ∧ (∀ (ty : Ty) (r : Rnd) (a b m1 m2 : Nat) (n1 n2 : Bool) (e1 e2 : Int),
    decodeF ty a = .fin n1 m1 e1 → decodeF ty b = .fin n2 m2 e2 →
    let s (n : Bool) (m : Nat) (k e : Int) : Int := (if n then -1 else 1) * ((m * 2 ^ (k - e).toNat : Nat) : Int)
    (∃ n m, fadd ty r a b = roundTo ty r false (.fin n m (min e1 e2)) ∧ (m = 0 → n = if n1 = n2 then n1 else r == .rdn)
      ∧ s n m 0 0 = s n1 m1 e1 (min e1 e2) + s n2 m2 e2 (min e1 e2))
    ∧ fmul ty r a b = roundTo ty r false (.fin (n1 != n2) (m1 * m2) (e1 + e2))
    ∧ (∀ (c m3 : Nat) (n3 : Bool) (e3 : Int), decodeF ty c = .fin n3 m3 e3 →
      let e := min (e1 + e2) e3
      ∃ n m, ffma ty r a b c = roundTo ty r false (.fin n m e) ∧ (m = 0 → n = if (n1 != n2) = n3 then n3 else r == .rdn)
        ∧ s n m 0 0 = s (n1 != n2) (m1 * m2) (e1 + e2) e + s n3 m3 e3 e)
    ∧ (m1 ≠ 0 → m2 ≠ 0 → ∃ k m : Nat, fdiv ty r a b = roundTo ty r false (.fin (n1 != n2) m (e1 - e2 - k)) ∧ 2 ^ 64 ≤ m
      ∧ ((m % 2 = 0 ∧ m * m2 = m1 * 2 ^ k) ∨ (m % 2 = 1 ∧ (m - 1) * m2 < m1 * 2 ^ k ∧ m1 * 2 ^ k < (m + 1) * m2)))
    ∧ (n1 = false → m1 ≠ 0 → ∃ (k m : Nat) (q : Int), fsqrt ty r a = roundTo ty r false (.fin false m q) ∧ 2 * q = e1 - k
      ∧ 2 ^ 64 ≤ m ∧ ((m % 2 = 0 ∧ m * m = m1 * 2 ^ k)
        ∨ (m % 2 = 1 ∧ (m - 1) * (m - 1) < m1 * 2 ^ k ∧ m1 * 2 ^ k < (m + 1) * (m + 1)))))
  ∧ (∀ (ty : Ty) (r : Rnd) (sat n : Bool) (a m : Nat) (e : Int), ty ∈ [Ty.f32, .f64, .f16, .bf16] → a < 2 ^ ty.width →
    decodeF ty a = .fin n m e → roundTo ty r sat (.fin n m e) = { bits := a })

/-- FCMP writes its relation to a predicate and 1 or 0 to D with NV as its condition says; FCLASS one bit of ten; CVT, CVTFI and
CVTIF convert once from the exact source value in the instruction's direction, CVTFI always saturating; FRND rounds to an
integral value; FSCALE scales by 2^n, n the signed 32-bit B. That CVT between equal types takes no notice of .sat is the model's
reading (log 20). (R114, R115, R117, R118, R85, log 20) -/
def Obligations.FloatComparisonsAndConversions : Prop :=
  (∀ x, Gives (.fcmp x) fun s th =>
    let r := fcmpVal (x.fld 19 4).toNat (decodeF x.ty (s.argA th x)) (decodeF x.ty (s.argB th x))
    { d := x.d, w := 32, val := if r.1 then 1 else 0, flags := r.2, pd := some (x.fld 16 3, r.1) })
  ∧ (∀ x, GivesCount (.fclass x) x (fclassVal x.ty))
  ∧ (∀ x, Gives (.cvt x) fun s th =>
    let v := decodeF (srcTy x) (s.arg' th (litOf x.toOps4) (srcTy x) x.a)
    fOut x (roundTo x.ty (th.rnd x.rnd) (x.sat && x.ty != srcTy x) v))
  ∧ (∀ x, Gives (.cvtfi x) fun s th =>
    let r := toInt x.ty (th.rnd x.rnd) (decodeF (srcTy x) (s.arg' th (litOf x.toOps4) (srcTy x) x.a))
    { d := x.d, w := x.ty.regWidth, val := encodeI x.ty false r.1, flags := r.2 })
  ∧ (∀ x, Gives (.cvtif x) fun s th =>
    fOut x (roundTo x.ty (th.rnd x.rnd) x.sat (ofInt (decodeI (srcTy x) (s.arg' th (litOf x.toOps4) (srcTy x) x.a)))))
  ∧ (∀ x, GivesFloat (.frnd x) x fun r a _ _ => frndVal x.ty r a)
  ∧ (∀ x, Gives (.fscale x) fun s th => fOut x (fscaleVal x.ty (th.rnd x.rnd) (s.argA th x) (s.raw32 th x.toOps4 x.b).toInt))

/-- Each special function delivers the function's FP32 value, or for .f16 and .bf16 that of the widened operand rounded once more,
and its flags. The special cases of FP32: a quiet NaN gives the canonical NaN with no flag and a signalling one raises NV; RCP
and RSQ of zero give the infinity of its sign and DZ; RSQ and LG2 of a negative number and SIN and COS of an infinity give the
canonical NaN and NV; EX2 of an infinity 0 or +infinity, TANH +1 or -1; LG2 of zero -infinity and DZ. RCP of a finite number
that is not zero and RSQ of a finite positive one are the rounded value of a number of more than 64 bits that is the exact one,
or odd and between its neighbours' halves; EX2 of an integer and LG2 of a power of two are exact; ten other operands of EX2,
LG2, SIN, COS and TANH give the correctly rounded value. (R92, R93, R94, R180) -/
def Obligations.SpecialFunctionResults : Prop :=
  (∀ x, Gives (.rcp x) fun s th =>
    let r := sfnVal .rcp (x.toArith 0x85 none).ty (s.argA th (x.toArith 0x85 none))
    { d := (x.toArith 0x85 none).d, w := 32, val := r.bits, flags := r.flags })
  ∧ (∀ x, Gives (.rcp96 x) fun s th =>
    let r := sfnVal .rcp (x.toArith 0x85).ty (s.argA th (x.toArith 0x85))
    { d := (x.toArith 0x85).d, w := 32, val := r.bits, flags := r.flags })
  ∧ (∀ x, Gives (.rsq x) fun s th =>
    let r := sfnVal .rsq (x.toArith 0x86 none).ty (s.argA th (x.toArith 0x86 none))
    { d := (x.toArith 0x86 none).d, w := 32, val := r.bits, flags := r.flags })
  ∧ (∀ x, Gives (.rsq96 x) fun s th =>
    let r := sfnVal .rsq (x.toArith 0x86).ty (s.argA th (x.toArith 0x86))
    { d := (x.toArith 0x86).d, w := 32, val := r.bits, flags := r.flags })
  ∧ (∀ x, Gives (.ex2 x) fun s th =>
    let r := sfnVal .ex2 (x.toArith 0x87 none).ty (s.argA th (x.toArith 0x87 none))
    { d := (x.toArith 0x87 none).d, w := 32, val := r.bits, flags := r.flags })
  ∧ (∀ x, Gives (.ex296 x) fun s th =>
    let r := sfnVal .ex2 (x.toArith 0x87).ty (s.argA th (x.toArith 0x87))
    { d := (x.toArith 0x87).d, w := 32, val := r.bits, flags := r.flags })
  ∧ (∀ x, Gives (.lg2 x) fun s th =>
    let r := sfnVal .lg2 (x.toArith 0x88 none).ty (s.argA th (x.toArith 0x88 none))
    { d := (x.toArith 0x88 none).d, w := 32, val := r.bits, flags := r.flags })
  ∧ (∀ x, Gives (.lg296 x) fun s th =>
    let r := sfnVal .lg2 (x.toArith 0x88).ty (s.argA th (x.toArith 0x88))
    { d := (x.toArith 0x88).d, w := 32, val := r.bits, flags := r.flags })
  ∧ (∀ x, Gives (.sin x) fun s th =>
    let r := sfnVal .sin (x.toArith 0x89 none).ty (s.argA th (x.toArith 0x89 none))
    { d := (x.toArith 0x89 none).d, w := 32, val := r.bits, flags := r.flags })
  ∧ (∀ x, Gives (.sin96 x) fun s th =>
    let r := sfnVal .sin (x.toArith 0x89).ty (s.argA th (x.toArith 0x89))
    { d := (x.toArith 0x89).d, w := 32, val := r.bits, flags := r.flags })
  ∧ (∀ x, Gives (.cos x) fun s th =>
    let r := sfnVal .cos (x.toArith 0x8A none).ty (s.argA th (x.toArith 0x8A none))
    { d := (x.toArith 0x8A none).d, w := 32, val := r.bits, flags := r.flags })
  ∧ (∀ x, Gives (.cos96 x) fun s th =>
    let r := sfnVal .cos (x.toArith 0x8A).ty (s.argA th (x.toArith 0x8A))
    { d := (x.toArith 0x8A).d, w := 32, val := r.bits, flags := r.flags })
  ∧ (∀ x, Gives (.tanh x) fun s th =>
    let r := sfnVal .tanh (x.toArith 0x8B none).ty (s.argA th (x.toArith 0x8B none))
    { d := (x.toArith 0x8B none).d, w := 32, val := r.bits, flags := r.flags })
  ∧ (∀ x, Gives (.tanh96 x) fun s th =>
    let r := sfnVal .tanh (x.toArith 0x8B).ty (s.argA th (x.toArith 0x8B))
    { d := (x.toArith 0x8B).d, w := 32, val := r.bits, flags := r.flags })
  ∧ (∀ f : Sfn, sfn32 f 0x7FC00001 = { bits := 0x7FC00000 } ∧ sfn32 f 0x7F800001 = { bits := 0x7FC00000, flags := fNV })
  ∧ (sfn32 .rcp 0 = { bits := 0x7F800000, flags := fDZ } ∧ sfn32 .rcp 0x80000000 = { bits := 0xFF800000, flags := fDZ })
  ∧ (sfn32 .rsq 0 = { bits := 0x7F800000, flags := fDZ } ∧ sfn32 .rsq 0x80000000 = { bits := 0xFF800000, flags := fDZ })
  ∧ (sfn32 .rsq 0xBF800000 = { bits := 0x7FC00000, flags := fNV } ∧ sfn32 .lg2 0xBF800000 = { bits := 0x7FC00000, flags := fNV })
  ∧ (sfn32 .sin 0x7F800000 = { bits := 0x7FC00000, flags := fNV } ∧ sfn32 .cos 0xFF800000 = { bits := 0x7FC00000, flags := fNV })
  ∧ (sfn32 .ex2 0xFF800000 = { bits := 0 } ∧ sfn32 .ex2 0x7F800000 = { bits := 0x7F800000 })
  ∧ (sfn32 .tanh 0x7F800000 = { bits := 0x3F800000 } ∧ sfn32 .tanh 0xFF800000 = { bits := 0xBF800000 })
  ∧ sfn32 .lg2 0 = { bits := 0xFF800000, flags := fDZ }
  ∧ (∀ (a m : Nat) (n : Bool) (e : Int), decodeF .f32 a = .fin n m e → m ≠ 0 →
    ∃ k q : Nat, sfn32 .rcp a = { bits := rne .f32 (.fin n q (-e - k)) } ∧ 2 ^ 64 ≤ q
      ∧ ((q % 2 = 0 ∧ q * m = 2 ^ k) ∨ (q % 2 = 1 ∧ (q - 1) * m < 2 ^ k ∧ 2 ^ k < (q + 1) * m)))
  ∧ (∀ (a m : Nat) (e : Int), decodeF .f32 a = .fin false m e → m ≠ 0 →
    ∃ (k q : Nat) (w : Int), sfn32 .rsq a = { bits := rne .f32 (.fin false q w) } ∧ 2 * w = -e - k ∧ 2 ^ 64 ≤ q
      ∧ ((q % 2 = 0 ∧ q * q * m = 2 ^ k) ∨ (q % 2 = 1 ∧ (q - 1) * (q - 1) * m < 2 ^ k ∧ 2 ^ k < (q + 1) * (q + 1) * m)))
  ∧ (∀ i : Int, -149 ≤ i → i < 128 → sfn32 .ex2 (rne .f32 (ofInt i)) = { bits := rne .f32 (pow2V i) }
      ∧ sfn32 .lg2 (rne .f32 (pow2V i)) = { bits := rne .f32 (ofInt i) })
  ∧ (sfn32 .ex2 0x3FC00000 = { bits := 0x403504F3 } ∧ sfn32 .ex2 0xBEAA8000 = { bits := 0x3F4B3BB2 }
    ∧ sfn32 .lg2 0x40400000 = { bits := 0x3FCAE00D } ∧ sfn32 .lg2 0x3F334000 = { bits := 0xBF03A0B1 }
    ∧ sfn32 .sin 0x3F800000 = { bits := 0x3F576AA4 } ∧ sfn32 .sin 0xC2C80000 = { bits := 0x3F01A12E }
    ∧ sfn32 .cos 0x3F800000 = { bits := 0x3F0A5140 } ∧ sfn32 .cos 0x40400000 = { bits := 0xBF7D7026 }
    ∧ sfn32 .tanh 0x3F800000 = { bits := 0x3F42F7D6 } ∧ sfn32 .tanh 0xBE800000 = { bits := 0xBE7ACBF5 })

/-- HADD, HMUL, HFMA, HMIN and HMAX act on the two 16-bit elements of their operands and OR both elements' flags; an immediate
supplies both elements; DOT adds the products of its spans to C, rounded block by block for floating-point formats and exactly
for integer ones; PACK converts A and B into elements j and j + 1 of D and keeps D's other bits; UNPK widens element j of A (an
immediate A of a 16-bit format is read as the model's log 57 says); EDGE tests sixteen samples under the mask. (R175, R176,
R178, R181, R182, R184, R50) -/
def Obligations.PackedResults : Prop :=
  (∀ x, Gives (.hadd x) fun s th =>
    let y : Arith := x.toArith 0x80 none
    let e (o : Opnd) (k : Nat) : Nat := s.packed th y o / 2 ^ (16 * k) % 65536
    let lo := fadd y.ty .rne (e y.a 0) (e y.b 0)
    let hi := fadd y.ty .rne (e y.a 1) (e y.b 1)
    { d := y.d, w := 32, val := hi.bits * 65536 + lo.bits, flags := lo.flags ||| hi.flags })
  ∧ (∀ x, Gives (.hadd96 x) fun s th =>
    let y : Arith := x.toArith 0x80
    let e (o : Opnd) (k : Nat) : Nat := s.packed th y o / 2 ^ (16 * k) % 65536
    let lo := fadd y.ty .rne (e y.a 0) (e y.b 0)
    let hi := fadd y.ty .rne (e y.a 1) (e y.b 1)
    { d := y.d, w := 32, val := hi.bits * 65536 + lo.bits, flags := lo.flags ||| hi.flags })
  ∧ (∀ x, Gives (.hmul x) fun s th =>
    let y : Arith := x.toArith 0x81 none
    let e (o : Opnd) (k : Nat) : Nat := s.packed th y o / 2 ^ (16 * k) % 65536
    let lo := fmul y.ty .rne (e y.a 0) (e y.b 0)
    let hi := fmul y.ty .rne (e y.a 1) (e y.b 1)
    { d := y.d, w := 32, val := hi.bits * 65536 + lo.bits, flags := lo.flags ||| hi.flags })
  ∧ (∀ x, Gives (.hmul96 x) fun s th =>
    let y : Arith := x.toArith 0x81
    let e (o : Opnd) (k : Nat) : Nat := s.packed th y o / 2 ^ (16 * k) % 65536
    let lo := fmul y.ty .rne (e y.a 0) (e y.b 0)
    let hi := fmul y.ty .rne (e y.a 1) (e y.b 1)
    { d := y.d, w := 32, val := hi.bits * 65536 + lo.bits, flags := lo.flags ||| hi.flags })
  ∧ (∀ x, Gives (.hfma x) fun s th =>
    let y : Arith := x.toArith 0x82 none
    let e (o : Opnd) (k : Nat) : Nat := s.packed th y o / 2 ^ (16 * k) % 65536
    let lo := ffma y.ty .rne (e y.a 0) (e y.b 0) (e y.c 0)
    let hi := ffma y.ty .rne (e y.a 1) (e y.b 1) (e y.c 1)
    { d := y.d, w := 32, val := hi.bits * 65536 + lo.bits, flags := lo.flags ||| hi.flags })
  ∧ (∀ x, Gives (.hfma96 x) fun s th =>
    let y : Arith := x.toArith 0x82
    let e (o : Opnd) (k : Nat) : Nat := s.packed th y o / 2 ^ (16 * k) % 65536
    let lo := ffma y.ty .rne (e y.a 0) (e y.b 0) (e y.c 0)
    let hi := ffma y.ty .rne (e y.a 1) (e y.b 1) (e y.c 1)
    { d := y.d, w := 32, val := hi.bits * 65536 + lo.bits, flags := lo.flags ||| hi.flags })
  ∧ (∀ x, Gives (.hmin x) fun s th =>
    let y : Arith := x
    let e (o : Opnd) (k : Nat) : Nat := s.packed th y o / 2 ^ (16 * k) % 65536
    let lo := fminmax y.ty false (e y.a 0) (e y.b 0)
    let hi := fminmax y.ty false (e y.a 1) (e y.b 1)
    { d := y.d, w := 32, val := hi.bits * 65536 + lo.bits, flags := lo.flags ||| hi.flags })
  ∧ (∀ x, Gives (.hmax x) fun s th =>
    let y : Arith := x
    let e (o : Opnd) (k : Nat) : Nat := s.packed th y o / 2 ^ (16 * k) % 65536
    let lo := fminmax y.ty true (e y.a 0) (e y.b 0)
    let hi := fminmax y.ty true (e y.a 1) (e y.b 1)
    { d := y.d, w := 32, val := hi.bits * 65536 + lo.bits, flags := lo.flags ||| hi.flags })
  ∧ (∀ x, Gives (.dot x) fun s th =>
    let tb := (Ty.ofCode (x.fld 16 5)).getD .f16
    let c := s.arg' th (litOf x.toOps4) (if Ty.isInt x.ty then .i32 else .f32) x.c
    let r := dotVal x.ty tb x.sat (x.mod8 == 1#8) (th.span x.a x.ty.dotSpan) (th.span x.b tb.dotSpan) c (th.getV (x.fld 24 8)).toNat
    { d := x.d, w := 32, val := r.bits, flags := r.flags })
  ∧ (∀ x, Gives (.pack x) fun s th =>
    let st : Ty := if x.fld 21 3 == 1#3 then .i32 else .f32
    let j := (x.fld 16 5).toNat
    let a := packElem x.ty (th.rnd x.rnd) x.sat (s.arg' th (litOf x.toOps4) st x.a)
    let b := packElem x.ty (th.rnd x.rnd) x.sat (s.arg' th (litOf x.toOps4) st x.b)
    let old := (s.src th (litOf x.toOps4) x.d 32).toNat
    { d := x.d, w := 32, val := putElem (putElem old x.ty.width j a.bits) x.ty.width (j + 1) b.bits, flags := a.flags ||| b.flags })
  ∧ (∀ x, Gives (.unpk x) fun s th =>
    let w := x.ty.width
    let r := unpkVal x.ty (s.unpkSrc th x / 2 ^ (w * (x.fld 16 5).toNat) % 2 ^ w)
    { d := x.d, w := 32, val := r.bits, flags := r.flags })
  ∧ (∀ x, Gives (.edge x) fun s th =>
    let k (i : Nat) : FVal := decodeF .f32 ((State.src128 th x.a).toNat / 2 ^ (32 * i) % 2 ^ 32)
    let org := s.raw64 th x.toOps4 x.b
    let r := edgeVal (k 0) (k 1) (k 2) (org.extractLsb' 0 32).toInt (org.extractLsb' 32 32).toInt (s.raw32 th x.toOps4 x.c).toNat
    { d := x.d, w := 32, val := r.bits, flags := r.flags })

/-- Over the members of an issue that complete the instruction, in lane order: LEAD elects the first or the last whose predicate
holds, and 32 when there is none; XCH delivers the source position's value and whether it is present, 0 otherwise; XLRED the
whole fold, XLSCAN the fold up to the member or before it; BALLOT the mask and QUORUM the count of the members whose predicate
holds; PEER the mask, size or agreement of the member's class; QBLK the team's values as one MX block. (R160, R161, R164, R169,
R171, R172, R173, R174, R183) -/
def Obligations.LaneResults : Prop :=
  (∀ x, Gives (.lead x) fun s th =>
    let qs := ((s.active (.lead x)).filter fun m => Arith.ps x m 19).map Thread.pos
    let sel := if x.fld 23 1 == 1#1 then qs.getLast? else qs.head?
    { d := x.d, w := 32, val := sel.getD 32, pd := some (x.fld 16 3, sel == some th.pos) })
  ∧ (∀ x, Gives (.xch x) fun s th =>
    let src := (xchSource x th.pos (s.raw32 th x.toOps4 x.b)).bind (atPos (s.active (.xch x)))
    { d := x.d, w := x.ty.regWidth, val := (src.map fun m => s.argA m x).getD 0, pd := some (x.fld 24 3, src.isSome) })
  ∧ (∀ x, Gives (.xlred x) fun s _ =>
    let r := ((prefixes x.ty (x.fld 16 4).toNat ((s.active (.xlred x)).map fun m => s.argA m x)).getLast?).getD (0, 0)
    { d := x.d, w := x.ty.regWidth, val := r.1, flags := r.2 })
  ∧ (∀ x, Gives (.xlscan x) fun s th =>
    let op := (x.fld 16 4).toNat
    let ms := s.active (.xlscan x)
    let rs := prefixes x.ty op (ms.map fun m => s.argA m x)
    let k := (ms.takeWhile fun m => m.pos != th.pos).length
    let r : Nat × FFlags := if x.fld 20 1 == 1#1 then (if k == 0 then (scanIdentity x.ty op, 0) else rs.getD (k - 1) (0, 0))
      else rs.getD k (0, 0)
    { d := x.d, w := x.ty.regWidth, val := r.1, flags := r.2 })
  ∧ (∀ x, Gives (.ballot x) fun s _ =>
    { d := x.d, w := x.ty.regWidth
      val := posMask (((s.active (.ballot x)).filter fun m => Arith.ps x m 16).map Thread.pos) })
  ∧ (∀ x, Gives (.quorum x) fun s _ =>
    let ms := s.active (.quorum x)
    let c := (ms.filter fun m => Arith.ps x m 16).length
    { d := x.d, w := 32, val := c, pd := some (x.fld 20 3, quorumMet (x.fld 23 3).toNat (x.fld 26 6).toNat c ms.length) })
  ∧ (∀ x, Gives (.peer x) fun s th =>
    let ms := s.active (.peer x)
    let cls := (ms.filter fun m => s.argA m x == s.argA th x).map Thread.pos
    match (x.fld 16 2).toNat with
    | 0 => { d := x.d, w := 32, val := posMask cls, pd := some (x.fld 20 3, decide (1 < cls.length)) }
    | 1 => { d := x.d, w := 32, val := cls.length, pd := some (x.fld 20 3, cls.head? == some th.pos) }
    | _ => { d := x.d, w := 32, val := if cls.length == ms.length then posMask cls else 0
             pd := some (x.fld 20 3, cls.length == ms.length) })
  ∧ (∀ x, Gives (.qblk x) fun s th =>
    let val (m : Thread) : FVal := decodeF .f32 (s.arg' m (litOf x.toOps4) .f32 x.a)
    let b := mxScale x.ty ((s.active (.qblk x)).map val)
    let r := mxElem x.ty b.2 (val th)
    { d := x.d, w := 32, val := b.1 * 256 + r.bits, flags := r.flags ||| nvIf (val th).isSnan })

/-- A thread that runs a pair alone receives half 0's result and then half 1's, each computed from the state before the pair by the
instruction that its sub-opcode names, a half whose guard is false delivering nothing; the pair then goes on past its words.
(R53, R55) -/
def Obligations.PairExecutesBothHalves : Prop :=
  ∀ (x : Pair) (s : State) (th : Thread), Alone (.pair x) s th →
    let half (h : Half) (s1 : State) : State :=
      if th.guard h.g then
        let v (o : Opnd) : Nat := (s.src th (x.lit.getD 0) o 32).toNat
        let r := halfVal h (v h.a) (v h.b) (v h.c)
        s1.put th.id { d := h.d, w := 32, val := r.bits, flags := r.flags }
      else s1
    exec (.pair x) s = .next ((half x.h1 (half x.h0 s)).past (.pair x) th)

/-- Delivering a result of 32 bits to a thread: with D a v register, that register holds its low 32 bits, the other v registers
stay, y1 takes y0 and y0 the result; with D y0 only the y file changes; with D the zero code no register changes; with D a
uniform register the group's register holds it, zero-extended. The flags are ORed into the status word, whose other bits stay; a
named predicate takes its value and p7 discards it; every other predicate, the PC, accesses, counters and trap state of the
thread, every other thread, memory, launches and the tile state of groups stay. (R16, R17, R18, R19, R21, R23) -/
def Obligations.ResultReachesOneThread : Prop :=
  ∀ (s : State) (o : Out) (th : Thread), s.thread? th.id = some th → o.w = 32 →
    let t := s.put th.id o
    let low : Word := BitVec.ofNat 32 o.val
    (∃ th2, t.thread? th.id = some th2
      ∧ (∀ n, o.d = .v n → th2.getV n = low ∧ ∀ m, m ≠ n → th2.getV m = th.getV m)
      ∧ ((∀ n, o.d ≠ .v n) → th2.v = th.v) ∧ ((∀ n, o.d ≠ .o n) → th2.o = th.o)
      ∧ (∀ n, o.d = .o n → th2.getO n = low)
      ∧ (opndIsReg o.d = true → th2.y0 = low.setWidth 64 ∧ th2.y1 = th.y0)
      ∧ (opndIsReg o.d = false → th2.y0 = th.y0 ∧ th2.y1 = th.y1)
      ∧ th2.status = th.status ||| o.flags.setWidth 32
      ∧ (∀ n, th2.pred n = match o.pd with
          | some (m, b) => if n = m ∧ n ≠ 7#3 then b else th.pred n
          | none => th.pred n)
      ∧ th2.pc = th.pc ∧ th2.ops = th.ops ∧ th2.cnt = th.cnt ∧ th2.tstate = th.tstate ∧ th2.sup = th.sup ∧ th2.stk = th.stk)
    ∧ (∀ u, u ≠ th.id → t.thread? u = s.thread? u)
    ∧ t.mem = s.mem ∧ t.launches = s.launches ∧ t.cycle = s.cycle ∧ t.caches = s.caches
    ∧ ((∀ n, o.d ≠ .k n) → t.groups = s.groups)
    ∧ (∀ n g, o.d = .k n → s.group? th.group = some g → ∃ g2, t.group? th.group = some g2 ∧ g2.getK n = low.setWidth 64
        ∧ (∀ m, m ≠ n → g2.getK m = g.getK m) ∧ g2.spad = g.spad ∧ g2.slots = g.slots ∧ g2.acc = g.acc ∧ g2.cmds = g.cmds)

/-- For every instruction and every result for each member, the state that an issue with results leaves has the memory of every
kind, launches, queues, caches and the cycle count of the state before it, and threads outside the team are as they were. With
the statements of the results this is the frame of every instruction whose whole effect is a result: arithmetic, logic, moves,
conversions, packed and cross-lane instructions. (R12, R95, R161) -/
def Obligations.ResultIssueLeavesTheRest : Prop :=
  ∀ (s : State) (i : Instr) (f : Thread → Out),
    let t := s.teamPut i f
    t.mem = s.mem ∧ t.launches = s.launches ∧ t.queues = s.queues ∧ t.caches = s.caches ∧ t.cycle = s.cycle ∧ t.rays = s.rays
    ∧ t.gangs = s.gangs ∧ t.control = s.control ∧ t.replies = s.replies ∧ t.oracle = s.oracle
    ∧ (t.groups.map fun g => (g.id, g.spad, g.acc, g.awin, g.slots, g.queues, g.frames, g.cmds, g.engine))
      = (s.groups.map fun g => (g.id, g.spad, g.acc, g.awin, g.slots, g.queues, g.frames, g.cmds, g.engine))
    ∧ (∀ u, u ∉ s.team → t.thread? u = s.thread? u)

/-- BRA and CALL go to the instruction's address plus four times the signed offset, JMP, CALLI and RET to A read before any link is
written; CALL and CALLI write the address after themselves, the compact CALL to y0; a target that may not be fetched from raises
its trap with PC at the instruction, no link and y unchanged. The checks are MISALIGN, RANGE, and for a device thread PROT, in
that order. That a target in a window raises PROT for a direct BRA or CALL too, whose own rule ends with RANGE, is the model's
reading of R188 (log 13). That a trap waits for outstanding loads to the registers of its frame, which TrapsTo states, is its
reading of R29 (log 70). (R120, R121, R122, R188, R29, log 13, log 70) -/
def Obligations.TransfersGoToTheirTargets : Prop :=
  (∀ x, Jumps (.bra x) (fun _ th => th.pc + 4 * x.off.signExtend 64) none)
  ∧ (∀ x, Jumps (.bra96 x) (fun _ th => th.pc + 4 * x.w2.signExtend 64) none)
  ∧ (∀ x, Jumps (.call x) (fun _ th => th.pc + 4 * x.off.signExtend 64) (some .y0))
  ∧ (∀ x, Jumps (.call96 x) (fun _ th => th.pc + 4 * x.w2.signExtend 64) (some x.d))
  ∧ (∀ x, Jumps (.jmp x) (fun s th => s.src th 0 x.a 64) none)
  ∧ (∀ x, Jumps (.jmp96 x) (fun s th => s.raw64 th (x.toArith 0x62).toOps4 (x.toArith 0x62).a) none)
  ∧ (∀ x, Jumps (.calli x) (fun s th => s.src th 0 x.a 64) (some x.d))
  ∧ (∀ x, Jumps (.calli96 x) (fun s th => s.raw64 th (x.toArith 0x63).toOps4 (x.toArith 0x63).a) (some (x.toArith 0x63).d))
  ∧ (∀ x, Jumps (.ret x) (fun s th => s.src th 0 x.a 64) none)
  ∧ (∀ x, Jumps (.ret96 x) (fun s th => s.raw64 th (x.toArith 0x64).toOps4 (x.toArith 0x64).a) none)
  ∧ (∀ (s : State) (th : Thread) (a : Dword),
    s.targetTrap th a = if a.extractLsb' 0 2 ≠ 0#2 then some .misalign
      else if canonical (s.spaceOf th) a = false then some .range
      else if th.unit = .device ∧ s.windowed a = true then some .prot else none)

/-- A thread that runs a NOP, compact or in the 96-bit form, alone goes past it; nothing else of the module changes but, on an
intersection core, the count of issued instructions. (The note of a waiting release and answers from outside that the thread had
asked for, which are the model's own, end with the instruction.) (R127) -/
def Obligations.NopOnlyAdvances : Prop :=
  (∀ x, Does (.nop x) (fun _ _ => True) fun s _ => s) ∧ (∀ x, Does (.nop96 x) (fun _ _ => True) fun s _ => s)
  ∧ decode [0x7AF5E9A4] = .ok (.nop { m := false, b := .zero, a := .zero, d := .zero })
  ∧ (∀ (s : State) (i : Instr) (th : Thread), th.unit ≠ .intersection → s.far = [] → th.relAt = none →
    s.past i th = s.modThread th.id fun x => { x with pc := x.pc + BitVec.ofNat 64 i.len })

/-- WAIT goes on when the four counters are at or below the limits of word 2 and otherwise stays; EXIT ends the thread when its load
and store counters are zero and its accesses have completed to group scope, and otherwise holds it until THREAD_END finds them
so. A thread that ends makes its stores visible to its core and is marked as exited, and while another thread of its group
lives, held at no JOIN or BAR and not halted, nothing else changes. That the end is a release at group scope, since it arrives
at the barriers of its sets, is the model's reading of R165 and R167 (log 74). (R123, R126, R138, R165, R167, log 74) -/
def Obligations.WaitAndExit : Prop :=
  (∀ x : Desc, Does (.wait x) (fun _ th => th.cnt.loads ≤ (x.fld 0 6).toNat ∧ th.cnt.stores ≤ (x.fld 8 6).toNat
      ∧ th.cnt.copies ≤ (x.fld 16 6).toNat ∧ th.cnt.tiles ≤ (x.fld 24 6).toNat) fun s _ => s)
  ∧ (∀ x : Desc, Holds (.wait x) (fun _ th => (x.fld 0 6).toNat < th.cnt.loads ∨ (x.fld 8 6).toNat < th.cnt.stores
      ∨ (x.fld 16 6).toNat < th.cnt.copies ∨ (x.fld 24 6).toNat < th.cnt.tiles) fun s _ => s)
  ∧ (∀ (x : C3) (s : State) (th : Thread), Alone (.exit x) s th → th.cnt.loads = 0 → th.cnt.stores = 0 → s.released th 1 0 = true →
    exec (.exit x) s = .next ((s.endThread th.id).executed th))
  ∧ (∀ (x : Arith) (s : State) (th : Thread), Alone (.exit96 x) s th → th.cnt.loads = 0 → th.cnt.stores = 0 → s.released th 1 0 = true →
    exec (.exit96 x) s = .next ((s.endThread th.id).executed th))
  ∧ (∀ x : C3, Holds (.exit x) (fun s th => th.cnt.loads ≠ 0 ∨ th.cnt.stores ≠ 0 ∨ s.released th 1 0 = false) fun s th => s.holdAt th.id (.exit x) .exit_)
  ∧ (∀ x : Arith, Holds (.exit96 x) (fun s th => th.cnt.loads ≠ 0 ∨ th.cnt.stores ≠ 0 ∨ s.released th 1 0 = false) fun s th => s.holdAt th.id (.exit96 x) .exit_)
  ∧ (∀ (s : State) (th : Thread), s.thread? s.arg.t = some th → th.hold = .exit_ → th.cnt.loads = 0 → th.cnt.stores = 0 →
    th.pend = [] → s.released th 1 0 = true → exec .threadEnd s = .next (s.endThread th.id))
  ∧ (∀ (s : State) (th : Thread), s.thread? th.id = some th →
    (th.unit = .device → (∃ x ∈ s.live th.group, x.id ≠ th.id)
      ∧ ∀ x ∈ s.live th.group, x.id ≠ th.id → holdSet x = none ∧ x.halted = none) →
    s.endThread th.id = (s.markVis th.id 1).modThread th.id fun x => { x with exited := true, hold := .none })

/-- BRK traps with cause BREAK and its code in DETAIL; SVC from 0x80 on traps with cause SVC and its number in DETAIL on a device
thread; SVC below 0x80, once earlier accesses have completed to system scope, queues an SVC event with the launch's ID and the
argument for the launch's service-processor thread and holds the thread with a new tag. That both traps wait until no load to a
register of the trap frame is outstanding is the model's reading of R29 (log 70). (R124, R125, R213, R362, R423, R29, log 70) -/
def Obligations.BreakAndServiceCalls : Prop :=
  (∀ x s th, Alone (.brk x) s th → TrapsTo (.brk x) s th .brk 0 (x.ext.setWidth 32))
  ∧ (∀ x s th, Alone (.svc x) s th → th.unit = .device → x.imm.getLsbD 7 = true →
    TrapsTo (.svc x) s th .svc 0 (x.imm.setWidth 32))
  ∧ (∀ x s th, Alone (.svc96 x) s th → th.unit = .device → (x.fld 16 8).getLsbD 7 = true →
    TrapsTo (.svc96 x) s th .svc 0 ((x.fld 16 8).setWidth 32))
  ∧ (∀ x s th l, Alone (.svc x) s th → th.unit = .device → x.imm.getLsbD 7 = false → s.released th 6 0 = true →
    s.launchOf th = some l → l.queue < s.queues.length →
    ∃ t, exec (.svc x) s = .next t
      ∧ (t.queues.getD l.queue {}).events = (s.queues.getD l.queue {}).events
          ++ [{ kind := 3, code := x.imm.toNat, eid := l.id, tag := BitVec.ofNat 32 s.nextId, datum := 0 }]
      ∧ t.svcs = s.svcs ++ [{ tag := s.nextId, thread := th.id, launch := l.id }]
      ∧ (∃ th2, t.thread? th.id = some th2 ∧ th2.hold = .svc s.nextId .zero ∧ th2.pc = th.pc) ∧ t.mem = s.mem)
  ∧ (∀ x s th l, Alone (.svc96 x) s th → th.unit = .device → (x.fld 16 8).getLsbD 7 = false → s.released th 6 0 = true →
    s.launchOf th = some l → l.queue < s.queues.length →
    ∃ t, exec (.svc96 x) s = .next t
      ∧ (t.queues.getD l.queue {}).events = (s.queues.getD l.queue {}).events
          ++ [{ kind := 3, code := (x.fld 16 8).toNat, eid := l.id, tag := BitVec.ofNat 32 s.nextId
                datum := s.raw64 th x.toOps4 x.a }]
      ∧ (∃ th2, t.thread? th.id = some th2 ∧ th2.hold = .svc s.nextId x.d ∧ th2.pc = th.pc) ∧ t.mem = s.mem)

/-- For a device thread with no OPEN region, TSTATE bit 0 clear, a vector (SX.KVEC for SVC, else SX.TVEC) and SX.TFRAME not zero,
and no byte of the frame lost or in a slice that is out of order, taking a trap writes the 128-byte frame to the thread's stack
at SX.TFRAME, sets TSTATE to the cause, the mode and 1, enters supervisor mode for SVC alone, and sets PC to the vector.
Registers, predicates, status, counters and outstanding accesses of the thread, every other thread, memory and groups are
unchanged. The frame holds cause, flags, pending counters, predicates, status, the trap's PC, the thread's PC, ADDR, the
instruction's words with zeros beyond its length, DETAIL, v0 to v7 within the allocation and y. (R361, R362, R363) -/
def Obligations.TrapEntersTheHandler : Prop :=
  (∀ (s : State) (th : Thread) (tr : Trap), s.thread? th.id = some th → th.unit = .device → (∀ a n, th.region ≠ .opened a n) →
    th.tstate.getLsbD 0 = false → s.tframe th ≠ 0 → s.stackBad th.id (s.tframe th - s.img.stkBase).toNat 128 = false →
    let vec := if tr.cause = .svc then s.img.kvec else s.tvec th
    vec ≠ 0 →
    let t := s.trap th.id tr
    (∃ th2, t.thread? th.id = some th2 ∧ th2.pc = vec
      ∧ th2.tstate = BitVec.ofNat 32 (tr.cause.code * 256 + (if th.sup then 2 else 0) + 1)
      ∧ th2.sup = (th.sup || tr.cause == .svc)
      ∧ stackLoad th.id th2.stk (s.tframe th - s.img.stkBase).toNat 128 = th.frame tr
      ∧ th2.v = th.v ∧ th2.o = th.o ∧ th2.y0 = th.y0 ∧ th2.y1 = th.y1 ∧ th2.p = th.p ∧ th2.status = th.status
      ∧ th2.cnt = th.cnt ∧ th2.ops = th.ops ∧ th2.halted = th.halted)
    ∧ (∀ u, u ≠ th.id → t.thread? u = s.thread? u) ∧ t.mem = s.mem ∧ t.groups = s.groups ∧ t.launches = s.launches)
  ∧ (∀ (th : Thread) (tr : Trap),
    let fr := th.frame tr
    fr.length = 128 ∧ field fr 0 1 = tr.cause.code
    ∧ field fr 1 1 = (if tr.defer then 1 else 0) + (if th.sup then 2 else 0)
    ∧ word fr 4 = th.cnt.word ∧ field fr 8 2 = th.p.toNat ∧ word fr 0xC = th.status ∧ dword fr 0x10 = tr.pc ∧ dword fr 0x18 = th.pc
    ∧ dword fr 0x20 = tr.addr ∧ (∀ i : Nat, i < 5 → word fr (0x28 + 4 * i) = tr.words.getD i 0) ∧ word fr 0x3C = tr.detail
    ∧ (∀ i : Nat, i < 8 → word fr (0x50 + 4 * i) = if i < th.alloc then th.getV (BitVec.ofNat 8 i) else 0)
    ∧ dword fr 0x70 = th.y0 ∧ dword fr 0x78 = th.y1)

/-- A trap of a thread that is not on an intersection core escalates: as nested when TSTATE bit 0 is set, otherwise when its vector
or SX.TFRAME is zero. An escalated thread is halted with the trap, keeps its registers and loses its pending traps; for a device
thread whose group does not settle by it, and for a service-processor thread but for the log entry, nothing else changes. A trap
of a thread on an intersection core stops its core with the trap and writes no frame; its ray then holds the cause with the
faulting address, or the PC of a trap without one, and the walk that comes to the candidate ends with PROGFAULT, status 6, and
them. That a trap has an address when it is deferred or its ADDR is not 0 is the model's reading (log 37). (R363, R364, R369,
R370, R333, R327, R434, log 37) -/
def Obligations.TrapWithoutHandlerHalts : Prop :=
  (∀ (s : State) (th : Thread) (tr : Trap), s.thread? th.id = some th → th.unit ≠ .intersection → (∀ a n, th.region ≠ .opened a n) →
    (th.tstate.getLsbD 0 = true → s.trap th.id tr = s.escalate th.id tr true)
    ∧ (th.tstate.getLsbD 0 = false → ((if tr.cause = .svc then s.img.kvec else s.tvec th) = 0 ∨ s.tframe th = 0) →
      s.trap th.id tr = s.escalate th.id tr false))
  ∧ (∀ (s : State) (th : Thread) (tr : Trap) (nested : Bool), s.thread? th.id = some th →
    let s1 := s.modThread th.id fun x => { x with halted := some tr, nested := nested, haltAt := s.cycle, pend := [] }
    (th.unit = .device → s1.settled th.group = false → s.escalate th.id tr nested = s1)
    ∧ (th.unit = .service → s.escalate th.id tr nested = { s1 with log := s1.log ++ [.firmwareHalt th.tid] }))
  ∧ (∀ (s : State) (th : Thread) (tr : Trap), s.thread? th.id = some th → th.unit = .intersection → (∀ a n, th.region ≠ .opened a n) →
    s.trap th.id tr = s.modThread th.id fun x => { x with halted := some tr, nested := false, haltAt := s.cycle, pend := [] })
  ∧ (∀ (s : State) (r : Ray) (th : Thread) (tr : Trap), r.prog = some th.id → s.thread? th.id = some th → th.halted = some tr →
    s.collectProgram r = s.endProgram th (.fault tr.cause.code (if tr.defer || tr.addr != 0#64 then tr.addr else tr.pc)))
  ∧ (∀ (x : RayRun) (cluster reason : Nat) (c : Cand) (a : Dword) (vs : List Verdict), x.verdicts = .fault reason a :: vs →
    rayStatus (x.ask cluster c) = some (6, reason, a))

/-- A device thread in a handler that runs RTE alone, with no load outstanding to v0 to v7 and no flags or stores to come, and a
frame that can be read and whose reserved bits are zero, goes to RPC of its frame, or past the trapping instruction under .adv
when the trap was not deferred: v0 to v7 within the allocation, y, the predicates, status bits [9:8] and [4:0] come from the
frame, a supervisor-mode thread takes its mode from PMODE and a user-mode one stays in user mode, and TSTATE becomes 0; other v
registers, o registers and accesses stay. Outside a handler RTE raises RANGE, and a target that fails its check traps. That a
reserved bit of the frame raises DESC is the model's reading (log 61), and so is that RTE, and a trap of RTE outside a handler,
wait for outstanding loads to v0 to v7 and for flags (log 70). (R366, R122, R29, log 61, log 70) -/
def Obligations.ReturnFromTrapRestores : Prop :=
  ∀ (x : Desc) (s : State) (th : Thread), Alone (.rte x) s th →
    (th.tstate.getLsbD 0 = false → TrapsTo (.rte x) s th .range 0 0)
    ∧ (th.tstate.getLsbD 0 = true → th.unit = .device → th.busy (List.range 8) = false → th.flagsDue = false → th.writing = false →
      let base := (s.tframe th - s.img.stkBase).toNat
      s.stackBad th.id base 128 = false →
      let fr := stackLoad th.id th.stk base 128
      let s1 := (s.readStack th base 128).1
      let target := if x.w2.getLsbD 0 && !(field fr 1 1).testBit 0 then dword fr 0x18 + BitVec.ofNat 64 (4 * lengthWords (word fr 0x28))
        else dword fr 0x18
      (frameOk fr = false → exec (.rte x) s = .next (s1.trapHere th (encode (.rte x)) .desc 0 0))
      ∧ (∀ c, frameOk fr = true → s.targetTrap th target = some c →
        exec (.rte x) s = .next (s1.trapHere th (encode (.rte x)) c target 0))
      ∧ (frameOk fr = true → s.targetTrap th target = none → ∃ t th2, exec (.rte x) s = .next t ∧ t.thread? th.id = some th2
        ∧ th2.pc = target ∧ th2.tstate = 0 ∧ th2.sup = (th.sup && (field fr 1 1).testBit 1)
        ∧ th2.y0 = dword fr 0x70 ∧ th2.y1 = dword fr 0x78 ∧ th2.p = BitVec.ofNat 7 (field fr 8 2)
        ∧ th2.status = word fr 0xC &&& 0x31F#32
        ∧ (∀ n : BitVec 8, th2.getV n = if n.toNat < 8 ∧ n.toNat < th.alloc then word fr (0x50 + 4 * n.toNat) else th.getV n)
        ∧ th2.o = th.o ∧ th2.ops = th.ops ∧ th2.cnt = th.cnt ∧ t.mem = s.mem ∧ t.groups = s.groups))

/-- MOVIX without .ctx delivers the operand of a legal index at its width, zero-extended, as a register result, an immediate among
them; SETIX without .ctx writes a v, o or k register and leaves y. In a device thread's handler, with .ctx, v0 to v7, y0 and y1
name the frame's copies instead, other registers the live ones, and for MOVIX the literal codes the literal of the frame's
instruction words. An index that names nothing, .ctx outside a handler, a literal code where there is no literal, and a literal,
an immediate or, without .ctx, y for SETIX raise RANGE. That .ctx reads only the bytes of the frame that it needs and checks
none of its reserved bits is the model's reading (log 61); that a trap waits for outstanding loads to the registers of its frame
is its reading of R29 (log 70). (R367, R368, R29, log 61, log 70) -/
def Obligations.IndexedOperandAccess : Prop :=
  (∀ (x : Desc) (o : Opnd) (w : Nat), Does (.movix x) (fun s th => x.w2.getLsbD 0 = false ∧ indexOperand (s.a32 th x) = some (o, w)
      ∧ indexRange o w th.alloc (s.uniforms th) = false ∧ isLit o = false ∧ th.stalled [.src o w] = false)
    fun s th => s.result th.id x.d 64 ((if w == 32 then s.src th 0 o w &&& 0xFFFFFFFF#64 else s.src th 0 o w).setWidth 128))
  ∧ (∀ (x : Desc) (o : Opnd) (w off : Nat), Does (.movix x) (fun s th => x.w2.getLsbD 0 = true ∧ th.unit = .device
      ∧ th.tstate.getLsbD 0 = true ∧ indexOperand (s.a32 th x) = some (o, w) ∧ indexRange o w th.alloc (s.uniforms th) = false
      ∧ isLit o = false ∧ frameAt o = some off ∧ th.writing = false
      ∧ s.stackBad th.id ((s.tframe th - s.img.stkBase).toNat + off) (w / 8) = false)
    fun s th =>
      let at_ := (s.tframe th - s.img.stkBase).toNat + off
      let v : Dword := BitVec.ofNat 64 (ofBytes (stackLoad th.id th.stk at_ (w / 8)))
      (s.readStack th at_ (w / 8)).1.result th.id x.d 64 ((if w == 32 then v &&& 0xFFFFFFFF#64 else v).setWidth 128))
  ∧ (∀ (x : Desc) (o : Opnd) (w : Nat), Does (.setix x) (fun s th => x.w2.getLsbD 0 = false ∧ indexOperand (s.a32 th x) = some (o, w)
      ∧ indexRange o w th.alloc (s.uniforms th) = false ∧ isLit o = false ∧ (∀ b, o ≠ .imm b) ∧ o ≠ .y0 ∧ o ≠ .y1
      ∧ th.stalled [.dst o w] = false)
    fun s th => s.deliver th.id o w ((if w == 32 then s.b64 th x &&& 0xFFFFFFFF#64 else s.b64 th x).setWidth 128))
  ∧ (∀ (x : Desc) (o : Opnd) (w off : Nat), Does (.setix x) (fun s th => x.w2.getLsbD 0 = true ∧ th.unit = .device
      ∧ th.tstate.getLsbD 0 = true ∧ indexOperand (s.a32 th x) = some (o, w) ∧ indexRange o w th.alloc (s.uniforms th) = false
      ∧ frameAt o = some off
      ∧ s.stackDead th.id ((s.tframe th - s.img.stkBase).toNat + off) (if off < 0x70 then w / 8 else 8) = false)
    fun s th =>
      let at_ := (s.tframe th - s.img.stkBase).toNat + off
      let bs := toBytes (if off < 0x70 then w / 8 else 8) (if w == 32 then s.b64 th x &&& 0xFFFFFFFF#64 else s.b64 th x).toNat
      s.writeStack th at_ bs)
  ∧ (∀ (s : State) (th : Thread) (o : Nat) (bs : List Byte), s.thread? th.id = some th →
    (s.writeStack th o bs).thread? th.id = some { th with stk := stackStore th.stk o bs }
      ∧ (s.writeStack th o bs).mem = s.mem ∧ (s.readStack th o bs.length).1.mem = s.mem
      ∧ (s.readStack th o bs.length).1.threads = s.threads)
  ∧ (∀ (x : Desc) (s : State) (th : Thread), Alone (.movix x) s th → x.w2.getLsbD 0 = false → indexOperand (s.a32 th x) = none →
    TrapsTo (.movix x) s th .range 0 0)
  ∧ (∀ (x : Desc) (s : State) (th : Thread), Alone (.setix x) s th → indexOperand (s.a32 th x) = none →
    TrapsTo (.setix x) s th .range 0 0)
  ∧ (∀ (x : Desc) (o : Opnd) (w : Nat), Does (.movix x) (fun s th => x.w2.getLsbD 0 = true ∧ th.tstate.getLsbD 0 = true
      ∧ indexOperand (s.a32 th x) = some (o, w) ∧ indexRange o w th.alloc (s.uniforms th) = false ∧ isLit o = false ∧ frameAt o = none
      ∧ th.stalled [.src o w] = false)
    fun s th => s.result th.id x.d 64 ((if w == 32 then s.src th 0 o w &&& 0xFFFFFFFF#64 else s.src th 0 o w).setWidth 128))
  ∧ (∀ (x : Desc) (o : Opnd) (w : Nat) (s : State) (th : Thread), Alone (.movix x) s th → x.w2.getLsbD 0 = true →
    th.unit = .device → th.tstate.getLsbD 0 = true → indexOperand (s.a32 th x) = some (o, w) → isLit o = true → th.writing = false →
    let at_ := (s.tframe th - s.img.stkBase).toNat + 0x28
    s.stackBad th.id at_ 20 = false →
    let s1 := (s.readStack th at_ 20).1
    (∀ l, frameLit (stackLoad th.id th.stk at_ 20) = some l → exec (.movix x) s = .next (State.past (s1.result th.id x.d 64
      ((if w == 32 then s1.src th l o w &&& 0xFFFFFFFF#64 else s1.src th l o w).setWidth 128)) (.movix x) th))
    ∧ (frameLit (stackLoad th.id th.stk at_ 20) = none → exec (.movix x) s = .next (if th.frameWaits then s.stay th (.movix x)
      else s1.trapHere th (encode (.movix x)) .range 0 0)))
  ∧ (∀ (x : Desc) (o : Opnd) (w : Nat) (s : State) (th : Thread), Alone (.movix x) s th → x.w2.getLsbD 0 = false →
    indexOperand (s.a32 th x) = some (o, w) → isLit o = true → TrapsTo (.movix x) s th .range 0 0)
  ∧ (∀ (x : Desc) (o : Opnd) (w : Nat), Does (.setix x) (fun s th => x.w2.getLsbD 0 = true ∧ th.tstate.getLsbD 0 = true
      ∧ indexOperand (s.a32 th x) = some (o, w) ∧ indexRange o w th.alloc (s.uniforms th) = false ∧ isLit o = false
      ∧ (∀ b, o ≠ .imm b) ∧ frameAt o = none ∧ th.stalled [.dst o w] = false)
    fun s th => s.deliver th.id o w ((if w == 32 then s.b64 th x &&& 0xFFFFFFFF#64 else s.b64 th x).setWidth 128))
  ∧ (∀ (x : Desc) (o : Opnd) (w : Nat) (s : State) (th : Thread), Alone (.setix x) s th → indexOperand (s.a32 th x) = some (o, w) →
    (isLit o = true ∨ (∃ b, o = .imm b) ∨ (x.w2.getLsbD 0 = false ∧ (o = .y0 ∨ o = .y1))) → TrapsTo (.setix x) s th .range 0 0)
  ∧ (∀ (x : Desc) (s : State) (th : Thread), Alone (.movix x) s th → x.w2.getLsbD 0 = true → th.tstate.getLsbD 0 = false →
    TrapsTo (.movix x) s th .range 0 0)
  ∧ (∀ (x : Desc) (s : State) (th : Thread), Alone (.setix x) s th → x.w2.getLsbD 0 = true → th.tstate.getLsbD 0 = false →
    TrapsTo (.setix x) s th .range 0 0)

/-- MOVS within an indexed family's range delivers the register's value, its low 32 bits for a 32-bit destination or register, as a
register result; SETS writes a register's writable fields. SX.FFLAGS reads and writes status bits [4:0], SX.ROUND bits [9:8],
SX.STATUS both and no reserved bit; SX.MODE is the mode; SX.TSTATE and SX.PENDING read as kept; writing SX.TVEC of a device
thread in supervisor mode writes its group's vector and in user mode nothing. A write of SX.TIME in supervisor mode sets the
count that a read in the same cycle returns; in user mode it changes nothing. An index at or beyond a family's size raises RANGE
with no effect; that this trap waits for outstanding loads to the registers of its frame is the model's reading of R29 (log 70),
and the index is read at 32 bits (log 75). (R22, R30, R31, R32, R131, R132, R361, R29, log 70, log 75) -/
def Obligations.SystemRegisterAccess : Prop :=
  (∀ x : Desc, Does (.movs x) (fun s th => s.sysRange th x (s.b32 th x).toNat = false) fun s th =>
    let v := s.readSys th (sysNum x) (s.b32 th x).toNat
    s.result th.id x.d (sysBits x) ((if sysBits x == 32 || !sysWide (sysNum x) then v &&& 0xFFFFFFFF#64 else v).setWidth 128))
  ∧ (∀ x : Desc, Does (.sets x) (fun s th => s.sysRange th x (s.b32 th x).toNat = false) fun s th =>
    s.writeSys th (sysNum x) (s.setsVal th x))
  ∧ (∀ x : Desc, Does (.sxTimeWrite x) (fun _ th => th.sup = true) fun s th =>
    { s with timeSet := s.setsVal th x, timeAt := s.cycle })
  ∧ (∀ x : Desc, Does (.sxTimeWrite x) (fun _ th => th.sup = false) fun s _ => s)
  ∧ (∀ (s : State) (v : Dword), State.time { s with timeSet := v, timeAt := s.cycle } = v)
  ∧ (∀ (s : State) (th : Thread) (i : Nat), s.readSys th 1 i = (th.status &&& 0x1F#32).setWidth 64
    ∧ s.readSys th 2 i = (th.status.extractLsb' 8 2).setWidth 64 ∧ s.readSys th 3 i = th.status.setWidth 64
    ∧ s.readSys th 4 i = (if th.sup then 1 else 0) ∧ s.readSys th 7 i = th.cnt.word.setWidth 64
    ∧ s.readSys th 0x10 i = BitVec.ofNat 64 s.cycle ∧ s.readSys th 0x63 i = th.tstate.setWidth 64)
  ∧ (∀ (s : State) (th : Thread) (v : Dword), s.thread? th.id = some th →
    (∃ th2, (s.writeSys th 1 v).thread? th.id = some th2 ∧ th2.status.extractLsb' 0 5 = v.extractLsb' 0 5
      ∧ th2.status.extractLsb' 5 27 = th.status.extractLsb' 5 27)
    ∧ (∃ th2, (s.writeSys th 2 v).thread? th.id = some th2 ∧ th2.status.extractLsb' 8 2 = v.extractLsb' 0 2
      ∧ th2.status.extractLsb' 0 8 = th.status.extractLsb' 0 8)
    ∧ (∃ th2, (s.writeSys th 3 v).thread? th.id = some th2 ∧ th2.status = v.setWidth 32 &&& 0x31F#32)
    ∧ (th.unit = .device → th.sup = false → s.writeSys th 0x60 v = s)
    ∧ (th.unit = .device → th.sup = true → ∀ g, s.group? th.group = some g →
      ∃ g2, (s.writeSys th 0x60 v).group? th.group = some g2 ∧ g2.tvec = v))
  ∧ (∀ (x : Desc) (s : State) (th : Thread), Alone (.movs x) s th → s.sysRange th x (s.b32 th x).toNat = true →
    TrapsTo (.movs x) s th .range 0 0)
  ∧ (∀ (x : Desc) (s : State) (th : Thread), Alone (.sets x) s th → s.sysRange th x (s.b32 th x).toNat = true →
    TrapsTo (.sets x) s th .range 0 0)

/-- REGION.open commits an OPEN region and opens one that begins at the instruction; REGION.close commits it and leaves none; YIELD
of zero cycles goes on and of more holds the thread for as many, at most 65,535; when those have passed while its group is
resident the thread goes on past the YIELD. (R378, R379) -/
def Obligations.RegionsAndYields : Prop :=
  (∀ x : Desc, Does (.regionOpen x) (fun _ _ => True) fun s th =>
    (s.closeRegion th.id).modThread th.id fun y => { y with region := .opened th.pc (s.closeRegion th.id).nextId })
  ∧ (∀ x : Desc, Does (.regionClose x) (fun _ _ => True) fun s th =>
    (s.closeRegion th.id).modThread th.id fun y => { y with region := .none })
  ∧ (∀ x : Desc, Does (.yield x) (fun s th => s.a32 th x = 0) fun s _ => s)
  ∧ (∀ x : Desc, Holds (.yield x) (fun s th => s.a32 th x ≠ 0) fun s th =>
    s.holdAt th.id (.yield x) (.yield_ (min (s.a32 th x).toNat 65535)))
  ∧ (∀ (s : State) (th : Thread) (n : Nat), s.thread? s.arg.t = some th → th.hold = .yield_ n → s.resident th = true →
    th.holdAt + n ≤ s.cycle → ∃ t th2, exec .yieldExpiry s = .next t ∧ t.thread? th.id = some th2 ∧ th2.hold = .none
      ∧ th2.pc = th.pc + BitVec.ofNat 64 (4 * th.holdWords.length) ∧ th2.v = th.v ∧ t.mem = s.mem ∧ t.groups = s.groups)

/-- Bits [1:0] of word 0 give one word, three words, one word with a literal or three words with a literal: 4, 12, 12 or 20 bytes.
Every well-formed instruction's encoding has that length, an encoding that raises a trap among them, and RTE with advance goes
past the trapping instruction by the length of the frame's first word. (R34) -/
def Obligations.LowBitsGiveTheLength : Prop :=
  (∀ w : Word, 4 * lengthWords w = match (w.getLsbD 1, w.getLsbD 0) with
    | (false, false) => 4
    | (false, true) => 12
    | (true, false) => 12
    | (true, true) => 20)
  ∧ (∀ i : Instr, i.wf = true → i.isStep = false → ∃ w ws, encode i = w :: ws ∧ i.len = 4 * lengthWords w)
  ∧ (∀ (x : Memf), (∃ w ws, encode (.ldmx x) = w :: ws ∧ w.getLsbD 1 = x.lit.isSome ∧ w.getLsbD 0 = true))
  ∧ (∀ (x : CI), (∃ w ws, encode (.ld x) = w :: ws ∧ w.getLsbD 1 = false ∧ w.getLsbD 0 = false))
  ∧ (∀ (x : CI) (l : Dword), (∃ w ws, encode (.ld96 (.ci x l)) = w :: ws ∧ w.getLsbD 1 = true ∧ w.getLsbD 0 = false))
  ∧ (∀ fr : List Byte, (field fr 1 1).testBit 0 = false →
    rteTarget true fr = dword fr 0x18 + BitVec.ofNat 64 (4 * lengthWords (word fr 0x28)))

/-- For every instruction of a thread but those of memory, sample groups and SPAWN, executed by a thread that may issue alone with
no trap pending: a decode trap (ILLEGAL, PRIV or RANGE of a register) is taken whatever the guard; with none and a false guard
the PC advances past the instruction and nothing else happens, but that an instruction that commits an OPEN region commits it.
SVC on a thread that is not a device thread and a privileged instruction in user mode are such decode traps. That the trap waits
for outstanding loads to the registers of its frame (log 70), that an instruction whose guard is false still commits an OPEN
region (log 21), and which operands a decode trap of RANGE reads and which unit and mode a row asks for where the tables leave
it open (log 14), are the model's readings. (R21, R27, R59, R125, R379, R419, R29, log 14, log 21, log 70) -/
def Obligations.ChecksComeBeforeTheEffect : Prop :=
  (∀ (i : Instr) (s : State) (th : Thread), i.isStep = false → instrOp i ≠ 0x72 → (instrOp i < 0x90 ∨ 0x9F < instrOp i) →
    (instrOp i < 0xD8 ∨ 0xDB < instrOp i) →
    s.team = [th.id] → s.thread? th.id = some th → s.canIssue th = true → th.pend = [] →
    (∀ c, s.decodeTrap th i = some c → exec i s = .next (s.trapHere th (encode i) c 0 0))
    ∧ (s.decodeTrap th i = none → th.guard i.guard = false →
      exec i s = .next ((if keepsRegion i then s else s.closeRegion th.id).past i th)))
  ∧ (∀ (s : State) (th : Thread) (x : CI), th.unit ≠ .device → s.decodeTrap th (.svc x) = some .illegal)
  ∧ (∀ (s : State) (th : Thread) (x : Desc), th.unit = .service → th.sup = false →
    s.decodeTrap th (.launchStart x) = some .priv ∨ s.decodeTrap th (.launchStart x) = some .illegal)

/-- A thread that runs LD, ST, LDMX, ATOM or RED alone, with an address that passes its checks, room in its counter and no OPEN
region, and no access outside the module, issues one access at A plus the offset with the instruction's size and operands: it
goes on at the next instruction, its load or store counter rises by one, no register changes, nor, unless the access has failed
on its way, a group or a byte of memory but translation's entry bits, and the access is outstanding. (R28, R128, R129, R130,
R219, R220, R222, R224, R226, R232) -/
def Obligations.MemoryInstructionsIssue : Prop :=
  (∀ x : CI, Issues (.ld x) (fun _ _ => True) fun s th => ldAsk (x.toMemf 0x90 none) (s.memAddr th (x.toMemf 0x90 none)))
  ∧ (∀ x : MForm, Issues (.ld96 x) (fun _ _ => True) fun s th => ldAsk (x.toMemf 0x90) (s.memAddr th (x.toMemf 0x90)))
  ∧ (∀ x : CI, Issues (.st x) (fun _ _ => True) fun s th =>
    stAsk (x.toMemf 0x91 none) (s.memAddr th (x.toMemf 0x91 none)) (s.storeData th (x.toMemf 0x91 none)))
  ∧ (∀ x : MForm, Issues (.st96 x) (fun _ _ => True) fun s th =>
    stAsk (x.toMemf 0x91) (s.memAddr th (x.toMemf 0x91)) (s.storeData th (x.toMemf 0x91)))
  ∧ (∀ x : Memf, Issues (.ldmx x) (fun _ _ => True) fun s th => ldmxAsk x (s.memAddr th x) (s.raw32 th x.toOps4 x.b))
  ∧ (∀ x : Memf, Issues (.atom x) (fun _ _ => True) fun s th =>
    atomAsk x (s.memAddr th x) (s.rmwArg th x x.b) (s.rmwArg th x x.c))
  ∧ (∀ x : Memf, Issues (.red x) (fun _ _ => x.mod8.getLsbD 5 = false) fun s th =>
    redAsk x (s.memAddr th x) (s.rmwArg th x x.b) none)
  ∧ (∀ x : Memf, Issues (.red x) (fun s th => x.mod8.getLsbD 5 = true ∧ (s.raw32 th x.toOps4 x.c).toNat < s.slotCount th)
    fun s th => redAsk x (s.memAddr th x) (s.rmwArg th x x.b) (some (s.raw32 th x.toOps4 x.c).toNat))
  ∧ (∀ (s : State) (th : Thread) (x : Memf), s.memAddr th x = s.src th (litOf x.toOps4) x.a 64 + x.off.signExtend 64)

/-- LD, ST (compact and 96-bit), LDMX, ATOM and RED of a thread that issues alone (not of the service processor; a device thread
with a handler and a frame that can be written; no OPEN region and no access outside the module) trap precisely: MISALIGN when
the address is no multiple of the alignment (the size, and 4 for an LDMX of 12 bytes), else RANGE when it is not canonical; for
a device thread RANGE in the scratchpad window beyond the group's allocation, STACK in the stack window beyond the launch's;
ADDR holds the address. ATOM and RED to the stack raise PROT. That RED checks its slot before its address is the model's reading
(log 58), and so is that the trap waits until no load to a frame register is outstanding (R29, log 70). (R24, R185, R186, R187,
R223, R224, R231, R234, R29, log 58, log 70) -/
def Obligations.AddressTraps : Prop :=
  (∀ (s : State) (th : Thread) (a : Dword) (n k : Nat), 0 < k →
    (a.toNat % k ≠ 0 → s.classify th a n k = .error { cause := .misalign, addr := a })
    ∧ (a.toNat % k = 0 → canonical (s.spaceOf th) a = false → s.classify th a n k = .error { cause := .range, addr := a })
    ∧ (a.toNat % k = 0 → canonical (s.spaceOf th) a = true → th.unit ≠ .device → s.classify th a n k = .ok .global)
    ∧ (a.toNat % k = 0 → canonical (s.spaceOf th) a = true → th.unit = .device →
      (inWindow s.img.spBase a = true → s.scratch th < (a - s.img.spBase).toNat + n →
        s.classify th a n k = .error { cause := .range, addr := a })
      ∧ (inWindow s.img.spBase a = false → inWindow s.img.stkBase a = true →
        s.classify th a n k = if s.stackSize th < (a - s.img.stkBase).toNat + n then .error { cause := .stack, addr := a }
          else .ok (.stack (a - s.img.stkBase).toNat))
      ∧ (inWindow s.img.spBase a = false → inWindow s.img.stkBase a = false → s.classify th a n k = .ok .global)))
  ∧ (∀ x : CI, TrapsOn (.ld x) fun s th => s.BadAddress th (ldAsk (x.toMemf 0x90 none) (s.memAddr th (x.toMemf 0x90 none))))
  ∧ (∀ x : MForm, TrapsOn (.ld96 x) fun s th => s.BadAddress th (ldAsk (x.toMemf 0x90) (s.memAddr th (x.toMemf 0x90))))
  ∧ (∀ x : CI, TrapsOn (.st x) fun s th =>
    s.BadAddress th (stAsk (x.toMemf 0x91 none) (s.memAddr th (x.toMemf 0x91 none)) (s.storeData th (x.toMemf 0x91 none))))
  ∧ (∀ x : MForm, TrapsOn (.st96 x) fun s th =>
    s.BadAddress th (stAsk (x.toMemf 0x91) (s.memAddr th (x.toMemf 0x91)) (s.storeData th (x.toMemf 0x91))))
  ∧ (∀ x : Memf, TrapsOn (.ldmx x) fun s th => s.BadAddress th (ldmxAsk x (s.memAddr th x) (s.raw32 th x.toOps4 x.b)))
  ∧ (∀ x : Memf,
    let q (s : State) (th : Thread) : Ask := atomAsk x (s.memAddr th x) (s.rmwArg th x x.b) (s.rmwArg th x x.c)
    TrapsOn (.atom x) (fun s th => s.BadAddress th (q s th)) ∧ TrapsOn (.atom x) (fun s th => s.NotOnStack th (q s th)))
  ∧ (∀ x : Memf, x.mod8.getLsbD 5 = false →
    let q (s : State) (th : Thread) : Ask := redAsk x (s.memAddr th x) (s.rmwArg th x x.b) none
    TrapsOn (.red x) (fun s th => s.BadAddress th (q s th)) ∧ TrapsOn (.red x) (fun s th => s.NotOnStack th (q s th)))
  ∧ (∀ x : Memf, x.mod8.getLsbD 5 = true →
    let n (s : State) (th : Thread) : Nat := (s.raw32 th x.toOps4 x.c).toNat
    let q (s : State) (th : Thread) : Ask := redAsk x (s.memAddr th x) (s.rmwArg th x x.b) (some (n s th))
    TrapsOn (.red x) (fun s th b => n s th < s.slotCount th ∧ s.BadAddress th (q s th) b)
    ∧ TrapsOn (.red x) (fun s th b => n s th < s.slotCount th ∧ s.NotOnStack th (q s th) b))
  ∧ (∀ (ty : Ty) (op o : Nat) (b c : Dword) (n : Option Nat),
    classTrap (.atom ty op b c) (.stack o) = true ∧ classTrap (.red ty op b n) (.stack o) = true)

/-- A load of local memory or the scratchpad that may read completes with the bytes there, where no store of its core to them is
unperformed; with the bytes of the thread's own earlier store to exactly them, where that store is the only one. Loads of one
issue that name a common word of the scratchpad, and entered the queues of its banks together, take their values at one instant,
none before all of them may. LD of .i8 sign-extends, other types zero-extend. The value reaches the destination, the load
counter falls, and no other register, no memory and no group changes. (R25, R28, R129, R192, R206) -/
def Obligations.LoadsDeliverWhatMemoryHolds : Prop :=
  (∀ (s : State) (th : Thread) (a : Access) (ty : Ty) (pa cache : Nat), s.access? s.arg.a = some (th, a) → a.op = .ld ty →
    a.fixed = false → a.half = 0 → a.place = .dram pa cache → a.tail = none → pa < dramEnd → s.mayRead th a = true →
    s.arg.early = none → (∀ l ∈ linesOf pa a.size, s.badLine l = false) →
    (s.unperformed th a = [] → ∃ s1 : State, exec .loadComplete s = .next (s1.finishLoad th a (loadVal ty (s.mem.load pa a.size)) 0)
      ∧ s1.mem = s.mem ∧ s1.threads.map Thread.bare = s.threads.map Thread.bare ∧ s1.groups = s.groups ∧ s1.unacked = s.unacked)
    ∧ (∀ b d c2, s.unperformed th a = [b] → b ∈ th.ops → b.op = .st d → b.place = .dram pa c2 → d.length = a.size →
      ∃ s1 : State, exec .loadComplete s = .next (s1.finishLoad th a (loadVal ty d) 0) ∧ s1.mem = s.mem
        ∧ s1.threads.map Thread.bare = s.threads.map Thread.bare))
  ∧ (∀ (s : State) (th : Thread) (a : Access) (ty : Ty) (o : Nat) (g : Group), s.access? s.arg.a = some (th, a) → a.op = .ld ty →
    a.fixed = false → a.half = 0 → a.place = .spad o → a.tail = none → s.mayRead th a = true → s.arg.early = none →
    s.merged th a = [a] → s.unperformed th a = [] → s.group? th.group = some g →
    ∃ s1 : State, exec .loadComplete s = .next (s1.finishLoad th a (loadVal ty (g.spad.load o a.size)) 0) ∧ s1.mem = s.mem
      ∧ s1.threads.map Thread.bare = s.threads.map Thread.bare ∧ s1.groups = s.groups)
  ∧ (∀ (s : State) (th : Thread) (a : Access) (ty : Ty) (v : Nat) (n : BitVec 8), s.Homely → s.thread? th.id = some th → a.op = .ld ty →
    a.dst = .v n →
    ∃ th2, (s.finishLoad th a v 0).thread? th.id = some th2 ∧ th2.cnt = unbump a.op th.cnt ∧ (s.finishLoad th a v 0).mem = s.mem
      ∧ (s.finishLoad th a v 0).groups.map Group.bare = s.groups.map Group.bare
      ∧ th2.pc = th.pc ∧ th2.o = th.o ∧ th2.y0 = th.y0 ∧ th2.y1 = th.y1 ∧ th2.p = th.p
      ∧ th2.status = th.status ∧ (∀ b ∈ th2.ops, b.id ≠ a.id)
      ∧ (ty.regWidth = 32 → ∀ m, th2.getV m = if m = n then BitVec.ofNat 32 v else th.getV m)
      ∧ (ty.regWidth = 64 → ∀ m, th2.getV m = if m = n then BitVec.ofNat 32 v
          else if m = n + 1 then BitVec.ofNat 32 (v / 2 ^ 32) else th.getV m))
  ∧ (∀ b : Byte, loadVal .i8 [b] = (b.signExtend 32).toNat ∧ loadVal .n8 [b] = b.toNat)
  ∧ (∀ b c : Byte, loadVal .b16 [b, c] = b.toNat + 256 * c.toNat)
  ∧ (∀ (s : State) (th : Thread) (a b c : Access) (ty : Ty) (o : Nat) (ms : List Access), s.access? s.arg.a = some (th, a) → a.op = .ld ty →
    a.fixed = false → a.half = 0 → a.place = .spad o → s.mayRead th a = true → s.merged th a = b :: c :: ms →
    (∀ (s1 : State) (th1 : Thread) (a1 : Access), s.fixLoads (b :: c :: ms) = some s1 → s1.access? a.id = some (th1, a1) →
      exec .loadComplete s = .next (s1.finishRead th1 a1 a1.value))
    ∧ (∀ (x : Thread) (e : Access), s.access? b.id = some (x, e) → s.mayRead x e = false → exec .loadComplete s = .next s))

/-- A store that may perform, plain by WRITE_PERFORM and a release by RELEASE_WRITE_PERFORM, writes its bytes at its place in local
memory, whose slice is in order, or in its group's scratchpad: every other byte, register and group stays. Stores of one issue
to a common word of the scratchpad perform together. STORE_COMPLETE of a performed store lowers the store counter by one and
changes no memory and no register; a reduction with a slot then sends its arrival, after those of its thread's earlier
reductions on the slot. (R28, R130, R192, R204, R206, R222, R234, R243, R433) -/
def Obligations.WritesPerformAtTheirBytes : Prop :=
  (∀ (s : State) (th : Thread) (a : Access) (d : List Byte) (pa cache : Nat), s.access? s.arg.a = some (th, a) → a.op = .st d →
    a.place = .dram pa cache → a.tail = none → pa < dramEnd → a.buffered = false → a.half = 0 → s.mayWrite th a = true →
    s.linkFail a.place a.size = none → s.Homely → s.mem.wf = true →
    ∃ t, (exec .writePerform s = .next (if a.order.rel then s else t)) ∧ (exec .releaseWritePerform s = .next (if a.order.rel then t else s))
      ∧ s.mem.Put t.mem pa d ∧ t.groups.map Group.bare = s.groups.map Group.bare ∧ (∀ u, (t.thread? u).map Thread.v = (s.thread? u).map Thread.v)
      ∧ t.launches = s.launches)
  ∧ (∀ (s : State) (th : Thread) (a : Access) (d : List Byte) (o : Nat) (g : Group), s.access? s.arg.a = some (th, a) → a.op = .st d →
    a.place = .spad o → a.tail = none → a.buffered = false → a.half = 0 → s.mayWrite th a = true → s.merged th a = [a] → s.Homely → s.group? th.group = some g → g.spad.wf = true →
    ∃ t g2, (exec .writePerform s = .next (if a.order.rel then s else t)) ∧ (exec .releaseWritePerform s = .next (if a.order.rel then t else s))
      ∧ t.group? th.group = some g2 ∧ g.spad.Put g2.spad o d ∧ g2.k = g.k ∧ t.mem = s.mem
      ∧ ∀ u, u ≠ th.group → (t.group? u).map Group.bare = (s.group? u).map Group.bare)
  ∧ (∀ (s : State) (th : Thread) (a : Access) (d : List Byte), s.access? s.arg.a = some (th, a) → s.thread? th.id = some th →
    a.op = .st d → a.counted = true → a.fixed = true → s.Homely →
    ∃ t th2, exec .storeComplete s = .next t ∧ t.thread? th.id = some th2 ∧ th2.cnt = unbump a.op th.cnt ∧ th2.v = th.v
      ∧ th2.pc = th.pc ∧ t.mem = s.mem ∧ t.groups.map Group.bare = s.groups.map Group.bare)
  ∧ (∀ (s : State) (th : Thread) (a : Access) (ty : Ty) (op n : Nat) (b : Dword), s.access? s.arg.a = some (th, a) →
    a.op = .red ty op b (some n) → a.counted = true → a.fixed = true →
    exec .storeComplete s = .next (if arrivesNext th a then
      ((((s.modThread th.id fun x => { x with cnt := unbump a.op x.cnt }).dropAccess th.id a.id).slotEvent
        th.group n 1 0 0 (some (a.issuer th)))).sweep else s))
  ∧ (∀ (s t : State) (th : Thread) (a : Access) (d : List Byte) (o : Nat), s.access? s.arg.a = some (th, a) → a.op = .st d →
    a.place = .spad o → a.tail = none → a.buffered = false → s.mayWrite th a = true → s.storeAll (s.merged th a) = some t →
    (exec .writePerform s = .next (if a.order.rel then s else t)) ∧ (exec .releaseWritePerform s = .next (if a.order.rel then t else s)))

/-- An ATOM or RED of local memory that may perform reads its location, forms the new value and writes it in one step, with no other
byte changed; ATOM delivers the old value. The operations are sum (integers wrap, floats round to nearest even), minimum,
maximum, and, or, exclusive or, exchange, and exchange on equality with C, which else writes nothing and then waits for no
release. (R212, R226, R227, R228, R232, R233) -/
def Obligations.AtomicsReadModifyWrite : Prop :=
  (∀ (s : State) (th : Thread) (a : Access) (ty : Ty) (op : Nat) (b c : Dword) (pa cache : Nat), s.access? s.arg.a = some (th, a) →
    a.op = .atom ty op b c → a.fixed = false → a.place = .dram pa cache → a.tail = none → pa < dramEnd →
    (∀ l ∈ linesOf pa a.size, s.badLine l = false) →
    s.mayWrite th a = true → s.mem.wf = true →
    let old := ofBytes (s.mem.load pa a.size)
    ∃ s1 : State, exec .loadComplete s = .next (s1.finishLoad th a old (match atomNew ty op old b.toNat c.toNat with
        | some (_, f) => if a.dst == .zero then 0 else f
        | none => 0))
      ∧ s1.threads.map Thread.bare = s.threads.map Thread.bare ∧ s1.groups = s.groups
      ∧ match atomNew ty op old b.toNat c.toNat with
        | some (new, _) => s.mem.Put s1.mem pa (toBytes a.size new)
        | none => s1.mem = s.mem)
  ∧ (∀ (s : State) (th : Thread) (a : Access) (ty : Ty) (op : Nat) (b : Dword) (slot : Option Nat) (pa cache : Nat),
    s.access? s.arg.a = some (th, a) → a.op = .red ty op b slot → a.order.rel = false → a.buffered = false →
    a.place = .dram pa cache → a.tail = none → pa < dramEnd → (∀ l ∈ linesOf pa a.size, s.badLine l = false) →
    s.linkFail a.place a.size = none → s.mayWrite th a = true → s.mem.wf = true → s.Homely →
    ∃ t, exec .writePerform s = .next t ∧ t.groups.map Group.bare = s.groups.map Group.bare ∧ (∀ u, (t.thread? u).map Thread.v = (s.thread? u).map Thread.v)
      ∧ match atomNew ty op (ofBytes (s.mem.load pa a.size)) b.toNat 0 with
        | some (new, _) => s.mem.Put t.mem pa (toBytes a.size new)
        | none => t.mem = s.mem)
  ∧ (∀ (ty : Ty) (x b c : Nat), ty = .b32 ∨ ty = .i32 ∨ ty = .n32 ∨ ty = .b64 ∨ ty = .i64 ∨ ty = .n64 →
    atomNew ty 0 x b c = some ((x + b) % 2 ^ ty.width, 0)
    ∧ atomNew ty 1 x b c = some (if decodeI ty b < decodeI ty x then b else x, 0)
    ∧ atomNew ty 2 x b c = some (if decodeI ty x < decodeI ty b then b else x, 0)
    ∧ atomNew ty 3 x b c = some (x &&& b, 0) ∧ atomNew ty 4 x b c = some (x ||| b, 0) ∧ atomNew ty 5 x b c = some (x ^^^ b, 0)
    ∧ atomNew ty 6 x b c = some (b, 0) ∧ atomNew ty 7 x b c = if x = c then some (b, 0) else none)
  ∧ (∀ (x b c : Nat), atomNew .f32 0 x b c = some ((fadd .f32 .rne x b).bits, (fadd .f32 .rne x b).flags))
  ∧ (∀ (s : State) (th : Thread) (a : Access) (ty : Ty) (b c : Dword) (pa cache : Nat), s.access? s.arg.a = some (th, a) →
    a.op = .atom ty 7 b c → a.fixed = false → a.place = .dram pa cache → a.tail = none → pa < dramEnd →
    (∀ l ∈ linesOf pa a.size, s.badLine l = false) → s.inTurn th a = true → s.mayWrite th a = false →
    ofBytes (s.mem.load pa a.size) ≠ c.toNat →
    ∃ s1 : State, exec .loadComplete s = .next (s1.finishLoad th a (ofBytes (s.mem.load pa a.size)) 0) ∧ s1.mem = s.mem
      ∧ s1.threads.map Thread.bare = s.threads.map Thread.bare ∧ s1.groups = s.groups)

/-- A FENCE at thread scope only advances. A release fence keeps, in a list that holds later writes, each earlier access that has
not completed to its scope (at group scope, also not those that its core can read already); an acquire fence makes later
accesses wait for each earlier read of its storage whose value is not fixed; a release fence behind an access that has failed or
waits for a page stays. IFENCE waits for the store counter, unperformed stores, acquires and the writes that come before it, and
then later fetches see all code written. CWB and CINVAL issue a counted line operation, of no effect on a scratchpad address,
and act on the caches when they complete, of any unit on the levels beyond the home slice; PREF changes caches alone. What
IFENCE waits for beyond the thread's own stores (log 18), that CWB and CINVAL pass a failure of the OWNER check with no effect
(log 25), and what an acquire fence takes over from earlier reads (log 63) are the model's readings. (R26, R202, R204, R235,
R236, R237, R238, log 18, log 25, log 63) -/
def Obligations.FencesAndLineOperations : Prop :=
  (∀ x : Memf, Does (.fence x) (fun _ _ => x.agent = 0#3) fun s _ => s)
  ∧ (∀ (x : Memf) (s : State) (th : Thread), Alone (.fence x) s th → s.Homely → x.agent ≠ 0#3 →
    (x.ord.getLsbD 1 = true → parkedBy th (memOrder x) = false) →
    ∃ t th2, exec (.fence x) s = .next t ∧ t.thread? th.id = some th2 ∧ th2.pc = th.pc + BitVec.ofNat 64 (Instr.fence x).len
      ∧ th2.v = th.v ∧ th2.o = th.o ∧ th2.y0 = th.y0 ∧ th2.y1 = th.y1 ∧ th2.p = th.p ∧ th2.status = th.status ∧ th2.cnt = th.cnt
      ∧ t.mem = s.mem ∧ t.groups.map Group.bare = s.groups.map Group.bare ∧ t.launches = s.launches
      ∧ (x.ord.getLsbD 1 = true → ∀ a ∈ th.ops, completed (memOrder x) a = false → (x.agent = 1#3 → s.canSee th a = false) →
        ∃ f ∈ th2.fences, f.order = memOrder x ∧ a.id ∈ f.waits)
      ∧ (x.ord.getLsbD 0 = true → ∀ a ∈ th.ops, a.op.isLoad = true → a.fixed = false → a.buffered = false → a.vis = false →
        covers (memOrder x) a.place = true → ∃ q ∈ th2.acqs, a.id ∈ q.waits ∧ q.order = memOrder x))
  ∧ (∀ x : Memf, Holds (.fence x) (fun _ th => x.agent ≠ 0#3 ∧ x.ord.getLsbD 1 = true ∧ parkedBy th (memOrder x) = true) fun s _ => s)
  ∧ (∀ x : Arith, Does (.ifence x) (fun s th => th.cnt.stores = 0 ∧ th.writing = false ∧ th.acqs = [] ∧ ∀ i ∈ th.saw, s.ended i = true)
    fun s th => s.modThread th.id fun y => { y with fresh := s.code.length })
  ∧ (∀ x : Arith, Holds (.ifence x) (fun s th => th.cnt.stores ≠ 0 ∨ th.writing = true ∨ th.acqs ≠ []
      ∨ ∃ i ∈ th.saw, s.ended i = false) fun s _ => s)
  ∧ (∀ (x : Memf) (s s1 : State) (th : Thread) (p : Place), Alone (.cwb x) s th → s.Homely → (∀ a n, th.region ≠ .opened a n) →
    th.cnt.stores < 63 → acqHolds th p = false → p.far = false →
    (s.classify th (s.memAddr th x) 1 1 = .ok .global ∧ s.newId.2.linePlace th (s.memAddr th x) = (s1, p)
      ∨ (∃ o, s.classify th (s.memAddr th x) 1 1 = .ok (.spad o)) ∧ p = .nowhere ∧ s1 = s
      ∨ (∃ b, s.classify th (s.memAddr th x) 1 1 = .error b ∧ b.cause = .owner) ∧ p = .nowhere ∧ s1 = s
      ∨ (∃ o, s.classify th (s.memAddr th x) 1 1 = .ok (.stack o) ∧ p = s.newId.2.lineAt th.id (s.memAddr th x) (.stack o)) ∧ s1 = s) →
    ∃ t, exec (.cwb x) s = .next t ∧ Issued (.cwb x) s th
      { op := .cwb (x.mod8.extractLsb' 0 2).toNat, va := s.memAddr th x, size := 1, align := 1, kind := .read } p none s1 t)
  ∧ (∀ (x : Memf) (s s1 : State) (th : Thread) (p : Place), Alone (.cinval x) s th → s.Homely → (∀ a n, th.region ≠ .opened a n) →
    th.cnt.stores < 63 → acqHolds th p = false → p.far = false →
    (s.classify th (s.memAddr th x) 1 1 = .ok .global ∧ s.newId.2.linePlace th (s.memAddr th x) = (s1, p)
      ∨ (∃ o, s.classify th (s.memAddr th x) 1 1 = .ok (.spad o)) ∧ p = .nowhere ∧ s1 = s
      ∨ (∃ b, s.classify th (s.memAddr th x) 1 1 = .error b ∧ b.cause = .owner) ∧ p = .nowhere ∧ s1 = s
      ∨ (∃ o, s.classify th (s.memAddr th x) 1 1 = .ok (.stack o) ∧ p = s.newId.2.lineAt th.id (s.memAddr th x) (.stack o)) ∧ s1 = s) →
    ∃ t, exec (.cinval x) s = .next t ∧ Issued (.cinval x) s th
      { op := .cinval (x.mod8.extractLsb' 0 2).toNat, va := s.memAddr th x, size := 1, align := 1, kind := .read } p none s1 t)
  ∧ (∀ (s : State) (th : Thread) (a : Access) (pa c core : Nat), a.place = .dram pa c → s.cacheCore th = some core →
    (a.op = .cwb 1 → ∀ d ∈ (s.lineEffect th a).caches.dirty, d.line ≠ lineOf pa)
    ∧ (a.op = .cinval 0 → (core, lineOf pa) ∉ (s.lineEffect th a).caches.l0)
    ∧ (a.op = .cinval 1 → (core / 32, lineOf pa) ∉ (s.lineEffect th a).caches.l1
      ∧ ∀ e ∈ (s.lineEffect th a).caches.l0, e.1 / 32 = core / 32 → e.2 ≠ lineOf pa)
    ∧ (a.op = .cinval 2 → (∀ e ∈ (s.lineEffect th a).caches.l0, e.1 < 512 → e.2 ≠ lineOf pa)
      ∧ (∀ e ∈ (s.lineEffect th a).caches.l1, e.1 < 16 → e.2 ≠ lineOf pa) ∧ lineOf pa ∉ (s.lineEffect th a).caches.slc)
    ∧ (s.lineEffect th a).mem = s.mem)
  ∧ (∀ (x : Memf) (s : State) (th : Thread), Alone (.pref x) s th →
    ∃ s1 : State, exec (.pref x) s = .next (s1.past (.pref x) th) ∧ s1.mem = s.mem ∧ s1.threads = s.threads ∧ s1.groups = s.groups
      ∧ s1.launches = s.launches ∧ s1.tlb = s.tlb)
  ∧ (∀ (s : State) (th : Thread) (a : Access) (pa c : Nat), a.place = .dram pa c → s.cacheCore th = none →
    (a.op = .cwb 1 → ∀ d ∈ (s.lineEffect th a).caches.dirty, d.line ≠ lineOf pa)
    ∧ (a.op = .cinval 2 → (∀ e ∈ (s.lineEffect th a).caches.l0, e.1 < 512 → e.2 ≠ lineOf pa)
      ∧ (∀ e ∈ (s.lineEffect th a).caches.l1, e.1 < 16 → e.2 ≠ lineOf pa) ∧ lineOf pa ∉ (s.lineEffect th a).caches.slc)
    ∧ (a.op = .cwb 0 ∨ a.op = .cinval 0 ∨ a.op = .cinval 1 → s.lineEffect th a = s) ∧ (s.lineEffect th a).mem = s.mem)

/-- DEFERRED_FAULT abandons a failed access: its counter falls and a deferred trap with its cause, address, PC and words becomes
pending, with registers and memory unchanged; a reduction that failed on the fabric faults the slot it names, after the events
of its thread's earlier reductions on it. TAKE_PENDING_TRAP takes the pending trap that is first in program order, unless an
access before it in program order has failed too, and a trap whose entry the thread waits for. FETCH_FAULT raises the fetch's
failure precisely at the PC. FLAGWORD_OR ORs one set of flags into the launch's flag word. HALT_RECORD_TIMEOUT writes the record
of a thread halted 65,536 cycles ago. That a trap waits until no load to a register of its frame is outstanding is the model's
reading of R29 (log 70). (R28, R29, R229, R234, R243, R357, R358, R359, R370, R391, log 70) -/
def Obligations.FailedAccessesTrapLater : Prop :=
  (∀ (s : State) (th : Thread) (a : Access) (f : Fail) (at_ : Dword), s.access? s.arg.a = some (th, a) → s.thread? th.id = some th →
    a.place = .failed f at_ → th.exited = false → th.halted = none → s.Homely → (f.cause ≠ .fabric ∨ a.op.redSlot = none) →
    ∃ t th2, exec .deferredFault s = .next t ∧ t.thread? th.id = some th2 ∧ th2.cnt = (if a.counted then unbump a.op th.cnt else th.cnt)
      ∧ (∀ b ∈ th2.ops, b.id ≠ a.id) ∧ (∃ tr ∈ th2.pend, tr.cause = f.cause ∧ tr.addr = at_ ∧ tr.detail = f.detail ∧ tr.pc = a.pc
        ∧ tr.words = a.words ∧ tr.defer = true ∧ tr.order = a.id)
      ∧ th2.v = th.v ∧ th2.pc = th.pc ∧ t.mem = s.mem ∧ t.groups.map Group.bare = s.groups.map Group.bare)
  ∧ (∀ (s : State) (th : Thread) (a : Access) (f : Fail) (at_ : Dword) (n : Nat), s.access? s.arg.a = some (th, a) →
    a.place = .failed f at_ → f.cause = .fabric → a.op.redSlot = some n →
    let s1 := s.faultSlot th.group n f a.va (some (a.issuer th))
    let tr : Trap := { cause := f.cause, pc := a.pc, words := a.words, addr := at_, detail := f.detail, defer := true, order := a.id, dst := a.dst }
    exec .deferredFault s = .next (if arrivesNext th a then
      State.sweep ((State.dropAccess { s1 with unacked := s1.unacked.filter fun u => u.2.1 != a.id } th.id a.id).modThread th.id fun x =>
        { x with
          cnt := if a.counted then unbump a.op x.cnt else x.cnt
          pend := if x.exited || x.halted.isSome then x.pend else x.pend ++ [tr] })
      else s))
  ∧ (∀ (s : State) (th : Thread), s.thread? s.arg.t = some th → s.canIssue th = true → th.pend ≠ [] →
    ∃ tr ∈ th.pend, (∀ x ∈ th.pend, tr.order ≤ x.order)
      ∧ let rest := th.pend.filter fun y => y.order != tr.order
        exec .takePendingTrap s = .next (if th.frameWaits || th.ops.any (fun a => a.id < tr.order && a.isFailed) then s
          else (s.trap th.id tr).modThread th.id fun x => { x with must := !rest.isEmpty }))
  ∧ (∀ (s s1 : State) (th : Thread) (f : Fail) (va : Dword) (ws : List Word), s.team = [th.id] → s.thread? th.id = some th →
    s.canIssue th = true → th.pend = [] → s.fetch th th.fresh = (s1, .fault f va ws) →
    exec .fetchFault s = .next (s1.trapHere th ws f.cause va f.detail))
  ∧ (∀ (s s1 : State) (l : Launch) (f : FFlags) (rest : List FFlags) (e : Dword) (lv pa c : Nat), s.launch? s.arg.l = some l →
    l.flagOrs = f :: rest → s.translate l.space (l.lr.flagWord &&& ~~~3#64) .write false = (s1, .ok e lv) →
    s1.physPlace e (leafPa e lv (l.lr.flagWord &&& ~~~3#64)) 4 true false = .dram pa c → c ≠ 2 → pa < dramEnd →
    (∀ l ∈ linesOf pa 4, s1.badLine l = false) → s1.mem.wf = true →
    ∃ t, exec .flagwordOr s = .next t ∧ s1.mem.Put t.mem pa (toBytes 4 (ofBytes (s1.mem.load pa 4) ||| f.toNat)) ∧ t.threads = s1.threads
      ∧ t.groups = s1.groups)
  ∧ (∀ (s : State) (th : Thread), s.thread? s.arg.t = some th → th.unit = .device → th.recorded = false →
    (th.halted.isSome = true → th.haltAt + 65536 ≤ s.cycle → exec .haltRecordTimeout s = .next (s.haltRecord th false))
    ∧ (s.cycle < th.haltAt + 65536 → exec .haltRecordTimeout s = .next s))
  ∧ (∀ (s : State) (th : Thread) (tr : Trap), s.thread? s.arg.t = some th → th.hold = .trap tr → exec .takePendingTrap s = .next (
    if s.eligible th && !th.frameWaits then (s.modThread th.id fun x => { x with hold := .none }).trap th.id tr else s))

/-- Up to 14,000,000 cycles after issue, FABRIC_RESPONSE to a sent access delivers a load's or an atomic's bytes, marks a store or a
reduction as performed, or, for a refusal (code 2) or a loss (code 4), fails the access with that code; a report of another code
changes nothing, and FABRIC_TIMEOUT does nothing. From then on an answer of any kind is discarded, and it or FABRIC_TIMEOUT
fails the access with code 3. A request of another agent keeps its answer, or its failure, in the same way, and a load that
waits for a host fails at the same time. A failed load has its failure as its place, and no register and no byte of memory has
changed. FABRIC_PATH_LOSS marks a device as lost, and later accesses to it fail with FABRIC code 4; SEND_WINDOW_ROOM lets
exactly the teams go on whose send window has room. (R413, R414, R415, R416, R417) -/
def Obligations.FabricAnswersAndLosses : Prop :=
  (∀ (s : State) (th : Thread) (a : Access), s.access? s.arg.a = some (th, a) → a.place.far = true → a.tail = none → a.sent = true →
    a.fixed = false → a.half = 0 → s.arg.n = 0 →
    let s1 : State := { s with unacked := s.unacked.filter fun u => u.2.1 != a.id }
    let bs := (s.arg.data ++ List.replicate a.size 0).take a.size
    (s.cycle < a.born + 14000000 →
      (∀ ty, s.arg.detail = none → a.op = .ld ty → a.bufs = [] →
        exec .fabricResponse s = .next (s1.finishLoad th a (loadVal ty bs) 0))
      ∧ (∀ d, s.arg.detail = none → a.op = .st d →
        exec .fabricResponse s = .next (s1.modAccess th.id a.id fun x => { x with half := 3, fixed := true }).sweep)
      ∧ (∀ ty op b c, s.arg.detail = none → a.op = .atom ty op b c →
        exec .fabricResponse s = .next ((s1.stickyFlags th s.arg.flags).finishLoad th a (ofBytes bs) (if a.dst == .zero then 0 else s.arg.flags)))
      ∧ (∀ ty op b slot, s.arg.detail = none → a.op = .red ty op b slot → exec .fabricResponse s
        = .next ((s1.stickyFlags th s.arg.flags).modAccess th.id a.id fun x => { x with half := 3, fixed := true }).sweep)
      ∧ (∀ c, s.arg.detail = some c → exec .fabricResponse s = .next (
        if c = 2 ∨ c = 4 then s.failAt th a (farFail a.place c.toNat) else s))
      ∧ exec .fabricTimeout s = .next s)
    ∧ (a.born + 14000000 ≤ s.cycle → exec .fabricTimeout s = .next (s.failAt th a (farFail a.place 3))
      ∧ exec .fabricResponse s = .next (s.failAt th a (farFail a.place 3))))
  ∧ (∀ (s : State) (x : FarReq), s.access? s.arg.a = none → s.far.find? (fun x => x.id == s.arg.a) = some x → x.place.far = true →
    x.sent = true → x.answer = .none →
    (s.cycle < x.born + 14000000 →
      (s.arg.detail = none → exec .fabricResponse s = .next (s.answerFar x.id (.data s.arg.data s.arg.flags)))
      ∧ (∀ c, s.arg.detail = some c → exec .fabricResponse s = .next (
        if c = 2 ∨ c = 4 then s.answerFar x.id (.fail (farFail x.place c.toNat)) else s))
      ∧ exec .fabricTimeout s = .next s)
    ∧ (x.born + 14000000 ≤ s.cycle → exec .fabricTimeout s = .next (s.answerFar x.id (.fail (farFail x.place 3)))
      ∧ exec .fabricResponse s = .next (s.answerFar x.id (.fail (farFail x.place 3)))))
  ∧ (∀ s : State, (∀ x ∈ s.threads, ∀ a ∈ x.ops, ∀ p ∈ a.pieces, remoteDev p.1 ≠ some s.arg.n) →
    (∀ x ∈ s.far, remoteDev x.place ≠ some s.arg.n) →
    s.arg.n ∉ s.lostPaths → exec .fabricPathLoss s = .next { s with lostPaths := s.lostPaths ++ [s.arg.n] })
  ∧ (∀ (s : State) (leaf : Dword) (pa n : Nat) (wr svc : Bool), leaf.getLsbD 62 = true → (leaf.extractLsb' 54 8).toNat ≠ s.img.devId →
    s.img.members.contains (leaf.extractLsb' 54 8).toNat = true → s.lostPaths.contains (leaf.extractLsb' 54 8).toNat = true →
    s.physPlace leaf pa n wr svc = .failed { cause := .fabric, detail := fabricDetail 0 4 (leaf.extractLsb' 54 8).toNat } 0)
  ∧ (∀ s : State, ∃ t, exec .sendWindowRoom s = .next t ∧ t.mem = s.mem ∧ ∀ u th d, s.thread? u = some th → th.hold = .window d →
    (t.thread? u).map Thread.hold = some (if s.outTo d < s.sendLimit d then .none else .window d))
  ∧ (∀ s : State, ∃ t, exec .fabricPathLoss s = .next t ∧ s.arg.n ∈ t.lostPaths ∧ t.mem = s.mem)
  ∧ (∀ (s : State) (th : Thread) (a : Access) (ty : Ty) (site pa c : Nat), s.access? s.arg.a = some (th, a) → a.op = .ld ty →
    a.place = .host site pa c → a.tail = none → a.fixed = false → s.mayRead th a = true → exec .fabricTimeout s = .next (
      if a.born + 14000000 ≤ s.cycle then s.failAt th a (fabricFail 1 3 site) else s))
  ∧ (∀ (s : State) (th : Thread) (a : Access) (f : Fail) (ty : Ty), s.thread? th.id = some th → a ∈ th.ops → a.op = .ld ty →
    (s.failAt th a f).mem = s.mem ∧ ∃ th2, (s.failAt th a f).thread? th.id = some th2 ∧ th2.v = th.v ∧ th2.o = th.o ∧ th2.p = th.p
      ∧ ∃ b ∈ th2.ops, b.id = a.id ∧ b.place = .failed f a.va)

/-- JOIN holds the thread, then in the same step every held thread of its group whose set has arrived goes on past its instruction
with its registers, and no other moves. BAR does so after earlier accesses have completed to group scope, and a payload's fold
reaches D. SPAWN, once earlier accesses have completed to device scope and its entry's header has passed, inserts one thread
when the pool has room and otherwise waits; SPAWN_POOL_ROOM tries again. A key is selectable 512 cycles after a thread of it has
become ready, and one selectable for more than 4,096 cycles comes before the younger keys of its quadrant. That JOIN's RANGE
waits for outstanding loads to the registers of its frame (log 70), and since when a key counts and how equal ages tie (logs 19
and 65), are the model's readings. (R145, R146, R148, R150, R163, R165, R166, R167, R168, log 19, log 65, log 70) -/
def Obligations.JoinsBarriersAndSpawns : Prop :=
  (∀ (x : Arith) (s : State) (th : Thread), Alone (.join x) s th →
    let set := joinSet x (s.raw32 th x.toOps4 x.a)
    (∀ m, set = .mask m → m.getLsbD (th.lane % 32) = true ∧ (s.setMembers th .stage).length ≤ 128) →
    exec (.join x) s = .next ((((s.holdAt th.id (.join x) (.join set)).releaseSets th.group).settleGroup th.group).stay th (.join x)))
  ∧ (∀ (x : Arith) (s : State) (th : Thread) (m : Word), Alone (.join x) s th → joinSet x (s.raw32 th x.toOps4 x.a) = .mask m →
    m.getLsbD (th.lane % 32) = false → TrapsTo (.join x) s th .range 0 0)
  ∧ (∀ (x : Arith) (s : State) (th : Thread), Alone (.bar x) s th → s.released th 1 0 = true →
    let op := (x.fld 18 4).toNat
    let pay : Option BarPay := if op = 0 then none else some { op := op, ty := x.ty, value := BitVec.ofNat 32 (s.argA th x), d := x.d }
    exec (.bar x) s = .next (((((s.holdAt th.id (.bar x) (.bar (x.fld 24 3).toNat (x.fld 16 2 == 1#2) pay)).releaseSets
      th.group).settleGroup th.group).markVis th.id 1).stay th (.bar x)))
  ∧ (∀ (s : State) (th : Thread), (s.threads.map Thread.id).Nodup → s.thread? th.id = some th → th.unit = .device → th.exited = false →
    (s.due th = false → (s.releaseSets th.group).thread? th.id = s.thread? th.id)
    ∧ (s.due th = true → ∃ th2, (s.releaseSets th.group).thread? th.id = some th2 ∧ th2.hold = .none
      ∧ th2.pc = th.pc + BitVec.ofNat 64 (4 * th.holdWords.length)
      ∧ (∀ set, th.hold = .join set → th2.v = th.v ∧ th2.o = th.o ∧ th2.y0 = th.y0 ∧ th2.p = th.p)
      ∧ (∀ n grp p d v f, th.hold = .bar n grp (some p) → p.d = .v d →
        (prefixes p.ty p.op (s.barValues th (if grp then .group else .stage))).getLast? = some (v, f) →
        th2.getV d = BitVec.ofNat 32 v)))
  ∧ (∀ (x : Arith) (s s1 : State) (th : Thread) (h : List Byte), Alone (.spawn x) s th → s.newId.2.released th 4 0 = true →
    s.newId.2.spawnCheck th (s.raw64 th x.toOps4 x.a) = (s1, .ok h) →
    exec (.spawn x) s = .next (((s1.holdAt th.id (.spawn x)
      (.spawn s.nextId (s.raw64 th x.toOps4 x.a) (s.raw64 th x.toOps4 x.b))).stay th (.spawn x)).trySpawn s.nextId))
  ∧ (∀ (s : State) (th : Thread) (l : Launch) (n : Nat) (e a : Dword), (s.threads.map Thread.id).Nodup → s.thread? th.id = some th →
    th.hold = .spawn n e a → th.exited = false → (∀ y ∈ s.threads, y.id ≠ th.id → ∀ e a, y.hold ≠ .spawn n e a) →
    s.launchOf th = some l →
    s.trySpawn n = (if l.waiting = [] ∧ l.pending < l.lr.poolCap then
        (s.insertAll l.id [{ entry := e, arg := a, origin := .spawn }]).modThread th.id fun y => y.release
      else s)
    ∧ (s.arg.t = th.id → exec .spawnPoolRoom s = .next (s.trySpawn n)))
  ∧ (∀ (s : State) (th : Thread) (c : Nat), s.thread? s.arg.t = some th → th.unit = .device → s.keyEntry th.key = none →
    (s.keyDue th.key = some c → ∃ t, exec .keyReadyTimeout s = .next t ∧ t.keySince th.key = some c ∧ t.threads = s.threads
      ∧ t.mem = s.mem)
    ∧ (s.keyDue th.key = none → exec .keyReadyTimeout s = .next s))
  ∧ (∀ (s : State) (th : Thread) (r : Nat), th ∈ s.threads → th.unit = .device → th.ready = some r → r + 512 ≤ s.cycle →
    (s.keyDue th.key).isSome = true)
  ∧ (∀ (s : State) (k : Nat × Dword × Nat), (∀ x ∈ s.threads, x.unit = .device → x.key = k → ∀ r, x.ready = some r → s.cycle < r + 512) →
    s.keyDue k = none)
  ∧ (∀ (s : State) (th : Thread), s.thread? s.arg.t = some th → th.unit = .device → th.exited = false →
    exec .keyAgeExpiry s = .next (s.refreshKey th))
  ∧ (∀ (s : State) (th : Thread) (since : Nat),
    (∀ e g h, e ∈ s.keys → (e.1, e.2.1, e.2.2.1) ≠ th.key → e.2.2.1 = th.lane / 32 → s.group? e.1 = some g →
      s.group? th.group = some h → g.core = h.core → e.2.2.2 + 4096 < s.cycle → s.cycle ≤ since + 4096 → s.mayGo th since = false)
    ∧ ((∀ e ∈ s.keys, s.cycle ≤ e.2.2.2 + 4096) → s.mayGo th since = true))

/-- CPY and CPYT that pass their checks issue one command and raise the copy counter. COPY_PROGRESS of a command, its group resident
or saved, that conflicts with no earlier one and whose thread's earlier accesses to its bytes have taken effect, reads a piece,
within one 256-byte block of either side that is global, at its source and writes it at its destination, tells the slot of its
bytes unless they are the last, and leaves the rest; a scratchpad piece writes its bytes and no others. COPY_RETIRE of a
finished copy sends the last event and lowers the counter; COPY_FAULT faults the slot or writes a record, and retires. (R251,
R256, R257, R258, R260, R261, R265) -/
def Obligations.CopiesMoveTheirBytes : Prop :=
  (∀ x : Desc, Does (.cpy x) (fun s th => s.slotBad th (s.slotOperand th x) = none ∧ 1 ≤ (s.raw32 th x.toOps4 x.c).toNat
      ∧ (s.raw32 th x.toOps4 x.c).toNat ≤ 2 ^ 26 ∧ s.engineRange th (s.a64 th x) (s.raw32 th x.toOps4 x.c).toNat = none
      ∧ s.engineRange th (s.b64 th x) (s.raw32 th x.toOps4 x.c).toNat = none ∧ th.cnt.copies < 63)
    fun s th =>
      let n := (s.raw32 th x.toOps4 x.c).toNat
      (s.issueCmd th (.cpy x) (.copy (s.a64 th x) (s.b64 th x) n) ((s.slotOperand th x).map (·.toNat)) [(0, n)]
        (accessesTo th [(s.a64 th x, n), (s.b64 th x, n)])).modThread th.id fun y =>
        { y with cnt := { y.cnt with copies := y.cnt.copies + 1 } })
  ∧ (∀ (x : Desc) (s s2 : State) (th : Thread) (r : List Byte), Alone (.cpyt x) s th → s.slotBad th (s.slotOperand th x) = none →
    let a := s.a64 th x
    let o := (a - s.img.spBase).toNat
    let c := th.spanRegs x.c 5
    a.toNat % 16 = 0 → canonical (s.spaceOf th) a = true → inWindow s.img.spBase a = true →
    (s.b64 th x).toNat % 64 = 0 → inWindow s.img.stkBase (s.b64 th x) = false → s.ownRead th (s.b64 th x) 64 64 true = (s2, .ok r) →
    shapeOk r = true → (8 ≤ (boxTy r).width ∨ coord c 0 % 32 = 0) → (boxOutside r c = false ∨ field r 0x0A 1 ≠ 0) →
    s2.img = s.img → o + boxBytes r ≤ s2.scratch th → s2.ownerTrap th o (boxBytes r) true = none → th.cnt.copies < 63 →
    ∃ before, exec (.cpyt x) s = .next (((s2.issueCmd th (.cpyt x) (.copyt (!x.w2.getLsbD 1) o r c)
      ((s.slotOperand th x).map (·.toNat)) [(0, boxBytes r)] before).modThread th.id fun y =>
        { y with cnt := { y.cnt with copies := y.cnt.copies + 1 } }).past (.cpyt x) th))
  ∧ (∀ (s s1 s2 : State) (g : Group) (c : Cmd) (dst src : Dword) (k o n : Nat) (r : Run) (bs : List Byte),
    s.cmd? s.arg.a = some (g, c) → c.kind = .copy dst src k → c.fault = none → c.tag = none →
    s.beforeDone c = true → s.nextPiece c = some (o, n, r) → s.conflicts g c (pieceTouches r) = false →
    s.aliased g c r.src n = false → s.aliased g c r.dst n = false →
    s.pieceRead g c.id r.src n = (s1, .ok bs) → s1.pieceWrite g c.id r.dst bs = (s2, .ok ()) →
    let left := takeOut o n c.left
    let s3 := (s2.farDone (.cmd c.id)).modCmd g.id c.id fun x => { x with left := left, started := true, sent := if left.isEmpty then x.sent else x.sent + n }
    exec .copyProgress s = .next (match c.slot, left.isEmpty with
      | some q, false => s3.slotEvent g.id q 0 0 n (some c.issuer)
      | _, _ => s3))
  ∧ (∀ (s : State) (g : Group) (k o : Nat) (bs : List Byte), s.group? g.id = some g → g.spad.wf = true →
    ∃ t g2, s.pieceWrite g k (.spad o) bs = (t, .ok ()) ∧ t.group? g.id = some g2 ∧ g.spad.Put g2.spad o bs ∧ t.mem = s.mem
      ∧ t.threads = s.threads ∧ g2.k = g.k ∧ s.pieceRead g k (.spad o) bs.length = (s, .ok (g.spad.load o bs.length)))
  ∧ (∀ (s : State) (g : Group) (c : Cmd) (dst src : Dword) (k : Nat), s.cmd? s.arg.a = some (g, c) → c.kind = .copy dst src k →
    (c.left = [] → c.fault = none → exec .copyRetire s = .next (State.retireCopy (match c.slot with
      | some q => s.slotEvent g.id q 1 0 (k - c.sent) (some c.issuer)
      | none => s) g c))
    ∧ (c.left ≠ [] → exec .copyRetire s = .next s)
    ∧ (∀ f a, c.fault = some (f, a) → exec .copyFault s = .next (State.retireCopy (match c.slot with
      | some q => s.faultSlot g.id q f a (some c.issuer)
      | none => s.faultRecord g.launch { source := 3, cause := f.cause.code, addr := a, by_ := some c.issuer }) g c)))
  ∧ (∀ (s : State) (g : Group) (c : Cmd) (th : Thread), s.thread? c.thread = some th → ∃ th2, (s.retireCopy g c).thread? c.thread = some th2
    ∧ th2.cnt = { th.cnt with copies := th.cnt.copies - 1 } ∧ th2.v = th.v ∧ (s.retireCopy g c).mem = s.mem)

/-- An arrival at an armed slot lowers REMAIN; the one that brings REMAIN and PENDING to zero flips the phase, sets READY and begins
the next phase with REMAIN equal to TARGET. SLOTARM arms an unarmed slot and adds its bytes and SARRIVE sends an arrival, once
the arrivals of the thread's earlier reductions on the slot have come and its earlier accesses have completed to group scope, or
to device scope where the slot holds a continuation. SACQ, after those arrivals too, clears READY of a ready slot and sets its
predicate, of a faulted slot clears its predicate, and otherwise waits in line. SWAIT delivers the ready slots of its mask when
one is ready or all are, as its form asks, or one is faulted, and waits before; SFIRST delivers the first ready one. SRESET
returns a slot to its reset state once no command names it. ONDONE, after those arrivals, registers a continuation. That the
SLOT trap waits for outstanding loads to the registers of its frame is the model's reading of R29 (log 70). (R213, R243, R244,
R245, R246, R251, R252, R253, R254, R255, log 70) -/
def Obligations.SlotsCompleteAndRelease : Prop :=
  (∀ (s : State) (gid n : Nat) (g : Group) (x : Slot) (by_ : Option Issuer), s.group? gid = some g → g.slots[n]? = some x →
    x.armed = true → x.ready = false → x.fault = false → x.pending = 0 → x.cont = none →
    (∀ th ∈ s.live gid, ∀ m, (∀ all pd d, th.hold ≠ .swait m all pd d) ∧ ∀ k pd, th.hold ≠ .sacq k pd) →
    (x.remain = 1 → ∃ g2, (s.slotEvent gid n 1 0 0 by_).group? gid = some g2
      ∧ g2.slots[n]? = some { x with phase := !x.phase, ready := true, remain := x.target })
    ∧ (1 < x.remain.toNat → ∃ g2, (s.slotEvent gid n 1 0 0 by_).group? gid = some g2
      ∧ g2.slots[n]? = some { x with remain := x.remain - 1 })
    ∧ (x.remain = 0 → s.slotEvent gid n 1 0 0 by_ = s.faultSlot gid n { cause := .slot } 0 by_))
  ∧ (∀ x : Desc, Does (.slotarm x) (fun s th => s.slotOk th (s.dst32 th x) = true ∧ 1 ≤ (s.a32 th x).toNat ∧ (s.a32 th x).toNat ≤ 65535
      ∧ (s.b32 th x).toNat < 2 ^ 27 ∧ (s.slotAt th (s.dst32 th x).toNat).armed = false ∧ th.owesArrival (s.dst32 th x).toNat = false
      ∧ s.released th (s.slotAt th (s.dst32 th x).toNat).scope 0 = true)
    fun s th =>
      let n := (s.dst32 th x).toNat
      let a := (s.a32 th x).setWidth 16
      (((s.leave th (256 + n)).modSlot th.group n fun y => { y with armed := true, target := a, remain := a }).slotEvent th.group n 0 (s.b32 th x).toNat 0
        (some (issuerOf th (.slotarm x)))).markVis th.id (s.slotAt th n).scope)
  ∧ (∀ x : Desc, Does (.sarrive x) (fun s th => s.slotOk th (s.dst32 th x) = true ∧ (s.a32 th x).toNat < 2 ^ 27
      ∧ th.owesArrival (s.dst32 th x).toNat = false ∧ s.released th (s.slotAt th (s.dst32 th x).toNat).scope 0 = true)
    fun s th => ((s.leave th (256 + (s.dst32 th x).toNat)).slotEvent th.group (s.dst32 th x).toNat 1 (s.a32 th x).toNat 0
      (some (issuerOf th (.sarrive x)))).markVis th.id (s.slotAt th (s.dst32 th x).toNat).scope)
  ∧ (∀ x : Desc, Does (.sacq x) (fun s th => s.slotOk th (s.dst32 th x) = true ∧ th.owesArrival (s.dst32 th x).toNat = false
      ∧ (s.slotAt th (s.dst32 th x).toNat).fault = true)
    fun s th => s.modThread th.id fun y => y.setPred (descPd x) false)
  ∧ (∀ x : Desc, Holds (.sacq x) (fun s th => s.slotOk th (s.dst32 th x) = true ∧ th.owesArrival (s.dst32 th x).toNat = true)
    fun s _ => s)
  ∧ (∀ x : Desc, Does (.sacq x) (fun s th => s.slotOk th (s.dst32 th x) = true ∧ th.owesArrival (s.dst32 th x).toNat = false
      ∧ (s.slotAt th (s.dst32 th x).toNat).fault = false
      ∧ (s.slotAt th (s.dst32 th x).toNat).ready = true ∧ s.firstSacq th.group (s.dst32 th x).toNat = none)
    fun s th => (((s.modSlot th.group (s.dst32 th x).toNat fun y => { y with ready := false }).modThread th.id fun y =>
      y.setPred (descPd x) true).meet th (256 + (s.dst32 th x).toNat)).settle th.group (s.dst32 th x).toNat 65)
  ∧ (∀ x : Desc, Holds (.sacq x) (fun s th => s.slotOk th (s.dst32 th x) = true ∧ th.owesArrival (s.dst32 th x).toNat = false
      ∧ (s.slotAt th (s.dst32 th x).toNat).fault = false ∧ ((s.slotAt th (s.dst32 th x).toNat).ready = false ∨ (s.firstSacq th.group (s.dst32 th x).toNat).isSome = true))
    fun s th => s.holdAt th.id (.sacq x) (.sacq (s.dst32 th x).toNat (descPd x).toNat))
  ∧ (∀ x : Desc, Does (.swait x) (fun s th => maskBad (s.slotCount th) (s.a64 th x) = none
      ∧ (s.a64 th x &&& s.slotMask th (·.fault) ≠ 0
        ∨ (if x.w2.getLsbD 3 then s.a64 th x &&& s.slotMask th (·.ready) ≠ 0 else s.a64 th x &&& s.slotMask th (·.ready) = s.a64 th x)))
    fun s th =>
      let s1 := (s.result th.id x.d 64 ((s.a64 th x &&& s.slotMask th (·.ready)).setWidth 128)).modThread th.id fun y =>
        y.setPred (descPd x) (s.a64 th x &&& s.slotMask th (·.fault) == 0)
      if s.a64 th x &&& s.slotMask th (·.fault) = 0 then s1.meetSlots th (s.a64 th x &&& s.slotMask th (·.ready)) else s1)
  ∧ (∀ x : Desc, Holds (.swait x) (fun s th => maskBad (s.slotCount th) (s.a64 th x) = none ∧ s.a64 th x &&& s.slotMask th (·.fault) = 0
      ∧ (if x.w2.getLsbD 3 then s.a64 th x &&& s.slotMask th (·.ready) = 0 else s.a64 th x &&& s.slotMask th (·.ready) ≠ s.a64 th x))
    fun s th => s.holdAt th.id (.swait x) (.swait (s.a64 th x) (!x.w2.getLsbD 3) (descPd x).toNat x.d))
  ∧ (∀ x : Desc, Does (.sfirst x) (fun s th => maskBad (s.slotCount th) (s.a64 th x) = none) fun s th =>
    let n := (List.range 64).find? fun b => (s.a64 th x &&& s.slotMask th fun y => y.ready && !y.fault).getLsbD b
    let s1 := (s.result th.id x.d 32 (BitVec.ofNat 128 (n.getD 64))).modThread th.id fun y => y.setPred (descPd x) n.isSome
    match n with
    | some n => s1.meet th (256 + n)
    | none => s1)
  ∧ (∀ x : Desc, Does (.sreset x) (fun s th => s.slotOk th (s.dst32 th x) = true ∧ s.slotNamed th.group (s.dst32 th x).toNat = false)
    fun s th => s.resetSlot th.group (s.dst32 th x).toNat)
  ∧ (∀ x : Desc, Holds (.sreset x) (fun s th => s.slotOk th (s.dst32 th x) = true ∧ s.slotNamed th.group (s.dst32 th x).toNat = true)
    fun s th => s.holdAt th.id (.sreset x) (.sreset (s.dst32 th x).toNat))
  ∧ (∀ (s : State) (th : Thread) (n : Nat), s.thread? s.arg.t = some th → th.hold = .sreset n → s.slotNamed th.group n = false →
    exec .sresetDone s = .next ((s.resetSlot th.group n).modThread th.id fun y => y.release))
  ∧ (∀ (s : State) (gid n : Nat) (g : Group), s.group? gid = some g → n < g.slots.length → s.live gid = [] →
    ∃ g2, (s.resetSlot gid n).group? gid = some g2 ∧ g2.slots[n]? = some {})
  ∧ (∀ (x : Desc) (s s2 : State) (th : Thread) (h : List Byte), Alone (.ondone x) s th → s.slotOk th (s.dst32 th x) = true →
    s.spawnCheck th (s.a64 th x) = (s2, .ok h) →
    (th.owesArrival (s.dst32 th x).toNat = true → exec (.ondone x) s = .next (s2.stay th (.ondone x)))
    ∧ (th.owesArrival (s.dst32 th x).toNat = false → (s2.slotAt th (s.dst32 th x).toNat).cont = none →
    (s2.slotAt th (s.dst32 th x).toNat).fault = false →
    ((s2.slotAt th (s.dst32 th x).toNat).ready = true → s2.released th 4 0 = true) →
    exec (.ondone x) s = .next ((s2.registerCont th.group (s.dst32 th x).toNat { entry := s.a64 th x, arg := s.b64 th x }).past
      (.ondone x) th)))
  ∧ (∀ (x : Desc) (s : State) (th : Thread), Alone (.sarrive x) s th → s.slotOk th (s.dst32 th x) = false →
    TrapsTo (.sarrive x) s th .slot 0 (s.dst32 th x))
  ∧ (∀ x : Desc, Holds (.sarrive x) (fun s th => s.slotOk th (s.dst32 th x) = true ∧ (s.a32 th x).toNat < 2 ^ 27
      ∧ (th.owesArrival (s.dst32 th x).toNat = true ∨ s.released th (s.slotAt th (s.dst32 th x).toNat).scope 0 = false)) fun s _ => s)
  ∧ (∀ x : Slot, x.scope = if x.cont.isSome then 4 else 1)

/-- GIVE makes its blocks engine-owned. TAKE makes those that no other TAKE is making so thread-owned when no unretired command
touches them and no other TAKE of one of them waits, and otherwise holds the thread until TAKE_DONE finds those commands, and
the ones that such a TAKE waits for, retired; TAKE of the windows waits for their commands. QINIT sets up an empty ring; QPUSH
and QTRY.push store at the tail of a queue with room, QPOP and QTRY.pop deliver from the head of a queue that is not empty, a
value pushed into an empty queue is the next popped, and a full or empty queue, or one on which a thread waits already, holds
the thread, or clears QTRY's predicate; QUEUE_WAIT_SERVED serves the longest waiter. That a push, a pop or a QTRY goes behind
threads held earlier on a queue with room or entries, and how TAKEs that share blocks wait, are the model's readings (log 31).
(R251, R262, R263, R264, R266, R267, R268, R269, log 31) -/
def Obligations.BlocksAndTileQueues : Prop :=
  (∀ (x : Desc) (bs : List Nat), Does (.give x) (fun s th => s.blocksAt th (s.a64 th x) (s.b32 th x) = .ok bs ∧ s.released th 1 1 = true)
    fun s th => (s.modGroup th.group fun g =>
      { g with engine := (bs.filter fun b => !g.taking.contains b).foldl (fun e b => insertNat b e) g.engine }).markVis th.id 1)
  ∧ (∀ (x : Desc) (bs : List Nat) (g : Group), Does (.take x) (fun s th => x.w2.getLsbD 0 = false
      ∧ s.blocksAt th (s.a64 th x) (s.b32 th x) = .ok bs ∧ s.group? th.group = some g
      ∧ s.cmdsWhere th.group (Cmd.inBlocks s.img.spBase (bs.filter g.engine.contains)) = []
      ∧ s.otherTakes th.group ((bs.filter g.engine.contains).filter g.taking.contains) = [])
    fun s th => s.takeFlip th.group ((bs.filter g.engine.contains).filter fun b => !g.taking.contains b))
  ∧ (∀ (x : Desc) (bs : List Nat) (g : Group), Holds (.take x) (fun s th => x.w2.getLsbD 0 = false
      ∧ s.blocksAt th (s.a64 th x) (s.b32 th x) = .ok bs ∧ s.group? th.group = some g
      ∧ (s.cmdsWhere th.group (Cmd.inBlocks s.img.spBase (bs.filter g.engine.contains)) ≠ []
        ∨ s.otherTakes th.group ((bs.filter g.engine.contains).filter g.taking.contains) ≠ []))
    fun s th =>
      let named := bs.filter g.engine.contains
      let mine := named.filter fun b => !g.taking.contains b
      (s.modGroup th.group fun g => { g with taking := mine.foldl (fun e b => insertNat b e) g.taking }).holdAt th.id (.take x)
        (.take mine (s.cmdsWhere th.group (Cmd.inBlocks s.img.spBase named) ++ s.otherTakes th.group (named.filter g.taking.contains))))
  ∧ (∀ x : Desc, Does (.take x) (fun s th => x.w2.getLsbD 0 = true ∧ s.cmdsWhere th.group Cmd.window = []) fun s _ => s)
  ∧ (∀ x : Desc, Holds (.take x) (fun s th => x.w2.getLsbD 0 = true ∧ s.cmdsWhere th.group Cmd.window ≠ []) fun s th =>
    s.holdAt th.id (.take x) (.takeWin (s.cmdsWhere th.group Cmd.window)))
  ∧ (∀ (s : State) (gid : Nat) (g : Group) (c : Cmd) (p : Cmd → Bool), s.group? gid = some g → c ∈ g.cmds →
    p c = true → c.id ∈ s.cmdsWhere gid p)
  ∧ (∀ (s : State) (gid : Nat) (g : Group) (bs : List Nat), s.group? gid = some g → ∃ g2, (s.takeFlip gid bs).group? gid = some g2
    ∧ ∀ b, b ∈ g2.engine ↔ b ∈ g.engine ∧ b ∉ bs)
  ∧ (∀ (s : State) (gid : Nat) (e : List Nat) (bs : List Nat), (∀ b, b ∈ bs.foldl (fun e b => insertNat b e) e ↔ b ∈ e ∨ b ∈ bs)
    ∧ s.retired gid [] = true)
  ∧ (∀ (s : State) (th : Thread) (g : Group) (bs cmds : List Nat), s.thread? s.arg.t = some th → th.hold = .take bs cmds →
    (s.threads.map Thread.id).Nodup → th ∈ s.live th.group → s.group? th.group = some g →
    (s.retired th.group cmds = false → exec .takeDone s = .next s)
    ∧ (s.retired th.group cmds = true → ∃ t th2 g2, exec .takeDone s = .next t ∧ t.thread? th.id = some th2 ∧ th2 = th.release
      ∧ t.group? th.group = some g2 ∧ (∀ b ∈ g2.engine, b ∈ g.engine ∧ b ∉ bs)
      ∧ (∀ b ∈ g.engine, b ∉ g2.engine → ∃ x ∈ s.live th.group, ∃ bx cx, x.hold = .take bx cx ∧ s.retired th.group cx = true ∧ b ∈ bx)
      ∧ g2.cmds = g.cmds ∧ t.mem = s.mem))
  ∧ (∀ x : Desc, Does (.qinit x) (fun s th => (s.a64 th x).toNat % 8 = 0 ∧ canonical (s.spaceOf th) (s.a64 th x) = true
      ∧ inWindow s.img.spBase (s.a64 th x) = true ∧ 1 ≤ (s.b32 th x).toNat ∧ (s.b32 th x).toNat ≤ 4096
      ∧ (s.a64 th x - s.img.spBase).toNat + 8 * (s.b32 th x).toNat ≤ s.scratch th
      ∧ s.ownerTrap th (s.a64 th x - s.img.spBase).toNat (8 * (s.b32 th x).toNat) false = none)
    fun s th => s.modQueue th.group (descQueue x) fun _ =>
      { init := true, cap := (s.b32 th x).toNat, head := 0, count := 0, ring := (s.a64 th x - s.img.spBase).toNat })
  ∧ (∀ (x : Desc) (s s2 : State) (th : Thread), Alone (.qpush x) s th → (s.queueAt th.group (descQueue x)).init = true →
    s.released th 1 0 = true → s.ringHeld th true = false →
    (s.pushWaits th.group (descQueue x) = false → s.pushNow th (descQueue x) (s.a64 th x) = (s2, none) →
      exec (.qpush x) s = .next ((s2.markVis th.id 1).past (.qpush x) th))
    ∧ (s.pushWaits th.group (descQueue x) = true →
      exec (.qpush x) s = .next (((s.holdAt th.id (.qpush x) (.qpush (descQueue x) (s.a64 th x))).markVis th.id 1).stay th (.qpush x))))
  ∧ (∀ (x : Desc) (s s2 : State) (th : Thread), Alone (.qtryPush x) s th → (s.queueAt th.group (descQueue x)).init = true →
    (s.pushWaits th.group (descQueue x) = false → s.ringHeld th true = false → s.released th 1 0 = true → s.pushNow th (descQueue x) (s.a64 th x) = (s2, none) →
      exec (.qtryPush x) s = .next (((s2.putPred th.id (x.fld 4 3) true).markVis th.id 1).past (.qtryPush x) th))
    ∧ (s.pushWaits th.group (descQueue x) = true →
      exec (.qtryPush x) s = .next ((s.putPred th.id (x.fld 4 3) false).past (.qtryPush x) th)))
  ∧ (∀ (x : Desc) (s s2 : State) (th : Thread), Alone (.qpop x) s th → (s.queueAt th.group (descQueue x)).init = true → th.writing = false →
    s.ringHeld th false = false →
    (s.popWaits th.group (descQueue x) = false → s.popNow th (descQueue x) x.d = (s2, none) →
      exec (.qpop x) s = .next (s2.past (.qpop x) th))
    ∧ (s.popWaits th.group (descQueue x) = true → exec (.qpop x) s
      = .next ((s.holdAt th.id (.qpop x) (.qpop (descQueue x) x.d)).stay th (.qpop x))))
  ∧ (∀ (x : Desc) (s s2 : State) (th : Thread), Alone (.qtryPop x) s th → (s.queueAt th.group (descQueue x)).init = true →
    th.writing = false → s.ringHeld th false = false →
    (s.popWaits th.group (descQueue x) = false → s.popNow th (descQueue x) x.d = (s2, none) →
      exec (.qtryPop x) s = .next ((s2.putPred th.id (x.fld 4 3) true).past (.qtryPop x) th))
    ∧ (s.popWaits th.group (descQueue x) = true →
      exec (.qtryPop x) s = .next ((s.putPred th.id (x.fld 4 3) false).past (.qtryPop x) th)))
  ∧ (∀ (s : State) (th : Thread) (g : Group) (q : Nat) (t : TQueue) (v : Dword) (d : Opnd), s.group? th.group = some g →
    g.queues[q]? = some t → 0 < t.cap → t.head < t.cap → t.count = 0 → g.spad.wf = true →
    s.ownerTrap th (t.ring + 8 * t.head) 8 false = none →
    ∃ s2, s.pushNow th q v = (s2, none) ∧ (s2.queueAt th.group q).count = 1 ∧ (s2.popNow th q d).2 = none
      ∧ (s2.popNow th q d).1 = ((s2.meet th (320 + q)).modQueue th.group q fun t => { t with head := (t.head + 1) % t.cap, count := t.count - 1 }).result
        th.id d 64 (v.setWidth 128))
  ∧ (∀ (s s2 : State) (th : Thread), s.nextServed s.arg.g s.arg.n = some th →
    (∀ n v, th.hold = .qpush n v → s.pushNow th s.arg.n v = (s2, none) →
      exec .queueWaitServed s = .next (s2.modThread th.id fun y => y.release))
    ∧ (∀ n d, th.hold = .qpop n d → s.popNow th s.arg.n d = (s2, none) →
      exec .queueWaitServed s = .next (s2.modThread th.id fun y => y.release)))
  ∧ (∀ (s : State) (g n : Nat) (a b : Thread), (s.queueAt g n).init = true → s.firstWaiter g n true = some a →
    s.firstWaiter g n false = some b → 0 < (s.queueAt g n).count → (s.queueAt g n).count < (s.queueAt g n).cap →
    s.nextServed g n = some (if a.holdSeq < b.holdSeq then a else b))
  ∧ (∀ (s : State) (g n : Nat) (a : Thread), (s.queueAt g n).init = true → s.firstWaiter g n true = some a →
    (s.queueAt g n).count = 0 → 0 < (s.queueAt g n).cap → s.nextServed g n = some a)
  ∧ (∀ x : Desc, Holds (.qpop x) (fun s th => (s.queueAt th.group (descQueue x)).init = true ∧ (th.writing = true ∨ s.ringHeld th false = true))
    fun s _ => s)
  ∧ (∀ x : Desc, Holds (.qpush x) (fun s th => (s.queueAt th.group (descQueue x)).init = true
      ∧ (s.ringHeld th true = true ∨ s.released th 1 0 = false)) fun s _ => s)

/-- HITCH that passes its checks waits until every group of the gang has one; a gang of one group is then hitched and its thread
goes on. UNHITCH waits, and UNHITCH_COMPLETE unhitches the gang when every group waits and its tile commands have retired. BLOAD
issues a command that makes its shadow copies LOADING and raises the tile counter; BLOAD_RETIRE fills them from the bytes read,
and BLOAD_FAULT breaks them and stops the operations that read what it was to load. BSWAP flips the live plane of each frame it
names. A core that is not harnessed traps HARNESS. That a HITCH issued after a group of its gang has ended raises HARNESS (log
32), and that a trap waits for outstanding loads to the registers of its frame (log 70), are the model's readings. (R278, R280,
R281, R283, R284, R285, R286, R287, R288, R29, log 32, log 70) -/
def Obligations.HarnessHitchesAndLoadsB : Prop :=
  (∀ (x : Desc) (s : State) (th : Thread) (g : Group), Alone (.hitch x) s th → s.group? th.group = some g →
    let w := (x.fld 0 3).toNat
    let dp := (x.fld 4 2).toNat
    (s.gangSize g = 2 ^ w * 2 ^ dp → g.hdr.accwin ≠ 0 → g.hdr.awin ≠ 0 → g.hitched = none → s.hitchWaiter g.id = none →
      s.gangBroken g = false → s.released th 2 0 = true →
      exec (.hitch x) s = .next (((s.holdAt th.id (.hitch x) (.hitch w dp)).tryHitch g.gang).stay th (.hitch x)))
    ∧ (s.gangSize g ≠ 2 ^ w * 2 ^ dp ∨ g.hdr.accwin = 0 ∨ g.hdr.awin = 0 ∨ g.hitched ≠ none ∨ s.hitchWaiter g.id ≠ none
      ∨ s.gangBroken g = true → TrapsTo (.hitch x) s th .harness 0 0))
  ∧ (∀ (s : State) (gang : Nat), (∃ g ∈ s.gangGroups gang, s.hitchWaiter g.id = none) → s.tryHitch gang = s)
  ∧ (∀ (s : State) (g : Group) (th : Thread) (gang : Nat), s.gangGroups gang = [g] → s.group? g.id = some g → s.gangSize g = 1 →
    s.hitchWaiter g.id = some th → th.hold = .hitch 0 0 → s.thread? th.id = some th →
    ∃ g2 th2, (s.tryHitch gang).group? g.id = some g2 ∧ g2.hitched = some { w := 0, dp := 0 } ∧ g2.frames = []
      ∧ (s.tryHitch gang).thread? th.id = some th2 ∧ th2.hold = .none
      ∧ th2.pc = th.pc + BitVec.ofNat 64 (4 * th.holdWords.length))
  ∧ (∀ (x : Desc) (g : Group), Holds (.unhitch x) (fun s th => s.group? th.group = some g ∧ g.hitched ≠ none
      ∧ s.unhitchPending g.id = false)
    fun s th => s.holdAt th.id (.unhitch x) .unhitch)
  ∧ (∀ (s : State) (g : Group), s.group? s.arg.g = some g → g.hitched ≠ none → s.gangGroups g.gang = [g] →
    s.unhitchPending g.id = true → g.cmds = [] → (∀ th ∈ s.live g.id, ∀ b q, th.hold ≠ .mma b q) → ∃ t g2, exec .unhitchComplete s = .next t ∧ t.group? g.id = some g2
      ∧ g2.hitched = none ∧ g2.frames = [] ∧ g2.acc = g.acc ∧ t.mem = s.mem)
  ∧ (∀ x : Desc,
    let sp := x.w2.getLsbD 1
    Does (.bload x) (fun s th => s.slotBad th (s.slotOperand th x) = none ∧ s.harnessed th = true
      ∧ (s.b32 th x).toNat ≤ 511 ∧ (sp = true → (s.b32 th x).toNat % 2 = 0) ∧ (s.a64 th x).toNat % 256 = 0
      ∧ s.engineRange th (s.a64 th x) (if sp then 8192 else 4096) = none ∧ th.cnt.tiles < 63)
    fun s th => s.issueBload th (.bload x) (s.slotOperand th x) (s.a64 th x) (s.b32 th x).toNat sp (x.w2.getLsbD 2))
  ∧ (∀ x : Desc, Does (.bswap x) (fun s th => s.harnessed th = true ∧ 1 ≤ (s.b32 th x).toNat
      ∧ (s.a32 th x).toNat + (s.b32 th x).toNat ≤ 512)
    fun s th => s.modGroup th.group fun g => (List.range (s.b32 th x).toNat).foldl (fun g i =>
      let y := g.frameAt ((s.a32 th x).toNat + i)
      g.setFrame { y with live := !y.live, fresh := false }) { g with seq := g.seq + 1 })
  ∧ (∀ (g : Group) (f : Nat) (y : Frame), (g.setFrame y).frameAt y.index = y
    ∧ (f ≠ y.index → (g.setFrame y).frameAt f = g.frameAt f))
  ∧ (∀ (x : Desc) (s : State) (th : Thread), Alone (.bswap x) s th → s.harnessed th = false →
    TrapsTo (.bswap x) s th .harness 0 0)
  ∧ (∀ (x : Desc) (s : State) (th : Thread), Alone (.bload x) s th → s.slotBad th (s.slotOperand th x) = none → s.harnessed th = false →
    TrapsTo (.bload x) s th .harness 0 0)
  ∧ (∀ (s s1 : State) (g : Group) (c : Cmd) (f : Nat) (sp hold : Bool) (src : Dword) (ps : List Bool) (bs : List Byte),
    s.cmd? s.arg.a = some (g, c) → c.kind = .bload f sp hold src false ps → engineRuns g = true → c.fault = none → c.tag = none →
    s.beforeDone c = true → s.copyBlocked g c = false → s.conflicts g c (c.touches s.img.spBase) = false → c.slot = none →
    s.agentRead (.cmd c.id) (s.groupSpace g) false 1 false 4 src (if sp then 8192 else 4096) = (s1, .ok bs) →
    exec .bloadRetire s = .next ((s1.modGroup g.id fun y => y.fillFrames c .valid (some bs)).retireTile g.id c))
  ∧ (∀ (s : State) (g : Group) (c : Cmd) (n : Nat) (sp hold spad : Bool) (src a : Dword) (ps : List Bool) (e : Fail),
    s.cmd? s.arg.a = some (g, c) → c.kind = .bload n sp hold src spad ps → c.fault = some (e, a) →
    exec .bloadFault s = .next ((((s.modGroup g.id fun y => y.fillFrames c .broken none).breakOps g (g.readsLoad c)).cmdFault g c e
      a).retireTile g.id c))
  ∧ (∀ (s : State) (g : Group) (o : GridOp) (c : Cmd) (m : Nat) (q : Nat × Bool), o ∈ s.grids → o.fault = none → (g.id, m) ∈ o.members →
    (g.id, q) ∈ o.planes → g.readsLoad c m q = true →
    { o with fault := some ({ cause := .harness }, 0) } ∈ (s.breakOps g (g.readsLoad c)).grids)
  ∧ (∀ (s : State) (gid : Nat) (c : Cmd) (th : Thread), s.thread? c.thread = some th → ∃ th2, (s.retireTile gid c).thread? c.thread = some th2
    ∧ th2.cnt = { th.cnt with tiles := th.cnt.tiles - 1 } ∧ th2.v = th.v ∧ (s.retireTile gid c).mem = s.mem)

/-- An MMA that passes its checks waits for the members of its harness, and the last forms the operation. GRID_PASS_END of ready
members reads A, its scales and B's scales, and adds the rows' sums; an integer word becomes the sum of its old value and the
products of one block, wrapped or saturated. GRID_OP_RETIRE of an operation whose passes are done records the flags in every
group, sends the slot events and lowers the counters; GRID_OP_FAULT ends an operation that met a fault, with its slots faulted
or records written. That words become final at the end of a pass, row by row where a fault stops it (log 33), and that MMA's
trap waits for outstanding loads to the registers of its frame (log 70), are the model's readings. (R272, R291, R299, R300,
R301, R302, R303, R305, R306, R307, log 33, log 70) -/
def Obligations.MatrixOperationsRunAndRetire : Prop :=
  (∀ (x : Desc) (s : State) (th : Thread) (g : Group), Alone (.mma x) s th → s.slotBad th (s.slotOperand th x) = none →
    s.group? th.group = some g →
    let b := s.blockAt th x.a
    (s.mmaBad th g b = none → th.cnt.tiles < 63 →
      exec (.mma x) s = .next (((s.holdAt th.id (.mma x) (.mma b ((s.slotOperand th x).map (·.toNat)))).tryForm g).stay th (.mma x)))
    ∧ (∀ e, s.mmaBad th g b = some e → TrapsTo (.mma x) s th e.cause e.addr e.detail)
    ∧ (g.hitched = none → (s.mmaBad th g b).map Bad.cause = some .harness))
  ∧ (∀ (s : State) (g : Group), (∃ y ∈ s.gangGroups g.gang, s.mmaWaiter y.id = none) → s.tryForm g = s)
  ∧ (∀ (s : State) (g : Group) (h : Hitched) (th : Thread) (b : List Byte) (slot : Option Nat), s.gangGroups g.gang = [g] →
    s.group? g.id = some g → g.hitched = some h → s.mmaWaiter g.id = some th → th.hold = .mma b slot → s.thread? th.id = some th →
    (copiesOk g (parseParams b) (2 ^ h.dp) = true → ∃ o c g2 th2, (s.tryForm g).grids = s.grids ++ [o] ∧ o.gang = g.gang
      ∧ o.blocks = [(g.id, b)] ∧ o.members = [(g.id, c.id)] ∧ o.pass = 0 ∧ o.rows = 0 ∧ o.fault = none
      ∧ (s.tryForm g).group? g.id = some g2 ∧ g2.cmds = g.cmds ++ [c] ∧ c.kind = .grid o.id b (2 ^ h.dp) g.posX g.posZ ∧ c.slot = slot
      ∧ c.thread = th.id ∧ (s.tryForm g).thread? th.id = some th2
      ∧ th2 = { th.release with cnt := { th.cnt with tiles := th.cnt.tiles + 1 } })
    ∧ (copiesOk g (parseParams b) (2 ^ h.dp) = false → s.tryForm g = s.trapHeld th .harness 0 0))
  ∧ (∀ (s s1 : State) (o : GridOp) (b0 : Nat × List Byte) (bs0 : List (Nat × List Byte)) (m0 : Group × Cmd) (ms0 : List (Group × Cmd))
      (h : Hitched) (l : List (List Byte)),
    s.grids.find? (fun q => q.id == s.arg.a) = some o → o.blocks = b0 :: bs0 → s.opMembers o = m0 :: ms0 → m0.1.hitched = some h →
    let p := parseParams b0.2
    let w := 2 ^ h.w
    let dp := 2 ^ h.dp
    let r1 := if s.arg.n = 0 then p.m else min p.m (o.rows + 8 * s.arg.n)
    let rd := s.rowReads o p w dp o.rows r1
    o.fault = none → o.pass < p.passes dp → s.halting m0.1 = false → (m0 :: ms0).all (s.memberReady o p o.rows r1) = true →
    s.handleReads o.id (rd.1 ++ rd.2.1 ++ rd.2.2) = (s1, .ok l) →
    exec .gridPassEnd s = .next (((s1.farDone (.cmd o.id)).runRows o (m0 :: ms0) p w dp o.rows r1 ((l.drop rd.1.length).take rd.2.1.length)
      (l.drop (rd.1.length + rd.2.1.length)) ((List.range dp).map fun z => (l.drop (z * (r1 - o.rows))).take (r1 - o.rows))).rowsDone
      o.id p.m r1))
  ∧ (∀ (s : State) (o : GridOp) (p q : Params) (dp x m c : Nat) (sa : List Byte) (cols : List (List (Option Nat) × List Byte)) (g : Group),
    s.cellGroup o x (dp - 1) = some (g, q) → s.group? g.id = some g → g.acc.wf = true → c < 16 →
    ∃ g2, (s.passRow o p dp x m sa cols).group? g.id = some g2
      ∧ g2.accAt (p.accRow + m) c = (accWord p sa (cols.getD c ([], [])).2 (p.kc * dp / p.l) (s.rowA o p dp x m) (cols.getD c ([], [])).1
        (g.accAt (p.accRow + m) c)).bits % 2 ^ 32
      ∧ ∀ row, row ≠ p.accRow + m → g2.accAt row c = g.accAt row c)
  ∧ (∀ (p : Params) (sa sb : List Byte) (old : Nat) (xs ys : List Nat), p.acci = true → xs.length = p.l → ys.length = p.l →
    (accWord p sa sb 1 xs (ys.map some) old).bits = encodeI .i32 false (decodeI .i32 (encodeI .i32 p.isat
      (((xs.zip ys).map fun q => decodeI p.fa q.1 * decodeI p.fb q.2).foldl (· + ·) (decodeI .i32 old))))
    ∧ (accWord p sa sb 1 xs (ys.map some) old).flags = 0)
  ∧ (∀ (s : State) (op m r1 : Nat) (o : GridOp), s.grids = [o] → o.id = op →
    (s.rowsDone op m r1).grids = [if m ≤ r1 then { o with pass := o.pass + 1, rows := 0 } else { o with rows := r1 }])
  ∧ (∀ (s : State) (o : GridOp), s.grids.find? (fun q => q.id == s.arg.a) = some o → o.fault = none →
    (∀ m ∈ s.opMembers o, engineRuns m.1 = true) →
    ((∃ m ∈ s.opMembers o, ∃ op b dp x z, m.2.kind = .grid op b dp x z ∧ (parseParams b).passes dp ≤ o.pass) →
      exec .gridOpRetire s = .next ((s.opMembers o).foldl (fun s m => State.retireTile (match m.2.slot with
        | some k => s.slotEvent m.1.id k 1 0 0 (some m.2.issuer)
        | none => s) m.1.id m.2) ((s.recordFlags o).dropOp o.id)))
    ∧ ((∀ m ∈ s.opMembers o, ∀ op b dp x z, m.2.kind = .grid op b dp x z → o.pass < (parseParams b).passes dp) →
      exec .gridOpRetire s = .next s))
  ∧ (∀ (s : State) (o : GridOp) (f : Fail) (a : Dword), s.grids.find? (fun q => q.id == s.arg.a) = some o → o.fault = some (f, a) →
    (∀ m ∈ s.opMembers o, engineRuns m.1 = true) →
    exec .gridOpFault s = .next ((s.opMembers o).foldl (fun s m => (s.cmdFault m.1 m.2 f a).retireTile m.1.id m.2)
      ((s.recordFlags o).dropOp o.id)))
  ∧ (∀ (s : State) (o : GridOp), s.grids.find? (fun q => q.id == s.arg.a) = some o → o.fault = none →
    (∀ m ∈ s.opMembers o, m.2.fault = none) → exec .gridOpFault s = .next s)
  ∧ (∀ (s : State) (o : GridOp) (g : Group), (∃ m, (g.id, m) ∈ o.members) → s.group? g.id = some g →
    ∃ g2, (s.recordFlags o).group? g.id = some g2 ∧ g2.tileFlags = g.tileFlags ||| o.flags ∧ g2.acc = g.acc)
  ∧ (∀ (s : State) (op : Nat), (∀ o ∈ (s.dropOp op).grids, o.id ≠ op) ∧ (s.dropOp op).groups = s.groups ∧ (s.dropOp op).mem = s.mem)

/-- ACCZ writes 0 to each word of its rows. ACCLD reads n times 64 bytes from A and writes the word at A + 64i + 4c to row r0 + i,
column c, as raw bits. Words of other rows stay. With S, ACCLD sends the event (1, 0, 64n) when it retires. Neither raises a
flag. (R310) -/
def Obligations.AccumulatorZeroAndLoad : Prop :=
  (∀ (g : Group) (r0 n row c : Nat), g.acc.wf = true → c < 16 →
    (g.accRun (.accz r0 n)).1.accAt row c = (if r0 ≤ row ∧ row < r0 + n then 0 else g.accAt row c)
    ∧ (g.accRun (.accz r0 n)).2.2 = 0)
  ∧ (∀ (g : Group) (a r0 n row c : Nat), g.acc.wf = true → c < 16 →
    (g.accRun (.accld a r0 n)).1.accAt row c
      = (if r0 ≤ row ∧ row < r0 + n then ofBytes (g.spad.load (a + 64 * (row - r0) + 4 * c) 4) else g.accAt row c)
    ∧ (g.accRun (.accld a r0 n)).2 = (64 * n, 0))
  ∧ (∀ (s : State) (g : Group) (c : Cmd) (a r0 n k : Nat), s.cmd? s.arg.a = some (g, c) → c.kind = .accld a r0 n → c.slot = some k →
    c.fault = none → engineRuns g = true → s.beforeDone c = true → s.conflicts g c (c.touches s.img.spBase) = false →
    exec .accCmdRetire s = .next ((((s.setGroup { (g.accRun c.kind).1 with tileFlags := g.tileFlags }).stickyLaunch g.launch 0).slotEvent
      g.id k 1 0 (64 * n) (some c.issuer)).retireTile g.id c))

/-- ACCZ, ACCLD and ACCST that pass their checks issue one command and raise the tile counter. ACC_CMD_RETIRE of a command that
conflicts with no earlier one and whose earlier accesses have taken effect acts on the accumulator words or the scratchpad of
its group, ORs its flags into the tile flags, sends its event and lowers the counter. An ACCST to .b32 writes its words as they
are. (R308, R309, R311) -/
def Obligations.AccumulatorCommandsIssueAndRetire : Prop :=
  (∀ x : Desc, Does (.accz x) (fun s th => s.accBad th none (s.b32 th x).toNat (s.rowCount th x) false none = none ∧ th.cnt.tiles < 63)
    fun s th => (s.issueCmd th (.accz x) (.accz (s.b32 th x).toNat (s.rowCount th x)) none [] (accessesTo th [])).modThread th.id fun y =>
      { y with cnt := { y.cnt with tiles := y.cnt.tiles + 1 } })
  ∧ (∀ x : Desc, Does (.accld x) (fun s th => s.accBad th (s.slotOperand th x) (s.b32 th x).toNat (s.rowCount th x) false
      (some (s.a64 th x, 64 * s.rowCount th x)) = none ∧ th.cnt.tiles < 63)
    fun s th => (s.issueCmd th (.accld x) (.accld (s.a64 th x - s.img.spBase).toNat (s.b32 th x).toNat (s.rowCount th x))
      ((s.slotOperand th x).map (·.toNat)) [] (accessesTo th [(s.a64 th x, 64 * s.rowCount th x)])).modThread th.id fun y =>
      { y with cnt := { y.cnt with tiles := y.cnt.tiles + 1 } })
  ∧ (∀ x : Desc, Does (.accst x) (fun s th => s.accBad th (s.slotOperand th x) (s.b32 th x).toNat (s.rowCount th x)
      (accstUneven (s.rowCount th x) x.w2) (some (s.a64 th x, accstLen (s.rowCount th x) x.w2)) = none ∧ th.cnt.tiles < 63)
    fun s th => (s.issueCmd th (.accst x) (.accst (s.a64 th x - s.img.spBase).toNat (s.b32 th x).toNat (s.rowCount th x) x.w2)
      ((s.slotOperand th x).map (·.toNat)) [] (accessesTo th [(s.a64 th x, accstLen (s.rowCount th x) x.w2)])).modThread th.id fun y =>
      { y with cnt := { y.cnt with tiles := y.cnt.tiles + 1 } })
  ∧ (∀ (s : State) (g : Group) (c : Cmd), s.cmd? s.arg.a = some (g, c) →
    (∃ r0 n, c.kind = .accz r0 n) ∨ (∃ a r0 n, c.kind = .accld a r0 n) ∨ (∃ a r0 n w2, c.kind = .accst a r0 n w2) →
    engineRuns g = true → s.beforeDone c = true → s.conflicts g c (c.touches s.img.spBase) = false →
    (∀ f a, c.fault = some (f, a) → exec .accCmdRetire s = .next ((s.cmdFault g c f a).retireTile g.id c))
    ∧ (c.fault = none → c.slot = none →
    let r := g.accRun c.kind
    exec .accCmdRetire s = .next (((s.setGroup { r.1 with tileFlags := r.1.tileFlags ||| r.2.2 }).stickyLaunch g.launch r.2.2).retireTile
      g.id c)))
  ∧ (∀ (g : Group) (a r0 n row c : Nat) (w2 : Word), accstDt w2 = .b32 → w2.getLsbD 1 = false → accstPitch w2 = 64 → g.spad.wf = true →
    row < n → c < 16 →
    ofBytes ((g.accRun (.accst a r0 n w2)).1.spad.load (a + 64 * row + 4 * c) 4) = g.accAt (r0 + row) c
    ∧ (g.accRun (.accst a r0 n w2)).2.2 = 0)

/-- TRACE and PAIRS, once earlier accesses have completed to device scope and their record and entries pass, hand a ray or a pair
walk to the cluster's unit, or wait for room, and a bad record raises DESC. RAY_WALK_END of a finished walk writes its result
and inserts its continuation; a candidate with a program starts it on a core of the unit with its entry point and budget, and
PROGRAM_BUDGET_EXPIRY stops it at the budget. PAIR_EMIT places the next pair, in the ring when it has room; PAIR_WALK_END of a
stopped walk writes its descriptor and inserts DONE. That a walk is computed from records it has read once each, in walk order
(log 34), and that a trap of TRACE or PAIRS waits for outstanding loads to the registers of its frame (log 70), are the model's
readings. (R213, R326, R331, R332, R333, R336, R339, R340, R29, log 34, log 70) -/
def Obligations.TraversalIssuesAndEnds : Prop :=
  (∀ (x : Desc) (s s1 : State) (th : Thread) (rec : List Byte), Alone (.trace x) s th → s.released th 4 0 = true →
    s.ownRead th (s.a64 th x) 64 64 false = (s1, .ok rec) →
    (s1.badRayRecord rec = true → exec (.trace x) s = .next (if th.frameWaits then s.stay th (.trace x)
      else s1.trapHere th (encode (.trace x)) .desc 0 0))
    ∧ (∀ s2 h, s1.badRayRecord rec = false → s1.spawnCheck th (dword rec 0x30) = (s2, .ok h) → exec (.trace x) s = .next (
      if s2.rayRoom (s2.clusterOf th) then (s2.addRay th rec).past (.trace x) th
      else (s2.holdAt th.id (.trace x) (.trace rec (s.a64 th x))).stay th (.trace x))))
  ∧ (∀ (x : Desc) (s s1 : State) (th : Thread) (d : List Byte), Alone (.pairs x) s th → s.released th 4 0 = true →
    s.ownRead th (s.a64 th x) 128 128 false = (s1, .ok d) →
    (s1.badPairDesc d = true → exec (.pairs x) s = .next (if th.frameWaits then s.stay th (.pairs x)
      else s1.trapHere th (encode (.pairs x)) .desc 0 0))
    ∧ (∀ s2 s3 h h2, s1.badPairDesc d = false → s1.spawnCheck th (dword d 0x30) = (s2, .ok h) →
      s2.spawnCheck th (dword d 0x38) = (s3, .ok h2) → exec (.pairs x) s = .next (
      if s3.walkRoom (s3.clusterOf th) then (s3.addWalk th d (s.a64 th x)).past (.pairs x) th
      else (s3.holdAt th.id (.pairs x) (.pairs d (s.a64 th x))).stay th (.pairs x))))
  ∧ (∀ (s : State) (th : Thread) (l : Launch) (rec : List Byte), s.launchOf th = some l → ∃ r, r.record = rec ∧ r.launch = l.id
    ∧ r.cluster = s.clusterOf th ∧ r.ended = false ∧ (s.addRay th rec).rays = s.rays ++ [r] ∧ (s.addRay th rec).mem = s.mem)
  ∧ (∀ (s : State) (th : Thread) (rec : List Byte) (a : Dword), s.thread? s.arg.t = some th → th.hold = .trace rec a →
    exec .traversalRoom s = .next (if s.rayRoom (s.clusterOf th) then (s.addRay th rec).modThread th.id fun y => y.release else s))
  ∧ (∀ (s : State) (th : Thread) (d : List Byte) (a : Dword), s.thread? s.arg.t = some th → th.hold = .pairs d a →
    exec .traversalRoom s = .next (if s.walkRoom (s.clusterOf th) then (s.addWalk th d a).modThread th.id fun y => y.release else s))
  ∧ (∀ (s : State) (r : Ray) (l : Launch) (c : Cand), s.ray? s.arg.a = some r → s.launch? r.launch = some l → r.ended = false →
    r.tag = none → r.prog = none → s.programs r.cluster < 8 → s.isloadWaits = false →
    let x := s.runRay l r s.arg.n
    x.stop = some (.need c) →
    let s1 := x.rd.s.newId.2
    let w := s1.progWord r.cluster c.prog
    let th : Thread :=
      { id := x.rd.s.nextId, unit := .intersection, group := r.id, pc := (w.extractLsb' 0 14).setWidth 64, alloc := 64
        budget := (w.extractLsb' 16 11).toNat, origin := .engine }
    exec .intersectionProgramStart s = .next (State.setRay { s1 with threads := s1.threads ++ [th] }
      { r with seen := x.rd.seen, cand := some c, prog := some th.id }))
  ∧ (∀ (s : State) (th : Thread), s.thread? s.arg.t = some th → th.unit = .intersection → th.halted = none →
    exec .programBudgetExpiry s = .next (if th.budget ≤ th.issued then s.endProgram th .budget else s))
  ∧ (∀ (s s1 : State) (r : Ray) (l : Launch) (status reason : Nat) (addr : Dword), s.ray? s.arg.a = some r →
    s.launch? r.launch = some l → r.ended = false → r.tag = none → r.prog = none → r.deny = none →
    let x := s.runRay l r s.arg.n
    rayStatus x = some (status, reason, addr) → (∀ c path, x.stop ≠ some (.deferred c path)) →
    x.rd.s.writePieces (.walk r.id) l none (dword r.record 0x28) (resultPieces r.id r.record status reason addr x.best none) = (s1, .ok ()) →
    exec .rayWalkEnd s = .next ((s1.insertEvent l.id
      { entry := dword r.record 0x30, arg := dword r.record 0x28, origin := .engine, src := r.id }).dropRay { r with seen := x.rd.seen }))
  ∧ (∀ (s : State) (w : PairWalk) (l : Launch) (x : PairRun) (e : Emit), s.walks.find? (fun w => w.id == s.arg.a) = some w →
    s.launch? w.launch = some l → s.walking w = true → w.stop = none → s.runPairs l w s.arg.n = some x → x.stop = some (.pair e) →
    exec .pairEmit s = .next (x.rd.s.placePair l { w with seen := x.rd.seen } e))
  ∧ (∀ (s s1 s2 : State) (w : PairWalk) (l : Launch) (e : Emit) (cs : List Byte), w.deny = none →
    s.walkRead (.walk w.id) l (w.addr + 0x48) 4 = (s1, .ok cs) → (w.emitted - word cs 0).toNat < field w.desc 0x28 4 →
    let at_ : Dword := dword w.desc 0x18 + BitVec.ofNat 64 (32 * (w.emitted.toNat % field w.desc 0x28 4))
    s1.writePieces (.walk w.id) l none at_ [(0, pairBytes e w.seq)] = (s2, .ok ()) →
    s.placePair l w e = ((s2.farDrop (.walk w.id)).setWalk { w with placed := w.placed + 1, seq := w.seq + 1, emitted := w.emitted + 1 }).insertEvent l.id
      { entry := dword w.desc 0x30, arg := at_, origin := .engine, src := w.id })
  ∧ (∀ (s : State) (w : PairWalk) (l : Launch) (p : PairStop), s.walks.find? (fun w => w.id == s.arg.a) = some w →
    s.launch? w.launch = some l → s.walking w = true → w.stop = some p → exec .pairWalkEnd s = .next (s.endPairs l w p))

/-- On an intersection core ISRAY and ISCAND write the ray's words and limit, and the candidate, to eight registers. ISACC, ISREJ
and ISEND stop the core and leave its verdict with the ray. ISLOAD of an aligned image of 256 to 16,384 bytes waits, and
ISLOAD_APPLY, when no intersection core runs, replaces the instruction store of every unit by the bytes read and zeros, and
locks it when asked; a locked store raises PROT, with A in ADDR, which is the model's reading of R362 (log 15). That an
immediate of ISACC and ISEND converts to .f32 (log 20), that loads outstanding at the end of a program are dropped (log 38), and
that ISLOAD's trap waits for outstanding loads to the registers of its frame (log 70), are the model's readings. (R333, R334,
R335, R362, R50, R29, log 15, log 20, log 38, log 70) -/
def Obligations.IntersectionProgramsReport : Prop :=
  (∀ (x : Desc) (r : Ray) (c : Cand), Does (.isray x) (fun s th => s.candOf th = some (r, c)) fun s th =>
    s.putWords th.id x.d (((List.range 7).map fun i => word r.record (4 * i)) ++ [c.tc]))
  ∧ (∀ (x : Desc) (r : Ray) (c : Cand), Does (.iscand x) (fun s th => s.candOf th = some (r, c)) fun s th =>
    s.putWords th.id x.d [c.leaf.extractLsb' 0 32, c.leaf.extractLsb' 32 32, BitVec.ofNat 32 c.entry, c.prim, c.user, c.t, c.u, c.v])
  ∧ (∀ (s : State) (th : Thread) (b : BitVec 8) (ws : List Word), s.thread? th.id = some th → b.toNat + ws.length ≤ 255 →
    ∃ th2, (s.putWords th.id (.v b) ws).thread? th.id = some th2 ∧ (∀ i : Nat, i < ws.length → th2.getV (b + BitVec.ofNat 8 i) = ws.getD i 0)
      ∧ (∀ n : BitVec 8, n.toNat < b.toNat ∨ b.toNat + ws.length ≤ n.toNat → th2.getV n = th.getV n) ∧ th2.y0 = th.y0)
  ∧ (∀ (x : Desc) (s : State) (th : Thread), Alone (.isacc x) s th → exec (.isacc x) s = .next ((s.endProgram th
      (.acc (BitVec.ofNat 32 (s.arg' th (litOf x.toOps4) .f32 x.a)) (s.b32 th x) false)).executed th))
  ∧ (∀ (x : Desc) (s : State) (th : Thread), Alone (.isend x) s th → exec (.isend x) s = .next ((s.endProgram th
      (.acc (BitVec.ofNat 32 (s.arg' th (litOf x.toOps4) .f32 x.a)) (s.b32 th x) true)).executed th))
  ∧ (∀ (x : Desc) (s : State) (th : Thread), Alone (.isrej x) s th → exec (.isrej x) s = .next ((s.endProgram th .rej).executed th))
  ∧ (∀ (s : State) (th : Thread) (r : Ray) (v : Verdict), s.ray? th.group = some r → r.prog = some th.id →
    ∃ r2, (s.endProgram th v).ray? th.group = some r2 ∧ r2.verdicts = r.verdicts ++ [v] ∧ r2.prog = none ∧ r2.cand = none
      ∧ (s.endProgram th v).thread? th.id = none ∧ (s.endProgram th v).mem = s.mem)
  ∧ (∀ x : Desc, Holds (.isload x) (fun s th => (s.a64 th x).toNat % 256 = 0 ∧ 256 ≤ (s.b32 th x).toNat ∧ (s.b32 th x).toNat ≤ 16384
      ∧ (s.b32 th x).toNat % 4 = 0 ∧ s.islock = false)
    fun s th => s.holdAt th.id (.isload x) (.isload (s.a64 th x) (s.b32 th x).toNat (x.w2.getLsbD 0)))
  ∧ (∀ (x : Desc) (s : State) (th : Thread), Alone (.isload x) s th → (s.a64 th x).toNat % 256 = 0 → 256 ≤ (s.b32 th x).toNat →
    (s.b32 th x).toNat ≤ 16384 → (s.b32 th x).toNat % 4 = 0 → s.islock = true →
    TrapsTo (.isload x) s th .prot (s.a64 th x) 0)
  ∧ (∀ (s s1 : State) (th : Thread) (a : Dword) (n : Nat) (lock : Bool) (bs : List Byte), s.thread? s.arg.t = some th →
    th.hold = .isload a n lock → (∀ y ∈ s.threads, y.unit ≠ .intersection) → s.islock = false →
    s.ownRead th a n 256 true = (s1, .ok bs) →
    exec .isloadApply s = .next (((s1.loadStores bs lock).farDrop (.thread th.id)).modThread th.id fun y => y.release)
    ∧ (s1.loadStores bs lock).islock = lock
    ∧ ∀ u : Nat, u < 16 → (s1.loadStores bs lock).istore[u]? = some (bs ++ List.replicate (16384 - bs.length) 0))

/-- SGFORK that passes its checks, its entry's header read, waits for its opening event, which refuses a bad descriptor with DESC,
and otherwise writes the descriptor, starts a timer and inserts the siblings when the pool has room. SGPOST, SGCANCEL,
SGCANCEL.all and SGSTAT issue one event to the descriptor's home; there a post to a running sibling of an open group writes its
reward, marks it and counts it, and a post to a group that is not open changes nothing. A timer that has passed its limit closes
the group, after the events of the cycle in which it reaches it. The end of a close writes the closed status and inserts the
continuation. No posts close with status 4. That SGSTAT is an acquire at device scope whatever STATUS it returns, and that it
translates as a read and the others as writes, are the model's readings (log 40), and so is that the DESC of an opening waits
for outstanding loads to the registers of the trap frame (log 70). (R344, R345, R346, R347, R348, R350, R351, R352, R394, log
40, log 70) -/
def Obligations.SampleGroupsOpenPostAndClose : Prop :=
  (∀ (x : Desc) (s s1 s2 : State) (th : Thread) (pa c : Nat) (h : List Byte), Alone (.sgfork x) s th →
    let a := s.a64 th x
    let n := s.b32 th x
    let entry := s.raw64 th x.toOps4 x.c
    a.toNat % 512 = 0 → canonical (s.spaceOf th) a = true → 1 ≤ n.toNat → n.toNat ≤ 64 → s.sgPlace th a .write = (s1, .home pa c) →
    (s.spawnCheck th entry).2 ≠ .later → s1.spawnCheck th entry = (s2, .ok h) → s.released th 4 0 = true → s2.released th 4 0 = true →
    exec (.sgfork x) s = .next ((s2.holdAt th.id (.sgfork x) (.sgfork a pa c n.toNat entry false)).stay th (.sgfork x)))
  ∧ (∀ (s s1 : State) (th : Thread) (l : Launch) (a entry : Dword) (pa c n : Nat) (h : List Byte), s.thread? s.arg.t = some th →
    th.hold = .sgfork a pa c n entry false → s.launchOf th = some l → s.forksAfter th = false →
    (s.timers.filter fun e => (s.home e.pa).1 == (s.home pa).1).length < 512 →
    let s0 := s.sgLate pa
    let d := s0.readPhys pa 512
    s0.sgLost pa = false →
    (s0.sgBad d = true → exec .sgOpen s = .next (s0.trapHeld th .desc 0 0))
    ∧ (s0.sgBad d = false → s0.walkRead (.thread th.id) l (dword d 0x38) 64 = (s1, .ok h) → spawnHeaderOk (dword d 0x38) h = true →
      let s2 := (s1.farDrop (.thread th.id)).sgOpenWrites pa n entry c
      let s3 : State := { s2.newId.2 with timers := s2.timers ++
        [{ id := s2.nextId, pa := pa, va := a, launch := l.id, timer := s2.timeOf l.id, limit := field d 0x28 4, cache := c }] }
      exec .sgOpen s = .next ((s3.modThread th.id fun y => { y with hold := .sgfork a pa c n entry true }).sgInsert th l a n entry)))
  ∧ (∀ (s : State) (th : Thread) (l : Launch) (a entry : Dword) (n : Nat), s.launch? l.id = some l → l.waiting = [] →
    s.sgInsert th l a n entry = if l.lr.poolCap < l.pending + n then s
      else (s.insertAll l.id ((List.range n).map fun i => { entry := entry, arg := a + BitVec.ofNat 64 i, origin := .spawn })).modThread
        th.id fun y => y.release)  ∧ (∀ (x : Desc) (s s1 : State) (th : Thread) (pa c : Nat), Alone (.sgpost x) s th → s.Homely → (∀ a n, th.region ≠ .opened a n) →
    th.cnt.loads < 63 → acqHolds th (.dram 0 0) = false → parkedBy th { rel := true, agent := 4 } = false →
    s.newId.2.sgPlace th (s.a64 th x &&& ~~~0x1FF#64) .write = (s1, .home pa c) →
    ∃ t, exec (.sgpost x) s = .next t ∧ Issued (.sgpost x) s th
      { op := .sg 0 (s.a64 th x &&& 0x1FF#64).toNat (s.b32 th x), va := s.a64 th x &&& ~~~0x1FF#64, size := 512, align := 1, kind := .write
        dst := x.d, order := { rel := true, agent := 4 } } (.dram pa c) none s1 t)  ∧ (∀ (x : Desc) (s s1 : State) (th : Thread) (pa c : Nat), Alone (.sgcancel x) s th → s.Homely → (∀ a n, th.region ≠ .opened a n) →
    th.cnt.loads < 63 → acqHolds th (.dram 0 0) = false → parkedBy th { rel := true, agent := 4 } = false →
    s.newId.2.sgPlace th (s.a64 th x &&& ~~~0x1FF#64) .write = (s1, .home pa c) →
    ∃ t, exec (.sgcancel x) s = .next t ∧ Issued (.sgcancel x) s th
      { op := .sg 1 (s.a64 th x &&& 0x1FF#64).toNat 0, va := s.a64 th x &&& ~~~0x1FF#64, size := 512, align := 1, kind := .write
        dst := x.d, order := { rel := true, agent := 4 } } (.dram pa c) none s1 t)  ∧ (∀ (x : Desc) (s s1 : State) (th : Thread) (pa c : Nat), Alone (.sgcancelAll x) s th → s.Homely → (∀ a n, th.region ≠ .opened a n) →
    th.cnt.loads < 63 → acqHolds th (.dram 0 0) = false → parkedBy th { rel := true, agent := 4 } = false →
    s.newId.2.sgPlace th (s.a64 th x &&& ~~~0x1FF#64) .write = (s1, .home pa c) →
    ∃ t, exec (.sgcancelAll x) s = .next t ∧ Issued (.sgcancelAll x) s th
      { op := .sg 2 (s.a64 th x &&& 0x1FF#64).toNat 0, va := s.a64 th x &&& ~~~0x1FF#64, size := 512, align := 1, kind := .write
        dst := x.d, order := { rel := true, agent := 4 } } (.dram pa c) none s1 t)  ∧ (∀ (x : Desc) (s s1 : State) (th : Thread) (pa c : Nat), Alone (.sgstat x) s th → s.Homely → (∀ a n, th.region ≠ .opened a n) →
    th.cnt.loads < 63 → acqHolds th (.dram 0 0) = false →
    s.newId.2.sgPlace th (s.a64 th x &&& ~~~0x1FF#64) .read = (s1, .home pa c) →
    ∃ t, exec (.sgstat x) s = .next t ∧ Issued (.sgstat x) s th
      { op := .sg 3 (s.a64 th x &&& 0x1FF#64).toNat 0, va := s.a64 th x &&& ~~~0x1FF#64, size := 512, align := 1, kind := .read
        dst := x.d, order := { acq := true, agent := 4 } } (.dram pa c) none s1 t)
  ∧ (∀ (s : State) (th : Thread) (a : Access) (k i pa c : Nat) (w : Word), s.access? s.arg.a = some (th, a) → a.op = .sg k i w →
    a.place = .dram pa c → a.fixed = false → s.mayWrite th a = true → s.sgLost pa = false → (∀ e ∈ s.timers, e.pa = pa → e.stale = false) →
    let r := s.sgEvent pa k i w c
    exec .sgEvent s = .next (r.1.modAccess th.id a.id fun y => { y with fixed := true, value := toBytes 8 r.2 }))
  ∧ (∀ (s : State) (pa i j c : Nat) (w : Word), pa + 512 ≤ dramEnd → s.mem.wf = true → field (s.readPhys pa 512) 4 1 = 1 →
    i < siblings (s.readPhys pa 512) → j < siblings (s.readPhys pa 512) → i ≠ j → sibState (s.readPhys pa 512) i = 0 →
    sibState (s.readPhys pa 512) j = 0 →
    ∃ t, s.sgApply pa 0 i w c = some t ∧ field (t.readPhys pa 512) (0x100 + 4 * i) 4 = w.toNat ∧ sibState (t.readPhys pa 512) i = 1
      ∧ field (t.readPhys pa 512) 6 1 = (field (s.readPhys pa 512) 6 1 + 1) % 256 ∧ t.threads = s.threads)
  ∧ (∀ (s : State) (pa i c : Nat) (w : Word), field (s.readPhys pa 512) 4 1 ≠ 1 → s.sgApply pa 0 i w c = none ∧ s.sgApply pa 1 i w c = none
    ∧ s.sgApply pa 2 i w c = none)
  ∧ (∀ (s : State) (e : SgEntry), s.timers.find? (fun e => e.id == s.arg.a) = some e → e.closing = false →
    e.ended = false → e.stale = false →
    (e.limit ≠ 0 → exec .sgTimerExpiry s = .next (if e.timer + e.limit < s.timeOf e.launch
      ∨ (e.timer + e.limit = s.timeOf e.launch ∧ s.timeOf e.launch < s.cycle) then s.sgExpire e else s))
    ∧ (e.limit = 0 → exec .sgTimerExpiry s = .next s ∧ s.sgCount e = 0)
    ∧ (s.sgDead e.pa = false → exec .sgElapsedWrite s = .next (s.writeElapsed e))
    ∧ (s.writeElapsed e).mem = (s.sgWrite e.pa 0x2C (toBytes 4 (s.sgCount e))).mem)
  ∧ (∀ (s : State) (e : SgEntry), s.sgLost e.pa = false → s.sgExpire e = s.sgClose e.pa 2 e.cache)
  ∧ (∀ (s : State) (pa cause c : Nat) (e : SgEntry), s.sgAt pa = some e →
    ∃ e2 ∈ (s.sgClose pa cause c).timers, e2.id = e.id ∧ e2.closing = true)
  ∧ (∀ (s : State) (e : SgEntry) (l : Launch), s.timers.find? (fun e => e.id == s.arg.a) = some e → s.launch? e.launch = some l →
    e.closing = true → e.ended = false → e.stale = false → e.tag = none → e.adv = [] → e.ok = true → s.sgDead e.pa = false →
    let s2 := s.sgWrite e.pa 4 (toBytes 1 e.status) e.cache
    s2.sgLost e.pa = false →
    let s3 := s2.insertEvent l.id { entry := dword (s2.readPhys e.pa 512) 0x38, arg := e.va, origin := .engine, src := e.id }
    (∀ l3, s3.launch? l.id = some l3 → ∀ p ∈ l3.waiting, p.src ≠ e.id) →
    exec .sgCloseDone s = .next (s3.dropTimer e))
  ∧ (∀ (eps : Nat) (rs : List (Bool × Nat)), (normalise eps 0 rs).status = 4 ∧ (normalise eps 0 rs).stats = none
    ∧ ∀ v ∈ (normalise eps 0 rs).adv, v = 0x7FC00000)

/-- GANG_PLACE starts the first gang of the dispatcher's order that fits on its cores: each group has every thread of every stage at
the entry plus 64. SPAWNED_GROUP_START starts a spawned group whose header is good, its threads with their entry, argument,
index and count, or leaves records. GANG_WAIT_EXPIRY ages a gang; BIN_TIMER_EXPIRY launches a bin whose cycle of expiry has
passed; POOL_INSERT_DEFERRED inserts the oldest waiting thread when the pool has room. A pending thread's record is written at
its place in the pool area. GROUP_FREE frees an ended group without commands, or retains it for its continuations and for
accesses still to perform. LAUNCH_COMPLETE ends the launch's bindings. LAUNCH_COMPLETE and LAUNCH_END_DONE queue DONE with codes
0 and 3, the latter once fault records have been written and nothing of the launch is outstanding. LAUNCH_ID_FREE frees the ID
and owes ROOM. Where a pool record stands (log 46), which entries of the pool the dispatcher reads back, that a group stays for
accesses still to perform (logs 22, 39), that a saved group without threads leaves the dispatcher, and what DONE waits for, are
the model's readings. The rules of 05 are R136, R138, R139, R149 and R151 to R155. (05_threads_and_teams.md, R149, R154, R155,
R247, R424, R425, R428, R429, log 22, log 39, log 46) -/
def Obligations.GroupsAndLaunchesStartAndEnd : Prop :=
  (∀ (s s1 : State) (x : Gang) (nd : Need) (cs : List Nat), s.nextGang = (s1, some (x, nd, cs)) →
    exec .gangPlace s = .next (if x.spawned = [] ∧ x.saved = [] then s1.startGang x cs else s1))
  ∧ (∀ s s1 : State, s.nextGang = (s1, none) → exec .gangPlace s = .next s1)
  ∧ (∀ (s : State) (l : Launch) (x : Gang) (idx core : Nat),
    (∃ g ∈ (s.startGroup l x idx core).groups, g.id = s.nextId ∧ g.launch = l.id ∧ g.gang = x.id ∧ g.idx = idx ∧ g.core = core
      ∧ g.hdr = l.hdr ∧ g.res = .running ∧ g.slots.length = l.hdr.slots)
    ∧ (∀ i t, i < 4 → t < l.hdr.threads.getD i 0 → ∃ th ∈ (s.startGroup l x idx core).threads, th.group = s.nextId ∧ th.unit = .device
      ∧ th.pc = l.lr.entry + 64 ∧ th.stage = i ∧ th.tid = t ∧ th.lane = t % 128 ∧ th.alloc = 8 * l.hdr.regs.getD i 0 ∧ th.sup = false)
    ∧ (s.startGroup l x idx core).mem = s.mem ∧ ∀ th ∈ s.threads, th ∈ (s.startGroup l x idx core).threads)
  ∧ (∀ (s : State) (x : Gang), x ∈ s.gangs → x.id = s.arg.a → x.reserve.isSome = true → ∃ t, exec .gangWaitExpiry s = .next t
    ∧ (x.since + 1400000 ≤ s.cycle → { x with aged := true } ∈ t.gangs) ∧ (s.cycle < x.since + 1400000 → x ∈ t.gangs)
    ∧ (∀ y ∈ s.gangs, y.id ≠ s.arg.a → y ∈ t.gangs) ∧ t.threads = s.threads ∧ t.groups = s.groups)
  ∧ (∀ (s s1 : State) (x : Gang) (l : Launch) (b : List Byte),
    s.gangs.find? (fun x => x.id == s.arg.a && !x.spawned.isEmpty) = some x → s.launch? x.launch = some l →
    l.state = .live → x.tag = none → s.sideRead (.walk x.id) l x.entry 64 = (s1, .ok b) →
    (spawnHeaderOk x.entry b = false → exec .spawnedGroupStart s = .next (s1.spawnFailed x { cause := .desc }))
    ∧ (∀ s2 nd core rest, spawnHeaderOk x.entry b = true → s1.nextGang = (s2, some (x, nd, core :: rest)) →
      let qs := s2.quads core nd.hdr nd.n none
      exec .spawnedGroupStart s = .next (s2.startSpawned x nd.hdr core (if qs.contains s.arg.q then s.arg.q else qs.headD 0))))
  ∧ (∀ (ps : List PendThread) (h : Header) (gid quad code first i : Nat) (p : PendThread), ps[i]? = some p →
    ∃ th ∈ spawnThreads ps h gid quad code first, th.group = gid ∧ th.pc = p.entry + 64 ∧ th.tid = i ∧ th.lane = 32 * quad + i
      ∧ th.count = ps.length ∧ th.getV 0 = p.arg.extractLsb' 0 32 ∧ th.getV 1 = p.arg.extractLsb' 32 32
      ∧ th.getV 2 = BitVec.ofNat 32 i ∧ th.getV 3 = BitVec.ofNat 32 ps.length)
  ∧ (∀ (s : State) (l : Launch) (b : Bin), s.launch? s.arg.l = some l → l.bins.find? (fun b => b.opened == s.arg.a) = some b →
    (l.pausedAt.isSome = true ∨ s.cycle ≤ b.timer + (if l.lr.binTimer = 0 then 2048 else l.lr.binTimer) →
      exec .binTimerExpiry s = .next s)
    ∧ (l.pausedAt = none → b.timer + (if l.lr.binTimer = 0 then 2048 else l.lr.binTimer) < s.cycle →
      ∃ t, exec .binTimerExpiry s = .next t ∧ t.gangs = s.gangs ++ [{ id := s.nextId, launch := l.id, entry := b.entry, spawned := b.threads.map (s.poolRecord l) }]
      ∧ t.launch? l.id = some { l with bins := l.bins.filter fun x => x.opened != b.opened } ∧ t.threads = s.threads ∧ t.mem = s.mem))
  ∧ (∀ (s : State) (l : Launch) (p : PendThread) (rest : List PendThread), s.launch? s.arg.l = some l → l.waiting = p :: rest →
    (∀ b ∈ l.bins, ∀ y ∈ b.threads, y.stored = true ∨ y.lost = true) →
    exec .poolInsertDeferred s = .next (if l.pending < l.lr.poolCap then
      ((s.setLaunch { l with waiting := rest }).insertOne l.id p).dropSource p.src else s))
  ∧ (∀ (s s1 : State) (l : Launch) (p : PendThread), s.launch? l.id = some l →
    (l.bins.flatMap (·.threads)).find? (fun p => !p.stored && !p.lost) = some p →
    s.sideWrite (.side l.id 2) l (l.lr.poolAddr + BitVec.ofNat 64 (16 * p.index)) (toBytes 8 p.entry.toNat ++ toBytes 8 p.arg.toNat)
      = (s1, .ok ()) →
    s.writeRecord l.id = State.farDone ((s1.modPending l.id p.index fun x => { x with stored := true }).modLaunch l.id fun l =>
      { l with poolTag := none }) (.side l.id 2))
  ∧ (∀ (s : State) (g : Group), s.group? s.arg.g = some g → g.over = true → g.cmds = [] → ∃ t, exec .groupFree s = .next t
    ∧ (∀ th, th ∈ t.threads ↔ th ∈ s.threads ∧ ¬ (th.unit = .device ∧ th.group = g.id ∧ th.ops = []))
    ∧ t.mem = s.mem ∧ t.launches = s.launches
    ∧ ((∀ x ∈ g.slots, x.cont = none) → (∀ th ∈ s.threads, th.unit = .device → th.group = g.id → th.ops = []) →
      t.group? g.id = none ∧ ∀ g2, g2.id ≠ g.id → (g2 ∈ t.groups ↔ g2 ∈ s.groups))
    ∧ ((∃ x ∈ g.slots, x.cont ≠ none) ∨ (∃ th ∈ s.threads, th.unit = .device ∧ th.group = g.id ∧ th.ops ≠ []) →
      t.group? g.id = some { g with res := .retained }))
  ∧ (∀ (s : State) (l : Launch), s.launch? s.arg.l = some l → l.state = .live → s.launchQuiet l = true → l.queue < s.queues.length →
    ∃ t, exec .launchComplete s = .next t ∧ t.launch? l.id = some { l with state := .done }
      ∧ (t.queueOf l.queue).events = (s.queueOf l.queue).events ++ [{ kind := 2, eid := l.id, datum := l.lr.addr }] ∧ t.mem = s.mem
      ∧ ∀ b, b ∈ t.bindings ↔ b ∈ s.bindings ∧ b.launch ≠ l.id)
  ∧ (∀ (s : State) (l : Launch), s.launch? s.arg.l = some l → l.state = .ending → l.queue < s.queues.length → l.records = [] →
    (∀ y ∈ s.far, y.owner ≠ .gone l.id) → (∀ th ∈ s.threads, th.unit = .device → th.ops ≠ [] → ∀ g ∈ s.groups, g.id = th.group → g.launch ≠ l.id) →
    ∃ t, exec .launchEndDone s = .next t ∧ t.launch? l.id = some { l with state := .done }
      ∧ (t.queueOf l.queue).events = (s.queueOf l.queue).events ++ [{ kind := 2, code := 3, eid := l.id, datum := l.lr.addr }])
  ∧ (∀ (s : State) (l : Launch), s.launch? s.arg.l = some l → l.state = .done → l.records = [] → l.flagOrs = [] →
    (∀ g ∈ s.groups, g.launch ≠ l.id) → ∃ t, exec .launchIdFree s = .next t ∧ t.launch? l.id = none
      ∧ (∀ l2, l2.id ≠ l.id → (l2 ∈ t.launches ↔ l2 ∈ s.launches))
      ∧ ∀ q, q < 64 → q < s.queues.length → t.queueOf q = if (s.queueOf q).room then
          { s.queueOf q with events := (s.queueOf q).events ++ [{ kind := 6 }], room := false } else s.queueOf q)
  ∧ (∀ (s : State) (l : Launch), s.launch? s.arg.l = some l → l.state = .ending → l.records ≠ [] → l.tag = none →
    exec .launchEndDone s = .next (s.flushRecords l.id (l.records.length + 1)))
  ∧ (∀ (s : State) (l : Launch), s.launch? s.arg.l = some l → l.state = .ending → (∃ y ∈ s.far, y.owner = .gone l.id) → l.records = [] →
    exec .launchEndDone s = .next s)
  ∧ (∀ (s : State) (g : Group), s.group? s.arg.g = some g → (g.res = .saved ∨ g.res = .evicted) → s.live g.id = [] → g.cmds = [] →
    (∀ x ∈ g.slots, x.cont = none) → (∀ th ∈ s.threads, th.unit = .device → th.group = g.id → th.ops = []) →
    ∃ t, exec .groupFree s = .next t ∧ t.group? g.id = none ∧ (∀ x ∈ t.gangs, x.saved ≠ [g.id] ∧ g.id ∉ x.saved) ∧ t.mem = s.mem)

/-- PREEMPT_HALT saves every group of a launch under pre-emption, rolls OPEN regions back to their start and queues PREEMPTED.
GROUP_RESTORE places the next saved gang; HARNESS_RESTORE reloads its copies and resumes its grid operations where the drain
records of HARNESS_DRAIN left them; a reload that fails stops the operations that read the copy. GROUP_EVICT evicts a gang whose
threads have all waited long enough, and GROUP_REPLACE returns a woken one. CORRECTED_ERROR counts errors, the fourth in the
window is lasting; SPARE_MOVE freezes a lasting core; LASTING_CONTAINMENT contains and logs; UNCORRECTABLE_ERROR poisons a line
of memory or of a stack, or kills a group. Which loads and stores a rolled-back region abandons (log 21), how an error names
what it meets and which accumulator commands meet lost data (log 51), fields of a drain record without a further pass (log 68),
and what a failed reload does (log 72), are the model's readings. (R159, R291, R292, R293, 17_traps_and_preemption.md, R382,
R384, R433, log 21, log 51, log 68, log 72) -/
def Obligations.GroupsSaveRestoreAndEvict : Prop :=
  (∀ (s : State) (l : Launch), s.launch? s.arg.l = some l → l.state = .saving → (∀ th ∈ s.threads, th.halted = none) →
    (∀ e ∈ s.timers, e.launch ≠ l.id) → (s.groups.map (·.id)).Nodup → (s.threads.map Thread.id).Nodup →
    l.queue < s.queues.length →
    ∃ t, exec .preemptHalt s = .next t ∧ t.mem = s.mem
      ∧ t.launch? l.id = some { l with state := .saved, notify := 0, pausedAt := some s.cycle }
      ∧ (t.queueOf l.queue).events = (s.queueOf l.queue).events ++ List.replicate l.notify { kind := 5, eid := l.id }
      ∧ (∀ g ∈ s.groups, g.launch ≠ l.id → g ∈ t.groups)
      ∧ (∀ g ∈ s.groups, g.launch = l.id → g.over = false →
        (∃ g2 ∈ t.groups, g2.id = g.id ∧ g2.res = .saved ∧ g2.k = g.k ∧ g2.spad = g.spad ∧ g2.slots = g.slots ∧ g2.queues = g.queues)
        ∧ (g.res = .running → ∀ th ∈ s.threads, th.unit = .device → th.group = g.id → th.exited = false →
          ∃ th2, t.thread? th.id = some th2 ∧ (s.saveThread th).thread? th.id = some th2)))
  ∧ (∀ (s : State) (n : Nat) (a : Dword) (th : Thread), s.thread? th.id = some th → th.region = .opened a n →
    (th.ops.map Access.id).Nodup → ∃ th2, (s.saveThread th).thread? th.id = some th2 ∧ th2.pc = a ∧ th2.region = .none ∧ th2.hold = .none
      ∧ th2.pend = [] ∧ th2.v = th.v ∧ th2.status = th.status
      ∧ (∀ x, x ∈ th2.ops ↔ x ∈ th.ops ∧ x.buffered = false ∧ squashes x = false ∧ (x.op.isSt = true → n ≤ x.id → x.place.known = true))
      ∧ th2.cnt.stores = th.cnt.stores - ((th.ops.filter (abandons n)).filter fun x => x.counted && !x.op.isLoad).length)
  ∧ (∀ (s : State) (th : Thread), (s.threads.map Thread.id).Nodup → s.thread? th.id = some th → (∀ a n, th.region ≠ .opened a n) →
    (∀ n, th.hold ≠ .yield_ n) → s.saveThread th = s)
  ∧ (∀ (s s1 : State) (x : Gang) (nd : Need) (gid core : Nat) (g : Group), s.nextGang = (s1, some (x, nd, [core])) → x.saved = [gid] →
    s1.group? gid = some g → g.mail = [] → ∃ t g2, exec .groupRestore s = .next t ∧ t.group? gid = some g2 ∧ g2.core = core
      ∧ g2.id = gid ∧ g2.k = g.k ∧ g2.spad = g.spad ∧ g2.slots = g.slots ∧ t.mem = s1.mem
      ∧ (g.hitched = none → g2.res = (if (s1.live gid).isEmpty then .ended else .running) ∧ ∀ th ∈ s1.threads, th.unit = .device → th.group = gid → th.exited = false →
        wake s1.cycle th ∈ t.threads)
      ∧ (g.hitched ≠ none → g2.res = .restoring ∧ t.threads = s1.threads))
  ∧ (∀ (s : State) (g : Group) (h : Hitched), s.group? s.arg.g = some g → g.hitched = some h →
    s.halting g = true →
    ∃ t g2, exec .harnessDrain s = .next t ∧ t.group? g.id = some g2 ∧ t.threads = s.threads ∧ t.mem = s.mem
      ∧ ∀ c ∈ g.cmds, ∀ op b dp x y o, c.kind = .grid op b dp x y → s.grids.find? (fun o => o.id == op) = some o →
        ∃ d ∈ g2.drains, d.op = op ∧ d.bytes = drainRecord s.img.spBase g c o b dp)
  ∧ (∀ (s : State) (base : Dword) (g : Group) (h : Hitched) (c : Cmd) (o o2 : GridOp) (b : List Byte), g.hitched = some h → h.w < 16 → h.dp < 16 →
    o.rows < 65536 → 0 < (parseParams b).kc → o.pass * (parseParams b).kc * 2 ^ h.dp < 2 ^ 32 → o2 ∈ s.grids → o2.id = o.id →
    { o2 with pass := o.pass, rows := o.rows } ∈ (s.resumeOp { op := o.id, bytes := drainRecord base g c o b (2 ^ h.dp) }).grids)
  ∧ (∀ (s : State) (g : Group), s.group? s.arg.g = some g →
    let gs := (s.gangGroups g.gang).filter fun y => !y.over
    let back := (gs.filter fun y => y.res == .restoring).map (·.id)
    let s1 := back.foldl (fun s i => s.reloadGroup i) s
    back ≠ [] → (∀ y ∈ gs, y.res = .restoring ∨ y.res = .running) → (∀ i ∈ back, s1.reloadWaits i = false) →
    exec .harnessRestore s = .next (gs.foldl (fun s y => s.modGroup y.id fun z => { z with drains := [] })
      (back.foldl (fun s i => s.revive i)
        ((back.flatMap fun i => ((s1.group? i).map Group.drains).getD []).foldl (fun s d => s.resumeOp d) s1))))
  ∧ (∀ (s : State) (g : Group) (n : Nat) (plane : Bool), s.group? g.id = some g →
    let c := (g.frameAt n).copy plane
    c.due = true → c.tag = none → (c.old.getD c.source).spad = true →
    ∃ g2, (s.reloadCopy g.id n plane).group? g.id = some g2
      ∧ (g2.frameAt n).copy plane = { c with data := Memory.store [] 0 (g.spad.load (c.old.getD c.source).src.toNat 4096), due := false })
  ∧ (∀ (s : State) (g : Group) (n : Nat) (plane : Bool) (e : Fail) (va : Dword), s.group? g.id = some g →
    ∀ o ∈ s.grids, o.fault = none → ∀ m, (g.id, m) ∈ o.members → (g.id, n, plane) ∈ o.planes →
    (((g.frameAt n).copy plane).old = none ∨ m < ((g.frameAt n).copy plane).pair) →
    { o with fault := some ({ cause := .harness }, 0) } ∈ (s.reloadLost g.id n plane e va).grids)
  ∧ (∀ (s : State) (g : Group), s.group? s.arg.g = some g → g.res = .running → (s.groups.map (·.id)).Nodup →
    (∀ y ∈ s.groups, y.gang = g.gang → y.kept = true → (y.res = .running ∨ y.res = .ended) ∧ ∀ x ∈ s.live y.id,
      x.yields = true ∧ x.halted = none ∧ x.holdAt + 65536 ≤ s.cycle) →
    ∃ t, exec .groupEvict s = .next t ∧ t.mem = s.mem ∧ (∀ y ∈ s.groups, y.gang ≠ g.gang → y ∈ t.groups)
      ∧ ∀ y ∈ s.groups, y.gang = g.gang → y.kept = true → ∃ y2 ∈ t.groups, y2.id = y.id ∧ y2.res = .evicted ∧ y2.spad = y.spad)
  ∧ (∀ (s : State) (g : Group) (x : Thread), s.group? s.arg.g = some g → x ∈ s.live g.id → g.over = false →
    (x.yields = false ∨ s.cycle < x.holdAt + 65536) → exec .groupEvict s = .next s)
  ∧ (∀ (s : State) (g : Group), s.group? s.arg.g = some g → g.res = .evicted →
    let gs := (s.gangGroups g.gang).filter fun y => y.res == .evicted
    ((∃ y ∈ gs, y.mail ≠ [] ∨ ∃ x ∈ s.live y.id, x.yields = false ∨ ∃ a ∈ x.ops, s.answeredPage a = true)
      ∨ ∀ y ∈ gs, s.live y.id = [] ∧ y.cmds ≠ []) → ∃ t, exec .groupReplace s = .next t
      ∧ t.gangs = s.gangs ++ [{ id := g.gang, launch := g.launch, index := g.gangIdx, saved := gs.map (·.id) }]
      ∧ t.threads = s.threads ∧ t.mem = s.mem)
  ∧ (∀ (s : State) (e : ErrorCount), s.errors.find? (fun x => x.str == Structure.unit s.arg.str) = some e → ∃ t, exec .correctedError s = .next t
    ∧ (∃ e2 ∈ t.errors, e2.str = Structure.unit s.arg.str ∧ e2.times = s.cycle :: e.times.filter (fun c => s.cycle < c + 14000000)
      ∧ (e2.lasting = true ↔ e.lasting = true ∨ 3 ≤ (e.times.filter fun c => s.cycle < c + 14000000).length))
    ∧ ∀ e3 ∈ s.errors, e3.str ≠ Structure.unit s.arg.str → e3 ∈ t.errors)
  ∧ (∀ s : State, s.errors.find? (fun x => x.str == Structure.unit s.arg.str) = none → ∃ t, exec .correctedError s = .next t
    ∧ ∃ e ∈ t.errors, e.str = Structure.unit s.arg.str ∧ e.times = [s.cycle] ∧ e.lasting = false)
  ∧ (∀ (s : State), (∃ e ∈ s.errors, e.lasting = true ∧ coreOfStr e.str = some s.arg.a) → s.arg.a ∉ s.deadCores → s.arg.a < 512 →
    (∀ th ∈ s.threads, th.halted = none) → (s.groups.map (·.id)).Nodup → 0 < s.spares.getD (s.arg.a / 32) 0 →
    ∃ t, exec .spareMove s = .next t ∧ t.spares.getD (s.arg.a / 32) 0 + 1 = s.spares.getD (s.arg.a / 32) 0 ∧ t.mem = s.mem
      ∧ ∀ g ∈ s.groups, g.core = s.arg.a → (g.res = .running ∨ g.res = .restoring) →
        (∃ g2 ∈ t.groups, g2.id = g.id ∧ g2.res = .saved) ∧ ∃ x ∈ t.gangs, x.id = g.gang ∧ x.saved = [g.id] ∧ x.at_ = some s.arg.a)
  ∧ (∀ (s : State), (∃ e ∈ s.errors, e.lasting = true ∧ coreOfStr e.str = some s.arg.a) → s.arg.a ∉ s.deadCores → s.arg.a < 512 →
    s.spares.getD (s.arg.a / 32) 0 = 0 → s.onCore s.arg.a = [] → exec .spareMove s = .next
      { s with errors := s.errors.filter fun e => coreOfStr e.str != some s.arg.a, deadCores := s.deadCores ++ [s.arg.a] })
  ∧ (∀ (s : State) (e : ErrorCount) (n t : Nat), e ∈ s.errors → e.lasting = true → e.str = s.arg.str →
    (e.str = .fabricPort n → State.fabricUp { s with ports := s.ports.set n false } = true → ∃ t, exec .lastingContainment s = .next t ∧ t.ports = s.ports.set n false
      ∧ t.log = s.log ++ [.contained e.str] ∧ t.mem = s.mem)
    ∧ (e.str = .slcData t n → ∃ u, exec .lastingContainment s = .next u ∧ (t, n) ∈ u.noAlloc ∧ u.log = s.log ++ [.contained e.str]
      ∧ u.mem = s.mem ∧ ∀ l ∈ u.caches.slc, s.lineHome l ≠ (t, n)))
  ∧ (∀ s : State, s.group? s.arg.g = none →
    ((∀ x ∈ s.threads, x.id = s.arg.t → x.unit ≠ .device) → s.arg.a < dramEnd → ∃ t, exec .uncorrectableError s = .next t
      ∧ (lineOf s.arg.a, List.range 128) ∈ t.poison ∧ t.mem = s.mem ∧ t.threads = s.threads)
    ∧ ((∃ x ∈ s.threads, x.id = s.arg.t ∧ x.unit = .device) → s.arg.a < 2 ^ 32 → ∃ t, exec .uncorrectableError s = .next t
      ∧ (lineOf (stackPa s.arg.t s.arg.a), List.range 128) ∈ t.poison ∧ t.mem = s.mem ∧ t.threads = s.threads))
  ∧ (∀ (s : State) (g : Group), s.group? s.arg.g = some g →
    exec .uncorrectableError s = .next (if g.over then s
      else (if s.arg.n == 1 then s.loseAcc g.id else s).killGroup g.id))
  ∧ (∀ (s : State) (g : Group), (s.groups.map (·.id)).Nodup → s.group? g.id = some g → g.res = .ended → g.cmds ≠ [] → s.live g.id = [] → ∀ r : Residency,
    ∃ g2, (s.saveGroup g.id r).group? g.id = some g2 ∧ g2.res = r ∧ g2.cmds = g.cmds ∧ g2.spad = g.spad ∧ g2.frames = g.frames.map fun f =>
      { f with plane0 := f.plane0.mark, plane1 := f.plane1.mark })
  ∧ (∀ (s : State) (l : Launch) (g : Group), s.launch? g.launch = some l → (s.halting g = true ↔ l.state = .saving ∨
    ∃ y ∈ s.groups, y.gang = g.gang ∧ (y.res = .saved ∨ y.res = .evicted ∨ y.res = .restoring)))
  ∧ (∀ (s : State) (g : Group), s.group? s.arg.g = some g → s.halting g = false → exec .harnessDrain s = .next s)

/-- PAGE_REQUEST_ROOM writes the oldest waiting record of a site at its ring's tail when there is room, and otherwise changes
nothing. PAGE_REPLY discards a reply of another size, with a reserved byte or a status above 1, or with no request; status 0
services the request, so that a thread parked on it issues its instruction again, and status 1 refuses it. SHOOTDOWN removes
every covered translation and every cached upper entry of one. SHOOTDOWN_ACK raises SDDONE once no earlier covered access is
left that can no longer be squashed. PAGE_HOME_MOVE copies the page, changes only PFN, RMT and DEV of its leaf and shoots the
page down, and does so only at a quiesce point and where a launch's hints allow it, or traps firmware whose descriptor is lost;
the move ends, with the old frame returned, once every device has answered. Which accesses a shoot-down squashes, that its
acknowledgement waits for any request that has left for another device or a port (log 47), what a move reaches and when a page
belongs to a working set (log 69), are the model's readings. (R391, R392, R393, R394, R395, R396, R407, R430, R433, log 47, log
69) -/
def Obligations.PagesAreRequestedAnsweredAndShot : Prop :=
  (∀ (s : State) (r : PageReq), s.preqs.find? (fun r => r.site == s.arg.n && !r.sent) = some r → s.mem.wf = true →
    let c := s.control.getD r.site {}
    (s.hostUp.getD r.site false = true → (c.prqTail - c.prqHead).toNat < c.prqCap → r.site < 2 → s.control.length = 2 →
      ∃ t, exec .pageRequestRoom s = .next t ∧ t.readPhys (hostPa r.site (c.prqBase + 32 * (c.prqTail.toNat % c.prqCap))) 32 = r.bytes
        ∧ (t.control.getD r.site {}).prqTail = c.prqTail + 1 ∧ (∃ x ∈ t.preqs, x.tag = r.tag ∧ x.sent = true) ∧ t.threads = s.threads)
    ∧ (c.prqCap ≤ (c.prqTail - c.prqHead).toNat → exec .pageRequestRoom s = .next s))
  ∧ (∀ s : State, s.preqs.find? (fun r => r.site == s.arg.n && !r.sent) = none → exec .pageRequestRoom s = .next s)
  ∧ (∀ s : State, (s.arg.data.length ≠ 16 ∨ zeros s.arg.data 9 7 = false ∨ 1 < field s.arg.data 8 1
      ∨ ∀ r ∈ s.preqs, r.sent = true → r.table = none → r.tag ≠ field s.arg.data 0 8) → exec .pageReply s = .next s)
  ∧ (∀ (s : State) (r : PageReq), s.arg.data.length = 16 → zeros s.arg.data 9 7 = true →
    s.preqs.find? (fun r => r.sent && r.table.isNone && r.tag == field s.arg.data 0 8) = some r →
    let s1 : State := { s with preqs := s.preqs.filter fun x => x.tag != r.tag }
    (field s.arg.data 8 1 = 0 → exec .pageReply s = .next (s1.serviced r))
    ∧ (field s.arg.data 8 1 = 1 → exec .pageReply s = .next (s1.refusedPage r)))
  ∧ (∀ (s : State) (r : PageReq) (th : Thread) (va : Dword), th ∈ s.threads → th.hold = .parked r.tag va → (∀ x ∈ s.threads, x.ops = []) →
    (∀ l ∈ s.launches, l.tag ≠ some r.tag) → ∃ th2 ∈ (s.serviced r).threads, th2.id = th.id ∧ th2.hold = .none ∧ th2.pc = th.pc
      ∧ th2.v = th.v ∧ th2.pend = th.pend)
  ∧ (∀ s : State, s.arg.data.length = 16 → s.arg.n < 2 → exec .shootdown s = .next (s.shoot s.arg.n s.arg.data))
  ∧ (∀ (s : State) (site : Nat) (bs : List Byte), (∀ x ∈ s.threads, x.ops = []) →
    let x := parseShoot s.nextId site bs
    (s.shoot site bs).tlb = s.tlb.filter (fun t => !x.hitsTlb t) ∧ (s.shoot site bs).walkc = s.walkc.filter (fun w => !x.hitsWalk w) ∧ (s.shoot site bs).shoots = s.shoots ++ [x] ∧ (s.shoot site bs).mem = s.mem)
  ∧ (∀ (id site : Nat) (bs : List Byte), (field bs 4 4 = 0 ∨ 2 ^ 20 < field bs 4 4 ∨ field bs 8 8 % 4096 ≠ 0 ∨ field bs 2 1 = 1) →
    ∀ page n, (parseShoot id site bs).hits page n = true)
  ∧ (∀ (s : State) (x : Shoot), s.shoots.find? (fun x => x.site == s.arg.n) = some x →
    ((∃ th ∈ s.threads, ∃ a ∈ th.ops, a.id < x.id ∧ s.shootHits x th a = true ∧ s.squashed a = false) →
      exec .shootdownAck s = .next s)
    ∧ ((∃ y ∈ s.far, y.id < x.id ∧ y.sent = true ∧ y.place.far = true ∧ y.answer = .none) → exec .shootdownAck s = .next s)
    ∧ ((∀ th ∈ s.threads, ∀ a ∈ th.ops, a.id < x.id → s.shootHits x th a = true → s.squashed a = true) →
      (∀ y ∈ s.far, y.id < x.id → y.sent = true → y.place.far = true → y.answer ≠ .none) → x.site < 2 → x.site < s.control.length →
      ∃ t, exec .shootdownAck s = .next t ∧ x ∉ t.shoots
        ∧ (t.control.getD x.site {}).sdDone = (s.control.getD x.site {}).sdDone + 1 ∧ t.mem = s.mem ∧ t.threads = s.threads))
  ∧ (∀ (s s1 s2 : State) (e : Dword) (ea : Nat) (bs : List Byte),
    let d := s.qdescBytes s.arg.q
    let sp := queueSpace d
    let va := s.arg.va
    let e1 := movedLeaf e s.arg.a (s.arg.l == 1) s.arg.n
    let x := pageShoot sp.asid va
    let o : Owner := .side 0 s.arg.q
    let old := s.physPlace e (leafPa e 1 va) 4096 false false
    s.moves.find? (fun m => m.queue == s.arg.q) = none → s.qdescLost s.arg.q = false → va.toNat % 4096 = 0 → s.arg.a % 4096 = 0 → (dword d 0x70).toNat ≤ va.toNat → va.toNat + 4095 ≤ (dword d 0x78).toNat →
    s.movable s.arg.q sp.asid va = true → s.quiesced x = true → s.walkFrom va .read true (if sp.five then 5 else 4) sp.root = (.ok e 1, ea) →
    s.readPlace o va old 4096 = (s1, .ok bs) →
    s1.writePlace o va (s1.physPlace e1 s.arg.a 4096 true false) bs = (s2, .ok ()) →
    let s3 := (s2.farDrop o).newId.2
    let x1 : Shoot := { x with id := (s2.farDrop o).nextId }
    exec .pageHomeMove s = .next (State.invalidate { (s3.writePhys none ea (toBytes 8 e1.toNat)) with
      moves := s3.moves ++ [{ queue := s.arg.q, va := va, shoot := x1, site := sp.site, frame := old }] } x1))
  ∧ (∀ s : State, s.moves.find? (fun m => m.queue == s.arg.q) = none → s.qdescLost s.arg.q = true →
    exec .pageHomeMove s = .next (if s.firmwareFree s.arg.q then s.firmwareTrap s.arg.q else s))
  ∧ (∀ s : State, s.moves.find? (fun m => m.queue == s.arg.q) = none → s.qdescLost s.arg.q = false → (s.arg.va.toNat % 4096 ≠ 0 ∨ s.movable s.arg.q (queueSpace (s.qdescBytes s.arg.q)).asid s.arg.va = false
      ∨ s.quiesced (pageShoot (queueSpace (s.qdescBytes s.arg.q)).asid s.arg.va) = false) → exec .pageHomeMove s = .next s)
  ∧ (∀ (e : Dword) (pa dev : Nat) (rmt : Bool), pa % 4096 = 0 → pa < 2 ^ 52 → dev < 256 → (movedLeaf e pa rmt dev).extractLsb' 0 12 = e.extractLsb' 0 12
    ∧ (movedLeaf e pa rmt dev).extractLsb' 12 40 = BitVec.ofNat 40 (pa / 4096) ∧ (movedLeaf e pa rmt dev).extractLsb' 52 2 = e.extractLsb' 52 2
    ∧ (movedLeaf e pa rmt dev).extractLsb' 54 8 = BitVec.ofNat 8 dev ∧ (movedLeaf e pa rmt dev).getLsbD 62 = rmt
    ∧ (movedLeaf e pa rmt dev).getLsbD 63 = e.getLsbD 63)
  ∧ (∀ (s : State) (m : HomeMove), s.moves.find? (fun m => m.queue == s.arg.q) = some m → exec .pageHomeMove s = .next (s.finishMove m))
  ∧ (∀ (s s1 : State) (m : HomeMove), s.askShoots (.side 0 m.queue) m.shoot s.otherDevices = (s1, true) → s1.shootWaits m.shoot = false →
    m ∉ (s.finishMove m).moves ∧ (s.finishMove m).replies = s1.replies ++ [.frame m.site m.frame] ∧ (s.finishMove m).mem = s1.mem)
  ∧ (∀ (s s1 : State) (m : HomeMove), (s.askShoots (.side 0 m.queue) m.shoot s.otherDevices = (s1, false)
      ∨ s.askShoots (.side 0 m.queue) m.shoot s.otherDevices = (s1, true) ∧ s1.shootWaits m.shoot = true) → s.finishMove m = s1)
  ∧ (∀ (s : State) (x : Shoot), s.shoots.find? (fun x => x.site == s.arg.n) = some x → 2 ≤ x.site → s.shootWaits x = false →
    ∃ t, exec .shootdownAck s = .next t ∧ t.replies = s.replies ++ [.ack (x.site - 2)] ∧ x ∉ t.shoots ∧ t.control = s.control ∧ t.mem = s.mem)
  ∧ (∀ (s : State) (x : Shoot), (∀ y ∈ s.threads, y.ops = []) → ∀ e ∈ s.timers, ∀ l : Launch, s.launch? e.launch = some l →
    l.space.asid = x.asid → x.near e.va = true → { e with stale := true } ∈ (s.invalidate x).timers)

/-- QWAIT delivers and removes the oldest event of a selected kind, waits while there is none, until one comes, and raises RANGE for
a bad mask. LAUNCH.start answers 1 for a bad queue, BUSY when no ID is free, and otherwise the ID of a new live launch with all
its gangs. LAUNCH.reply answers the waiting thread, or 4; LAUNCH.preempt asks for a halt, or queues PREEMPTED for a saved
launch; LAUNCH.resume returns the saved gangs, or 5; LAUNCH.end discards a live launch; LAUNCH.bind binds a window; a reserved B
answers 1. DONE_RING_RECHECK writes the waiting record when the ring has room, and queues FAULT when its page was refused, and
then HEAD passes the entry of a launch that never started; firmware whose descriptor is lost traps with MACHINE. That BUSY comes
before any read (log 42), that .resume and .end answer 1 where B is not zero (log 43), that firmware queues FAULT for a refused
ring page (log 44) and that the RANGE of QWAIT waits for outstanding loads to the registers of its frame (R29, log 70), are the
model's readings. (R411, R423, R424, R425, R426, R427, R384, R433, log 42, log 43, log 44, log 70) -/
def Obligations.QueuesAndLaunchOperations : Prop :=
  (∀ (x : Desc) (n : Nat), Does (.qwait x) (fun s th => s.a32 th x ≠ 0 ∧ (s.a32 th x).toNat < 64
      ∧ findEvent (s.queueOf th.tid).events (s.a32 th x) = some n)
    fun s th => (s.modQueueOf th.tid fun y => { y with events := (s.queueOf th.tid).events.eraseIdx n }).putWords th.id x.d
      ((s.queueOf th.tid).events.getD n { kind := 0 }).words)
  ∧ (∀ x : Desc, Holds (.qwait x) (fun s th => s.a32 th x ≠ 0 ∧ (s.a32 th x).toNat < 64
      ∧ findEvent (s.queueOf th.tid).events (s.a32 th x) = none) fun s th => s.holdAt th.id (.qwait x) (.qwait (s.a32 th x)))
  ∧ (∀ (x : Desc) (s : State) (th : Thread), Alone (.qwait x) s th → (s.a32 th x = 0 ∨ 64 ≤ (s.a32 th x).toNat) →
    TrapsTo (.qwait x) s th .range 0 0)
  ∧ (∀ (s : State) (th : Thread) (m : Word), s.thread? th.id = some th → th.hold = .qwait m → s.wakeQwait.thread? th.id
    = some (if (findEvent (s.queueOf th.tid).events m).isSome then { th with hold := .none } else th))
  ∧ (∀ (es : List Event) (m : Word) (n : Nat), findEvent es m = some n → ∃ e, es[n]? = some e ∧ n < 4096 ∧ 1 ≤ e.kind
    ∧ m.getLsbD (e.kind - 1) = true ∧ ∀ k, k < n → ∀ y, es[k]? = some y → ¬ (1 ≤ y.kind ∧ m.getLsbD (y.kind - 1) = true))
  ∧ (∀ x : Desc, Does (.launchStart x) (fun s th => 63 < (s.b32 th x).toNat) fun s th => s.result th.id x.d 32 1)
  ∧ (∀ (x : Desc) (s s1 : State) (th : Thread), Alone (.launchStart x) s th → (s.b32 th x).toNat ≤ 63 → s.released th 6 0 = true →
    let r := s.startLaunch (.thread th.id) (s.b32 th x).toNat (s.a64 th x)
    (∀ id, r = (s1, .ok id) →
      exec (.launchStart x) s = .next ((s1.result th.id x.d 32 (BitVec.ofNat 128 (2 ^ 16 * id))).past (.launchStart x) th))
    ∧ (∀ n, n ≠ 3 → r = (s1, .code n) →
      exec (.launchStart x) s = .next ((s1.result th.id x.d 32 (BitVec.ofNat 128 n)).past (.launchStart x) th))
    ∧ (r = (s1, .code 3) → exec (.launchStart x) s = .next
      (((s1.modQueueOf th.tid fun y => { y with room := true }).result th.id x.d 32 3).past (.launchStart x) th))
    ∧ (∀ t va, r = (s1, .wait t va) → exec (.launchStart x) s = .next
      ((if t == 0 then s1 else s1.parkAt th.id (.launchStart x) t va).stay th (.launchStart x))))
  ∧ (∀ (s : State) (o : Owner) (q : Nat) (a : Dword), s.freeLaunchId = none → s.startLaunch o q a = (s, .code 3))
  ∧ (∀ (s s1 : State) (o : Owner) (q id : Nat) (a : Dword), s.startLaunch o q a = (s1, .ok id) → 1 ≤ id ∧ id ≤ 1023 ∧ (∀ l ∈ s.launches, l.id ≠ id)
    ∧ ∃ l, s1.launches = s.launches ++ [l] ∧ l.id = id ∧ l.queue = q ∧ l.state = .live ∧ l.lr.addr = a
      ∧ s1.gangs.length = s.gangs.length + l.lr.lx * l.lr.ly * l.lr.lz
      ∧ ∀ g ∈ s1.gangs, g ∈ s.gangs ∨ (g.launch = id ∧ g.size = l.lr.gx * l.lr.gy * l.lr.gz))
  ∧ (∀ x : Desc, Does (.launchReply x) (fun _ _ => True) fun s th =>
    let r := s.replyTo (s.a64 th x) (s.b32 th x)
    r.1.result th.id x.d 32 (BitVec.ofNat 128 r.2))
  ∧ (∀ (s : State) (v : Dword) (tag : Word), (∀ r ∈ s.svcs, BitVec.ofNat 32 r.tag ≠ tag) → s.replyTo v tag = (s, 4))
  ∧ (∀ (s : State) (v : Dword) (tag : Word) (r : SvcReq) (th : Thread) (g : Group), s.svcs.find? (fun r => BitVec.ofNat 32 r.tag == tag) = some r →
    s.thread? r.thread = some th → s.group? th.group = some g →
    (g.res = .running → s.replyTo v tag = (State.deliverReply { s with svcs := s.svcs.filter fun x => x.tag != r.tag } r.tag v, 0))
    ∧ (g.res = .saved → ∃ t g2, s.replyTo v tag = (t, 0) ∧ t.group? g.id = some g2 ∧ g2.mail = g.mail ++ [(r.tag, v)]))
  ∧ (∀ x : Desc, Does (.launchPreempt x) (fun s th => (s.b32 th x).toNat ≤ 3) fun s th =>
    let r := s.preemptLaunch (s.a64 th x)
    r.1.result th.id x.d 32 (BitVec.ofNat 128 r.2))
  ∧ (∀ (s : State) (a : Dword), s.liveLaunch a = none → s.preemptLaunch a = (s, 4) ∧ s.resumeLaunch a = (s, 4) ∧ s.endLaunchAt a = (s, 4))
  ∧ (∀ (s : State) (a : Dword) (l : Launch), s.liveLaunch a = some l →
    (l.state ≠ .saved → s.preemptLaunch a = (s.modLaunch l.id fun x => { x with state := .saving, notify := x.notify + 1 }, 0)
      ∧ s.resumeLaunch a = (s, 5))
    ∧ (l.state = .saved → s.preemptLaunch a = (s.queueEvent l.queue { kind := 5, eid := l.id }, 0)
      ∧ (s.resumeLaunch a).2 = 0 ∧ (∃ l2 ∈ (s.resumeLaunch a).1.launches, l2.id = l.id ∧ l2.state = .live ∧ l2.pausedAt = none)
      ∧ ∀ g ∈ s.groups, g.launch = l.id → g.res = .saved → (∀ x ∈ s.gangs, g.id ∉ x.saved) → (s.live g.id ≠ [] ∨ g.cmds ≠ []) →
        ∃ x ∈ (s.resumeLaunch a).1.gangs, x.launch = l.id ∧ g.id ∈ x.saved))
  ∧ (∀ x : Desc, Does (.launchResume x) (fun s th => s.b32 th x = 0) fun s th =>
    let r := s.resumeLaunch (s.a64 th x)
    r.1.result th.id x.d 32 (BitVec.ofNat 128 r.2))
  ∧ (∀ x : Desc, Does (.launchEnd x) (fun s th => s.b32 th x = 0) fun s th =>
    let r := s.endLaunchAt (s.a64 th x)
    r.1.result th.id x.d 32 (BitVec.ofNat 128 r.2))
  ∧ (∀ x : Desc, Does (.launchPreempt x) (fun s th => 3 < (s.b32 th x).toNat) fun s th => s.result th.id x.d 32 1)
  ∧ (∀ x : Desc, Does (.launchResume x) (fun s th => s.b32 th x ≠ 0) fun s th => s.result th.id x.d 32 1)
  ∧ (∀ x : Desc, Does (.launchEnd x) (fun s th => s.b32 th x ≠ 0) fun s th => s.result th.id x.d 32 1)
  ∧ (∀ (s : State) (a : Dword) (l : Launch), s.liveLaunch a = some l → (s.endLaunchAt a).2 = 0
    ∧ (∃ l2 ∈ (s.endLaunchAt a).1.launches, l2.id = l.id ∧ l2.state = .ending ∧ l2.bins = [] ∧ l2.waiting = [])
    ∧ (∀ g ∈ (s.endLaunchAt a).1.groups, g.launch = l.id → g.res = .ended ∧ ∀ x ∈ g.slots, x.cont = none)
    ∧ (∀ g ∈ (s.endLaunchAt a).1.gangs, g.launch ≠ l.id) ∧ (s.endLaunchAt a).1.mem = s.mem)
  ∧ (∀ x : Desc, Does (.launchBind x) (fun _ _ => True) fun s th =>
    let r := s.bindWindow ((s.a64 th x).setWidth 32) (s.b32 th x)
    r.1.result th.id x.d 32 (BitVec.ofNat 128 r.2))
  ∧ (∀ (s : State) (tag b : Word) (r : SvcReq) (th : Thread) (g : Group), s.svcs.find? (fun r => BitVec.ofNat 32 r.tag == tag) = some r →
    s.thread? r.thread = some th → s.group? th.group = some g →
    let slot := (b.extractLsb' 16 6).toNat
    let w := (b.extractLsb' 0 12).toNat
    (g.hdr.slots ≤ slot → s.bindWindow tag b = (s, 1))
    ∧ (slot < g.hdr.slots → b &&& 0x7FC0F000#32 = 0#32 → (∀ y ∈ s.bindings, y.window ≠ w) → b.getLsbD 31 = false →
      s.bindWindow tag b = ({ s with bindings := s.bindings ++ [{ window := w, launch := g.launch, group := g.id, slot := slot }] }, 0))
    ∧ (∀ y, slot < g.hdr.slots → b &&& 0x7FC0F000#32 = 0#32 → s.bindings.find? (fun y => y.window == w) = some y → y.group = g.id →
      y.slot = slot → b.getLsbD 31 = true → s.bindWindow tag b = ({ s with bindings := s.bindings.filter fun z => z.window != w }, 0)))
  ∧ (∀ (s s1 : State) (r : List Byte) (rest : List (List Byte)), s.firmwareFree s.arg.q = true → s.qdescLost s.arg.q = false →
    (s.queueOf s.arg.q).done = r :: rest → badField (s.qdescBytes s.arg.q) = none →
    let q := s.arg.q
    let d := s.qdescBytes q
    let tail := word d 0x48
    let at_ := dword d 0x50 + BitVec.ofNat 64 (16 * (tail.toNat % field d 0x4C 4))
    let gone (s : State) : State := (s.farDrop (.queue q)).modQueueOf q fun y => { y with done := rest, failed := false }
    let taken (s : State) : State := if field r 0 2 = 0 then (gone s).putDesc q 0x2C (toBytes 4 (word d 0x2C + 1).toNat) else gone s
    ((s.queueOf s.arg.q).failed = false → field d 0x4C 4 ≤ (tail - word d 0x44).toNat → exec .doneRingRecheck s = .next s)
    ∧ ((s.queueOf s.arg.q).failed = false → (tail - word d 0x44).toNat < field d 0x4C 4 →
      s.agentWrite (.queue q) (queueSpace d) true 0 true 3 at_ r = (s1, .ok ()) →
      exec .doneRingRecheck s = .next ((taken s1).putDesc q 0x48 (toBytes 4 (tail + 1).toNat)))
    ∧ ((s.queueOf s.arg.q).failed = true → exec .doneRingRecheck s = .next ((taken s).queueEvent q
      { kind := 4, code := Cause.prot.code, eid := field r 0 2, datum := at_ })))
  ∧ (∀ s : State, s.qdescLost s.arg.q = false → (s.queueOf s.arg.q).done = [] ∨ (badField (s.qdescBytes s.arg.q)).isSome = true →
    exec .doneRingRecheck s = .next s)
  ∧ (∀ s : State, s.firmwareFree s.arg.q = false → exec .doneRingRecheck s = .next s)
  ∧ (∀ s : State, s.firmwareFree s.arg.q = true → s.qdescLost s.arg.q = true → exec .doneRingRecheck s = .next (s.firmwareTrap s.arg.q))
  ∧ (∀ (s : State) (o : Owner) (q id : Nat) (a : Dword), s.freeLaunchId = some id → s.qdescLost q = true → s.startLaunch o q a = (s, .code 2))

/-- A HOST_WRITE or HOST_READ, a PCIE_INBOUND read or write and a FABRIC_REQUEST that the access table admits writes its bytes at
the home, reads what memory holds, or executes its atomic there, and is answered; one that is not admitted is denied and changes
no memory. An atomic or other unknown PCIe request, and one for a host's memory or its own port's aperture, is unsupported; one
for the other port's aperture is checked and forwarded there. HOST_SNOOP invalidates the host's line in every L0 and L1, and its
bytes change there. ARRIVAL_WINDOW_WRITE and NOTIFY_WRITE act only when admitted, and a write that reaches NOTIFY leaves an
event. LOST_HOST_LINK takes a link down. ATTESTATION_REQUEST uses each leaf index once. POWER_STATE_REQUEST enters a state or
answers BUSY; POWER_LOSS keeps flash, host memory and standby LPDDR. What is answered where the spec names no answer (log 48),
what each power state keeps and repeats (log 50), and that lines of a dead slice answer with an error (log 51), are the model's
readings. That a shoot-down from a fabric peer comes as a request of a site numbered from 2 is the model's own transport (log
69). The rules of 20 are R406 to R408, R410 to R412 and R414. (08_memory_model.md, 20_dies_host_fabric.md, R407, R410, R411,
R421, R437, R438, log 48, log 50, log 51, log 69) -/
def Obligations.OutsideAgentsAndPower : Prop :=
  (∀ s : State, s.hostUp.getD s.arg.q false = true → s.arg.data ≠ [] → inControl s.arg.q s.arg.a = false → inWindows s.arg.a = false →
    let m := hostMaster s.arg.q
    (inDram s.arg.a s.arg.data.length = true → s.deadAt s.arg.a s.arg.data.length = false → s.mem.wf = true →
      s.admitted m s.arg.a s.arg.data.length 2 = true →
      ∃ t, exec .hostWrite s = .next t ∧ s.mem.Put t.mem s.arg.a s.arg.data ∧ t.replies = s.replies ++ [.ack s.arg.q] ∧ t.threads = s.threads)
    ∧ (inDram s.arg.a s.arg.data.length = true → s.deadAt s.arg.a s.arg.data.length = true → s.admitted m s.arg.a s.arg.data.length 2 = true →
      exec .hostWrite s = .next (s.answer (.refused s.arg.q)))
    ∧ (s.admitted m s.arg.a s.arg.data.length 2 = false → exec .hostWrite s = .next ((s.deny m).answer (.refused s.arg.q))))
  ∧ (∀ s : State, s.hostUp.getD s.arg.q false = false → exec .hostWrite s = .next s ∧ exec .hostRead s = .next s)
  ∧ (∀ s : State, s.hostUp.getD s.arg.q false = true → s.arg.data ≠ [] → s.arg.a = controlBase s.arg.q + 0x30 →
    exec .hostWrite s = .next ((s.pageReply s.arg.data).answer (.ack s.arg.q)))
  ∧ (∀ s : State, s.hostUp.getD s.arg.q false = true → s.arg.data.length = 16 → s.arg.a = controlBase s.arg.q + 0x40 →
    exec .hostWrite s = .next ((s.shoot s.arg.q s.arg.data).answer (.ack s.arg.q)))
  ∧ (∀ s : State, s.hostUp.getD s.arg.q false = true → 0 < s.arg.n → inControl s.arg.q s.arg.a = false →
    (inDram s.arg.a s.arg.n = true → s.brokenAt s.arg.a s.arg.n = false → s.admitted (hostMaster s.arg.q) s.arg.a s.arg.n 1 = true →
      ∃ t, exec .hostRead s = .next t ∧ t.mem = s.mem ∧ t.replies = s.replies ++ [.data s.arg.q (s.readPhys s.arg.a s.arg.n)])
    ∧ (s.admitted (hostMaster s.arg.q) s.arg.a s.arg.n 1 = false →
      exec .hostRead s = .next ((s.deny (hostMaster s.arg.q)).answer (.refused s.arg.q))))
  ∧ (∀ s : State, s.arg.q < 2 → inSiteRange s.arg.q s.arg.a = true → s.hostUp.getD s.arg.q false = true → s.mem.wf = true →
    ∃ t, exec .hostSnoop s = .next t ∧ s.mem.Put t.mem s.arg.a (s.arg.data.take (128 - s.arg.a % 128))
      ∧ (∀ e ∈ t.caches.l0, e.2 ≠ lineOf s.arg.a) ∧ (∀ e ∈ t.caches.l1, e.1 < 16 → e.2 ≠ lineOf s.arg.a)
      ∧ t.replies = s.replies ++ [.ack s.arg.q] ∧ t.threads = s.threads)
  ∧ (∀ (s : State) (a : Nat) (bs : List Byte), s.pcieUp.getD s.arg.q false = true → s.arg.q < 2 → bs ≠ [] → inDram a bs.length = true →
    let m : Word := 0x20000000#32 ||| BitVec.ofNat 32 (s.arg.q % 256 * 65536) ||| (s.arg.master &&& 0xFFFF#32)
    (∀ ro, s.arg.req = .write a bs ro → s.mem.wf = true → s.deadAt a bs.length = false →
      (s.admitted m a bs.length 2 = true → ∃ t, exec .pcieInbound s = .next t ∧ s.mem.Put t.mem a bs ∧ t.replies = s.replies ∧ t.threads = s.threads)
      ∧ (s.admitted m a bs.length 2 = false → exec .pcieInbound s = .next (s.deny m)))
    ∧ (s.arg.req = .read a bs.length → s.brokenAt a bs.length = false →
      (s.admitted m a bs.length 1 = true → exec .pcieInbound s = .next (s.answer (.data s.arg.q (s.readPhys a bs.length))))
      ∧ (s.admitted m a bs.length 1 = false → exec .pcieInbound s = .next ((s.deny m).answer (.refused s.arg.q))))
    ∧ (s.arg.req = .other → exec .pcieInbound s = .next (s.answer (.unsupported s.arg.q)))
    ∧ (∀ ty op b c ret, s.arg.req = .atomic a ty op b c ret → 0 < ty.width / 8 →
      exec .pcieInbound s = .next (s.answer (.unsupported s.arg.q))))
  ∧ (∀ (s : State) (a : Nat) (bs : List Byte), s.fabricUp = true → bs ≠ [] → inDram a bs.length = true → s.mem.wf = true →
    let dev := s.arg.n % 256
    let m : Word := 0x30000000#32 ||| BitVec.ofNat 32 dev
    (∀ ro, s.arg.req = .write a bs ro →
      (s.admitted m a bs.length 2 = true → s.deadAt a bs.length = false → ∃ t, exec .fabricRequest s = .next t ∧ s.mem.Put t.mem a bs
        ∧ t.replies = s.replies ++ [.ack dev] ∧ t.threads = s.threads)
      ∧ (s.admitted m a bs.length 2 = false → exec .fabricRequest s = .next ((s.deny m).answer (.refused dev))))
    ∧ (s.arg.req = .read a bs.length →
      (s.admitted m a bs.length 1 = true → s.brokenAt a bs.length = false →
        exec .fabricRequest s = .next (s.answer (.data dev (s.readPhys a bs.length))))
      ∧ (s.admitted m a bs.length 1 = true → s.brokenAt a bs.length = true → exec .fabricRequest s = .next (s.answer (.refused dev)))
      ∧ (s.admitted m a bs.length 1 = false → exec .fabricRequest s = .next ((s.deny m).answer (.refused dev))))
    ∧ (∀ ty op b c ret, s.arg.req = .atomic a ty op b c ret → ty.width / 8 = bs.length →
      (s.admitted m a bs.length 3 = true → s.brokenAt a bs.length = false →
        (∀ new f, atomNew ty op.toNat (ofBytes (s.readPhys a bs.length)) b.toNat c.toNat = some (new, f) →
          ∃ t, exec .fabricRequest s = .next t ∧ s.mem.Put t.mem a (toBytes bs.length new)
            ∧ t.replies = s.replies ++ [.atomic dev (if ret then s.readPhys a bs.length else []) f])
        ∧ (atomNew ty op.toNat (ofBytes (s.readPhys a bs.length)) b.toNat c.toNat = none →
          exec .fabricRequest s = .next (s.answer (.atomic dev (if ret then s.readPhys a bs.length else []) 0))))
      ∧ (s.admitted m a bs.length 3 = false → exec .fabricRequest s = .next ((s.deny m).answer (.refused dev)))))
  ∧ (∀ s : State, inWindows s.arg.a = true → s.arg.data.length = 16 → s.arg.a % 64 = 0 →
    let w := (s.arg.a - 0xF800000000000) / 64
    let bs := s.arg.data
    (s.admitted s.arg.master s.arg.a 16 4 = false → exec .arrivalWindowWrite s = .next (s.deny s.arg.master))
    ∧ (s.admitted s.arg.master s.arg.a 16 4 = true → (∀ b ∈ s.bindings, b.window ≠ w) → exec .arrivalWindowWrite s = .next (s.deny s.arg.master))
    ∧ (∀ b, s.admitted s.arg.master s.arg.a 16 4 = true → s.bindings.find? (fun b => b.window == w) = some b → zeros bs 3 5 = true →
      field bs 2 1 ≤ 1 → field bs 8 4 < 2 ^ 27 → field bs 12 4 < 2 ^ 27 → exec .arrivalWindowWrite s = .next
        (s.externalEvent b.group b.slot s.arg.master (BitVec.ofNat 16 (field bs 0 2)) (field bs 2 1) (field bs 8 4) (field bs 12 4) false)))
  ∧ (∀ s : State, s.arg.data.length = 8 → exec .notifyWrite s = .next
    (if s.admitted s.arg.master (s.qdesc s.arg.q + 0x68) 8 2 then
      if s.deadAt (s.qdesc s.arg.q + 0x68) 8 then s else s.writePhys none (s.qdesc s.arg.q + 0x68) s.arg.data
    else s.deny s.arg.master))
  ∧ (∀ (s : State) (q pa n : Nat), s.booted = true → q < 64 → q < s.queues.length → meets pa n (s.qdesc q + 0x68) 8 = true →
    ∃ e ∈ ((s.notify pa n).queueOf q).events, e.kind = 1 ∧ e.datum = BitVec.ofNat 64 (ofBytes (s.mem.load (s.qdesc q + 0x68) 8)))
  ∧ (∀ s : State, (∀ th ∈ s.threads, th.ops = []) → (∀ r ∈ s.preqs, r.table.isSome = true → r.site ≠ s.arg.q) → ∃ t, exec .lostHostLink s = .next t ∧ t.mem = s.mem ∧ t.threads = s.threads
    ∧ (s.arg.q < 2 → t.hostUp = s.hostUp.set s.arg.q false ∧ t.pcieUp = s.pcieUp)
    ∧ (2 ≤ s.arg.q → t.pcieUp = s.pcieUp.set (s.arg.q - 2) false ∧ t.hostUp = s.hostUp))
  ∧ (∀ s : State, s.arg.data.length = 32 → s.bootImage ≠ [] →
    (s.arg.n ≠ 1 → s.flash.leaf < 2 ^ 20 → ∃ t, exec .attestationRequest s = .next t ∧ t.flash.leaf = s.flash.leaf + 1
      ∧ t.replies = s.replies ++ [.attest (s.attestation s.arg.data) (some (Config.xmssSign Config.identityKey s.flash.leaf (s.attestation s.arg.data)))])
    ∧ (s.arg.n = 1 ∨ 2 ^ 20 ≤ s.flash.leaf → exec .attestationRequest s = .next
      { s with replies := s.replies ++ [.attest (s.attestation s.arg.data) none] }))
  ∧ (∀ s : State, (s.power = .run ∨ s.power = .idle) →
    (s.arg.power = .run ∨ s.arg.power = .idle → exec .powerStateRequest s = .next
      { s with power := s.arg.power, replies := s.replies ++ [.power s.arg.power] })
    ∧ (s.arg.power = .standby → s.workLeft = true → exec .powerStateRequest s = .next { s with replies := s.replies ++ [.busy] })
    ∧ (s.arg.power = .standby → s.workLeft = false → ∃ t, exec .powerStateRequest s = .next t ∧ t.power = .standby ∧ t.mem = s.mem
      ∧ (∀ th, th ∈ t.threads ↔ th ∈ s.threads ∧ th.unit = .service) ∧ t.groups = [] ∧ t.replies = s.replies ++ [.power .standby])
    ∧ (s.arg.power = .off → s.workLeft = true → exec .powerStateRequest s = .next { s with replies := s.replies ++ [.busy] })
    ∧ (s.arg.power = .off → s.workLeft = false → s.mem.wf = true → ∃ t, exec .powerStateRequest s = .next t ∧ t.power = .off
      ∧ t.flash = s.flash ∧ ∀ x, dramEnd ≤ x → t.mem.read x = s.mem.read x))
  ∧ (∀ s : State, s.power = .standby → s.arg.power = .run ∨ s.arg.power = .idle →
    exec .powerStateRequest s = .next { s with power := s.arg.power, replies := s.replies ++ [.power s.arg.power] })
  ∧ (∀ s : State, s.power = .off → s.arg.power = .run → exec .powerStateRequest s = .next { s with power := .run })
  ∧ (∀ s : State, s.mem.wf = true → ∃ t, exec .powerLoss s = .next t ∧ t.power = .off ∧ t.threads = [] ∧ t.flash = s.flash
    ∧ (∀ x, dramEnd ≤ x → t.mem.read x = s.lpddr.read x) ∧ (s.arg.n = 1 → ∀ x, t.mem.read x = s.lpddr.read x)
    ∧ (s.caches.dirty = [] → s.lpddr = s.mem))
  ∧ (∀ (s : State) (a p : Nat) (bs : List Byte), s.pcieUp.getD s.arg.q false = true → s.arg.q < 2 → bs ≠ [] → inAperture a = some p →
    let m : Word := 0x20000000#32 ||| BitVec.ofNat 32 (s.arg.q % 256 * 65536) ||| (s.arg.master &&& 0xFFFF#32)
    ∀ ro, s.arg.req = .write a bs ro →
    (p = s.arg.q → exec .pcieInbound s = .next (s.answer (.unsupported s.arg.q)))
    ∧ (p ≠ s.arg.q → s.admitted m a bs.length 2 = true → s.pcieUp.getD p false = true →
      exec .pcieInbound s = .next (s.answer (.request (fabricDetail 2 0 p) a (.write a bs ro))))
    ∧ (p ≠ s.arg.q → s.admitted m a bs.length 2 = false → exec .pcieInbound s = .next (s.deny m)))
  ∧ (∀ (s : State) (a p n : Nat), s.pcieUp.getD s.arg.q false = true → s.arg.q < 2 → 0 < n → inAperture a = some p → s.arg.req = .read a n →
    let m : Word := 0x20000000#32 ||| BitVec.ofNat 32 (s.arg.q % 256 * 65536) ||| (s.arg.master &&& 0xFFFF#32)
    (p = s.arg.q → exec .pcieInbound s = .next (s.answer (.unsupported s.arg.q)))
    ∧ (p ≠ s.arg.q → s.admitted m a n 1 = true → s.pcieUp.getD p false = true →
      exec .pcieInbound s = .next (s.answer (.request (fabricDetail 2 0 p) a (.read a n))))
    ∧ (p ≠ s.arg.q → s.admitted m a n 1 = false → exec .pcieInbound s = .next ((s.deny m).answer (.refused s.arg.q))))
  ∧ (∀ (s : State) (asid : BitVec 16) (page pages : Nat), s.fabricUp = true → s.arg.req = .shoot asid page pages →
    let x : Shoot := { id := s.nextId, site := 2 + s.arg.n % 256, asid := asid, base := page, pages := pages }
    exec .fabricRequest s = .next (State.invalidate { s.newId.2 with shoots := s.shoots ++ [x] } x))
end

