-- ==== Sys2Proof/Laws/State.lean ====
section
/-! SUPPORT. Reading a part of the module after an update of a part: one lemma for each field and update. -/

namespace Sys2Proof.Machine

/-! ### Lists of parts -/

theorem find?_map_key {α : Type} (key : α → Nat) (k : Nat) (f : α → α) (hf : ∀ x, key (f x) = key x) (l : List α) :
    (l.map f).find? (fun x => key x == k) = (l.find? fun x => key x == k).map f := by
  induction l with
  | nil => rfl
  | cons x xs ih =>
    simp only [List.map_cons, List.find?_cons, hf]
    split
    · rfl
    · exact ih

theorem thread?_id {s : State} {t : Nat} {th : Thread} (h : s.thread? t = some th) : th.id = t := by
  have := List.find?_some h
  simpa using this

theorem group?_id {s : State} {g : Nat} {x : Group} (h : s.group? g = some x) : x.id = g := by
  have := List.find?_some h
  simpa using this

theorem launch?_id {s : State} {l : Nat} {x : Launch} (h : s.launch? l = some x) : x.id = l := by
  have := List.find?_some h
  simpa using this

/-! ### modThread -/

theorem thread?_modThread (s : State) (t u : Nat) (f : Thread → Thread) (hf : ∀ x, (f x).id = x.id) :
    (s.modThread t f).thread? u = (s.thread? u).map fun x => if x.id == t then f x else x := by
  unfold State.modThread State.thread?
  exact find?_map_key Thread.id u _ (fun x => by split <;> simp [hf]) _

theorem thread?_modThread_self {s : State} {t : Nat} {th : Thread} (f : Thread → Thread) (hf : ∀ x, (f x).id = x.id)
    (h : s.thread? t = some th) : (s.modThread t f).thread? t = some (f th) := by
  rw [thread?_modThread s t t f hf, h]
  simp [thread?_id h]

theorem thread?_modThread_ne {s : State} {t u : Nat} (f : Thread → Thread) (hf : ∀ x, (f x).id = x.id) (h : u ≠ t) :
    (s.modThread t f).thread? u = s.thread? u := by
  rw [thread?_modThread s t u f hf]
  cases hu : s.thread? u with
  | none => rfl
  | some x => simp [thread?_id hu, h]

@[simp] theorem modThread_mem (s : State) (t : Nat) (f : Thread → Thread) : (s.modThread t f).mem = s.mem := rfl
@[simp] theorem modThread_groups (s : State) (t : Nat) (f : Thread → Thread) : (s.modThread t f).groups = s.groups := rfl
@[simp] theorem modThread_launches (s : State) (t : Nat) (f : Thread → Thread) : (s.modThread t f).launches = s.launches := rfl
@[simp] theorem modThread_rays (s : State) (t : Nat) (f : Thread → Thread) : (s.modThread t f).rays = s.rays := rfl
@[simp] theorem modThread_img (s : State) (t : Nat) (f : Thread → Thread) : (s.modThread t f).img = s.img := rfl
@[simp] theorem modThread_cycle (s : State) (t : Nat) (f : Thread → Thread) : (s.modThread t f).cycle = s.cycle := rfl
@[simp] theorem modThread_team (s : State) (t : Nat) (f : Thread → Thread) : (s.modThread t f).team = s.team := rfl
@[simp] theorem modThread_arg (s : State) (t : Nat) (f : Thread → Thread) : (s.modThread t f).arg = s.arg := rfl
@[simp] theorem modThread_caches (s : State) (t : Nat) (f : Thread → Thread) : (s.modThread t f).caches = s.caches := rfl
@[simp] theorem modThread_nextId (s : State) (t : Nat) (f : Thread → Thread) : (s.modThread t f).nextId = s.nextId := rfl
@[simp] theorem modThread_moves (s : State) (t : Nat) (f : Thread → Thread) : (s.modThread t f).moves = s.moves := rfl
@[simp] theorem modThread_group? (s : State) (t g : Nat) (f : Thread → Thread) : (s.modThread t f).group? g = s.group? g := rfl
@[simp] theorem modThread_launch? (s : State) (t l : Nat) (f : Thread → Thread) : (s.modThread t f).launch? l = s.launch? l := rfl
@[simp] theorem modThread_ray? (s : State) (t r : Nat) (f : Thread → Thread) : (s.modThread t f).ray? r = s.ray? r := rfl

/-! ### modGroup, modLaunch -/

theorem group?_modGroup (s : State) (g u : Nat) (f : Group → Group) (hf : ∀ x, (f x).id = x.id) :
    (s.modGroup g f).group? u = (s.group? u).map fun x => if x.id == g then f x else x := by
  unfold State.modGroup State.group?
  exact find?_map_key Group.id u _ (fun x => by split <;> simp [hf]) _

theorem launch?_modLaunch (s : State) (l u : Nat) (f : Launch → Launch) (hf : ∀ x, (f x).id = x.id) :
    (s.modLaunch l f).launch? u = (s.launch? u).map fun x => if x.id == l then f x else x := by
  unfold State.modLaunch State.launch?
  exact find?_map_key Launch.id u _ (fun x => by split <;> simp [hf]) _

@[simp] theorem modGroup_mem (s : State) (g : Nat) (f : Group → Group) : (s.modGroup g f).mem = s.mem := rfl
@[simp] theorem modGroup_threads (s : State) (g : Nat) (f : Group → Group) : (s.modGroup g f).threads = s.threads := rfl
@[simp] theorem modGroup_launches (s : State) (g : Nat) (f : Group → Group) : (s.modGroup g f).launches = s.launches := rfl
@[simp] theorem modGroup_rays (s : State) (g : Nat) (f : Group → Group) : (s.modGroup g f).rays = s.rays := rfl
@[simp] theorem modGroup_img (s : State) (g : Nat) (f : Group → Group) : (s.modGroup g f).img = s.img := rfl
@[simp] theorem modGroup_team (s : State) (g : Nat) (f : Group → Group) : (s.modGroup g f).team = s.team := rfl
@[simp] theorem modGroup_thread? (s : State) (g t : Nat) (f : Group → Group) : (s.modGroup g f).thread? t = s.thread? t := rfl
@[simp] theorem modGroup_launch? (s : State) (g l : Nat) (f : Group → Group) : (s.modGroup g f).launch? l = s.launch? l := rfl
@[simp] theorem modGroup_ray? (s : State) (g r : Nat) (f : Group → Group) : (s.modGroup g f).ray? r = s.ray? r := rfl

@[simp] theorem modLaunch_mem (s : State) (l : Nat) (f : Launch → Launch) : (s.modLaunch l f).mem = s.mem := rfl
@[simp] theorem modLaunch_threads (s : State) (l : Nat) (f : Launch → Launch) : (s.modLaunch l f).threads = s.threads := rfl
@[simp] theorem modLaunch_groups (s : State) (l : Nat) (f : Launch → Launch) : (s.modLaunch l f).groups = s.groups := rfl
@[simp] theorem modLaunch_thread? (s : State) (l t : Nat) (f : Launch → Launch) : (s.modLaunch l f).thread? t = s.thread? t := rfl
@[simp] theorem modLaunch_group? (s : State) (l g : Nat) (f : Launch → Launch) : (s.modLaunch l f).group? g = s.group? g := rfl

@[simp] theorem newId_fst (s : State) : s.newId.1 = s.nextId := rfl
@[simp] theorem newId_snd_mem (s : State) : s.newId.2.mem = s.mem := rfl
@[simp] theorem newId_snd_threads (s : State) : s.newId.2.threads = s.threads := rfl
@[simp] theorem newId_snd_groups (s : State) : s.newId.2.groups = s.groups := rfl
@[simp] theorem newId_snd_launches (s : State) : s.newId.2.launches = s.launches := rfl
@[simp] theorem newId_snd_thread? (s : State) (t : Nat) : s.newId.2.thread? t = s.thread? t := rfl
@[simp] theorem newId_snd_group? (s : State) (g : Nat) : s.newId.2.group? g = s.group? g := rfl

/-! ### Registers of one thread -/

@[simp] theorem Thread.setV_id (th : Thread) (n : BitVec 8) (x : Word) : (th.setV n x).id = th.id := rfl
@[simp] theorem Thread.setO_id (th : Thread) (n : BitVec 3) (x : Word) : (th.setO n x).id = th.id := rfl
@[simp] theorem Thread.shiftY_id (th : Thread) (x : Dword) : (th.shiftY x).id = th.id := rfl
@[simp] theorem Thread.raise_id (th : Thread) (f : FFlags) : (th.raise f).id = th.id := rfl
@[simp] theorem Thread.setPred_id (th : Thread) (n : BitVec 3) (b : Bool) : (th.setPred n b).id = th.id := by
  unfold Thread.setPred; split <;> rfl

theorem Thread.getV_setV_self (th : Thread) (n : BitVec 8) (x : Word) : (th.setV n x).getV n = x := by
  simp [Thread.getV, Thread.setV]

theorem Thread.getV_setV_ne (th : Thread) (n m : BitVec 8) (x : Word) (h : m ≠ n) : (th.setV n x).getV m = th.getV m := by
  have : n.toNat ≠ m.toNat := fun e => h (BitVec.eq_of_toNat_eq e.symm)
  simp [Thread.getV, Thread.setV, this]

end Sys2Proof.Machine
end

