-- ==== Sys2Proof/Laws/Team.lean ====
section
/-! SUPPORT. What one issue does when its members run the instruction: one lemma for a single member, one for a team of an
instruction whose effect is a result. -/

namespace Sys2Proof.Machine

theorem closeRegion_none {s : State} {t : Nat} {th : Thread} (h : s.thread? t = some th)
    (hr : ∀ a n, th.region ≠ .opened a n) : s.closeRegion t = s := by
  unfold State.closeRegion
  rw [h]
  simp only [Option.map_some]
  split
  · rename_i heq
    simp only [Option.some.injEq] at heq
    exact absurd heq (hr _ _)
  · rfl

/-- One member that runs the instruction: what its effect says. -/
theorem exec1_runs {i : Instr} {s : State} {th : Thread} (body : State → Thread → Res) (h : Runs i s th) :
    s.exec1 i body th.id = (match body s th with
      | .done s2 => s2.past i th
      | .jump s2 => s2.executed th
      | .trap s2 c a d => if th.frameWaits then s.stay th i else s2.trapHere th (encode i) c a d
      | .stall s2 => s2.stay th i) := by
  have hcl : (if keepsRegion i then s else s.closeRegion th.id) = s := by
    split
    · rfl
    · rename_i hk
      exact closeRegion_none h.here fun a n hr => hk (h.noRegion a n hr)
  unfold State.exec1
  simp only [h.here, h.issues, h.calm, List.isEmpty_nil, Bool.true_or, Bool.not_true, Bool.false_and, Bool.false_eq_true, if_false,
    if_true, h.decodes, hcl, h.guard, h.ready, Option.getD_some]
  cases body s th <;> rfl

/-- A thread that issues alone. -/
theorem runTeam_alone {i : Instr} {s : State} {th : Thread} (body : State → State → Thread → Res) (h : Alone i s th) :
    runTeam i body s = .next (match body s s th with
      | .done s2 => s2.past i th
      | .jump s2 => s2.executed th
      | .trap s2 c a d => if th.frameWaits then s.stay th i else s2.trapHere th (encode i) c a d
      | .stall s2 => s2.stay th i) := by
  unfold runTeam
  rw [h.1]
  simp only [List.foldl_cons, List.foldl_nil]
  rw [exec1_runs (body s) h.2]

/-! ### Members do not disturb each other -/

/-- Two states that agree on what decides whether other members issue. -/
structure Near (s acc : State) : Prop where
  groups : ∀ g, (acc.group? g).map (fun x => (x.res, x.hdr)) = (s.group? g).map (fun x => (x.res, x.hdr))

theorem Near.eligible {s acc : State} (h : Near s acc) (th : Thread) : acc.eligible th = s.eligible th := by
  have hg := h.groups th.group
  unfold State.eligible
  cases th.unit <;> simp only []
  revert hg
  cases acc.group? th.group <;> cases s.group? th.group <;> simp +contextual

theorem Near.canIssue {s acc : State} (h : Near s acc) (th : Thread) : acc.canIssue th = s.canIssue th := by
  unfold State.canIssue
  rw [h.eligible]

theorem Near.uniforms {s acc : State} (h : Near s acc) (th : Thread) : acc.uniforms th = s.uniforms th := by
  have hg := h.groups th.group
  unfold State.uniforms
  cases th.unit <;> simp only []
  revert hg
  cases acc.group? th.group <;> cases s.group? th.group <;> simp +contextual

theorem Near.decodeTrap {s acc : State} (h : Near s acc) (th : Thread) (i : Instr) :
    acc.decodeTrap th i = s.decodeTrap th i := by
  unfold State.decodeTrap
  rw [h.uniforms]

theorem Near.trans {a b c : State} (h : Near a b) (k : Near b c) : Near a c := ⟨fun g => (k.groups g).trans (h.groups g)⟩

theorem near_refl (s : State) : Near s s := ⟨fun _ => rfl⟩
theorem near_modThread (s : State) (t : Nat) (f : Thread → Thread) : Near s (s.modThread t f) := ⟨fun _ => rfl⟩

theorem near_modGroup (s : State) (g : Nat) (f : Group → Group) (hid : ∀ x, (f x).id = x.id) (hr : ∀ x, (f x).res = x.res)
    (hh : ∀ x, (f x).hdr = x.hdr) : Near s (s.modGroup g f) := by
  constructor
  intro u
  rw [group?_modGroup s g u f hid]
  cases s.group? u with
  | none => rfl
  | some x =>
    simp only [Option.map_some]
    split <;> simp [hr, hh]

theorem near_deliver (s : State) (t : Nat) (o : Opnd) (w : Nat) (x : BitVec 128) : Near s (s.deliver t o w x) := by
  unfold State.deliver
  cases o with
  | v n => exact near_modThread ..
  | o n => exact near_modThread ..
  | k n =>
    simp only []
    split
    · exact near_modGroup _ _ _ (fun _ => rfl) (fun _ => rfl) (fun _ => rfl)
    · exact near_refl s
  | _ => exact near_refl s

theorem near_put (s : State) (t : Nat) (o : Out) : Near s (s.put t o) := by
  unfold State.put State.result
  refine Near.trans ?_ (near_modThread ..)
  split
  · exact (near_deliver ..).trans (near_modThread ..)
  · exact near_refl s

theorem near_farDrop (s : State) (o : Owner) : Near s (s.farDrop o) := by
  unfold State.farDrop
  split <;> exact ⟨fun _ => rfl⟩

theorem near_executed (s : State) (th : Thread) : Near s (s.executed th) := by
  have h : Near s ((s.tick th).farDrop (.thread th.id)) := by
    refine Near.trans ?_ (near_farDrop ..)
    unfold State.tick
    cases th.unit
    · exact near_refl s
    · exact near_modThread ..
    · exact near_refl s
  unfold State.executed
  simp only []
  split
  · exact h.trans (near_modThread ..)
  · exact h

theorem near_past (s : State) (i : Instr) (th : Thread) : Near s (s.past i th) :=
  (near_modThread ..).trans (near_executed ..)

/-! ### Other threads stay -/

theorem thread?_deliver_ne {s : State} {t u : Nat} (o : Opnd) (w : Nat) (x : BitVec 128) (h : u ≠ t) :
    (s.deliver t o w x).thread? u = s.thread? u := by
  unfold State.deliver
  cases o with
  | v n =>
    refine thread?_modThread_ne _ (fun y => ?_) h
    simp only []; repeat' split
    all_goals rfl
  | o n =>
    refine thread?_modThread_ne _ (fun y => ?_) h
    simp only []; split <;> rfl
  | k n => simp only []; split <;> simp
  | _ => rfl

theorem thread?_put_ne {s : State} {t u : Nat} (o : Out) (h : u ≠ t) : (s.put t o).thread? u = s.thread? u := by
  unfold State.put State.result
  rw [thread?_modThread_ne _ (fun y => by simp only []; split <;> simp) h]
  split
  · rw [thread?_modThread_ne _ (fun _ => by simp) h, thread?_deliver_ne _ _ _ h]
  · rfl

theorem thread?_farDrop (s : State) (o : Owner) (u : Nat) : (s.farDrop o).thread? u = s.thread? u := by
  unfold State.farDrop
  split <;> rfl

theorem thread?_executed_ne {s : State} {u : Nat} (th : Thread) (h : u ≠ th.id) : (s.executed th).thread? u = s.thread? u := by
  have h1 : ((s.tick th).farDrop (.thread th.id)).thread? u = s.thread? u := by
    rw [thread?_farDrop]
    unfold State.tick
    cases th.unit
    · rfl
    · exact thread?_modThread_ne _ (fun _ => rfl) h
    · rfl
  unfold State.executed
  simp only []
  split
  · exact (thread?_modThread_ne (fun x => { x with relAt := none }) (fun _ => rfl) h).trans h1
  · exact h1

theorem thread?_past_ne {s : State} {u : Nat} (i : Instr) (th : Thread) (h : u ≠ th.id) :
    (s.past i th).thread? u = s.thread? u :=
  (thread?_executed_ne th h).trans (thread?_modThread_ne _ (fun _ => rfl) h)

/-- Runs carries over to a state that agrees with the first on the thread and on groups. -/
theorem Runs.near {i : Instr} {s acc : State} {th : Thread} (h : Runs i s th) (hn : Near s acc)
    (ht : acc.thread? th.id = s.thread? th.id) : Runs i acc th :=
  ⟨ht.trans h.here, (hn.canIssue th).trans h.issues, h.calm, (hn.decodeTrap th i).trans h.decodes, h.guard, h.ready, h.noRegion⟩

/-- A team whose members run an instruction with a result: every member's result, from the state before the issue. -/
theorem aluTeam_runs {i : Instr} {s : State} (f : State → Thread → Out) (h : TeamRuns i s) :
    aluTeam i f s = .next (s.teamPut i (f s)) := by
  unfold aluTeam runTeam State.teamPut
  congr 1
  obtain ⟨hnd, hall⟩ := h
  have key : ∀ (ts : List Nat) (acc : State), ts.Nodup → (∀ t ∈ ts, ∃ th, th.id = t ∧ Runs i s th) → Near s acc →
      (∀ t ∈ ts, acc.thread? t = s.thread? t) →
      ts.foldl (fun acc t => acc.exec1 i (fun s1 th => .done (s1.put th.id (f s th))) t) acc
        = ts.foldl (fun acc t => match s.thread? t with
          | some th => (acc.put t (f s th)).past i th
          | none => acc) acc := by
    intro ts
    induction ts with
    | nil => intros; rfl
    | cons t ts ih =>
      intro acc hd hr hn hs
      obtain ⟨th, hid, hrun⟩ := hr t (List.mem_cons_self ..)
      subst hid
      have hacc := hrun.near hn (hs _ (List.mem_cons_self ..))
      simp only [List.foldl_cons]
      rw [exec1_runs _ hacc, hrun.here]
      simp only []
      rw [List.nodup_cons] at hd
      refine ih _ hd.2 (fun u hu => hr u (List.mem_cons_of_mem _ hu)) ((hn.trans (near_put ..)).trans (near_past ..)) ?_
      intro u hu
      have hne : u ≠ th.id := fun e => hd.1 (e ▸ hu)
      rw [thread?_past_ne i th hne, thread?_put_ne _ hne]
      exact hs u (List.mem_cons_of_mem _ hu)
  exact key s.team s hnd hall (near_refl s) (fun _ _ => rfl)

end Sys2Proof.Machine
end

