-- ==== Sys2Proof/Laws/Alu.lean ====
section
/-! SUPPORT. What each shape of result instruction leaves when the members of its team run it. -/

namespace Sys2Proof.Machine

variable {i : Instr} {s : State} {y : Arith}

theorem alu1_runs {f : Nat → Nat} (h : TeamRuns i s) :
    alu1 i y f s = .next (s.teamPut i fun th => ofType y (f (s.argA th y))) := aluTeam_runs _ h

theorem alu2_runs {f : Nat → Nat → Nat} (h : TeamRuns i s) :
    alu2 i y f s = .next (s.teamPut i fun th => ofType y (f (s.argA th y) (s.argB th y))) := aluTeam_runs _ h

theorem alu3_runs {f : Nat → Nat → Nat → Nat} (h : TeamRuns i s) :
    alu3 i y f s = .next (s.teamPut i fun th => ofType y (f (s.argA th y) (s.argB th y) (s.argC th y))) := aluTeam_runs _ h

theorem aluShift_runs {f : Nat → Nat → Nat} (h : TeamRuns i s) :
    aluShift i y f s = .next (s.teamPut i fun th => ofType y (f (s.argA th y) (s.amount th y))) := aluTeam_runs _ h

theorem aluCount_runs {f : Nat → Nat} (h : TeamRuns i s) :
    aluCount i y f s = .next (s.teamPut i fun th => { d := y.d, w := 32, val := f (s.argA th y) }) := aluTeam_runs _ h

theorem falu1_runs {f : Rnd → Nat → FRes} (h : TeamRuns i s) :
    falu1 i y f s = .next (s.teamPut i fun th => fOut y (f (th.rnd y.rnd) (s.argA th y))) := aluTeam_runs _ h

theorem falu2_runs {f : Rnd → Nat → Nat → FRes} (h : TeamRuns i s) :
    falu2 i y f s = .next (s.teamPut i fun th => fOut y (f (th.rnd y.rnd) (s.argA th y) (s.argB th y))) := aluTeam_runs _ h

theorem falu3_runs {f : Rnd → Nat → Nat → Nat → FRes} (h : TeamRuns i s) :
    falu3 i y f s = .next (s.teamPut i fun th => fOut y (f (th.rnd y.rnd) (s.argA th y) (s.argB th y) (s.argC th y))) :=
  aluTeam_runs _ h

theorem sfnTeam_runs {f : Sfn} (h : TeamRuns i s) :
    sfnTeam i y f s = .next (s.teamPut i fun th =>
      let r := sfnVal f y.ty (s.argA th y)
      { d := y.d, w := 32, val := r.bits, flags := r.flags }) := aluTeam_runs _ h

theorem packedTeam_runs {f : Ty → Nat → Nat → Nat → FRes} (h : TeamRuns i s) :
    packedTeam i y f s = .next (s.teamPut i fun th =>
      let r := f y.ty (s.packed th y y.a) (s.packed th y y.b) (s.packed th y y.c)
      { d := y.d, w := 32, val := r.bits, flags := r.flags }) := aluTeam_runs _ h

theorem laneTeam_runs {f : State → List Thread → Thread → Out} (h : TeamRuns i s) :
    laneTeam i f s = .next (s.teamPut i fun th => f s (s.active i) th) := aluTeam_runs _ h

/-- An emulable instruction of a thread that issues alone: it traps once the frame can be written. -/
theorem unimplTeam_alone {th : Thread} (h : Alone i s th) :
    unimplTeam i s = .next (if th.frameWaits then s.stay th i else s.trapHere th (encode i) .unimpl 0 0) := runTeam_alone _ h

end Sys2Proof.Machine
end

