-- ==== Sys2Proof/Laws/Dispatch.lean ====
section
/-! SUPPORT. The arms of exec as equations, so that no proof unfolds the whole match. -/

namespace Sys2Proof.Machine

variable (s : State)

theorem exec_mov (x : C3) : exec (.mov x) s = execMov x s := rfl
theorem exec_mov96 (x : AForm) : exec (.mov96 x) s = execMov96 x s := rfl
theorem exec_sel (x : Arith) : exec (.sel x) s = execSel x s := rfl
theorem exec_add (x : C3) : exec (.add x) s = execAdd x s := rfl
theorem exec_add96 (x : AForm) : exec (.add96 x) s = execAdd96 x s := rfl
theorem exec_sub (x : C3) : exec (.sub x) s = execSub x s := rfl
theorem exec_sub96 (x : AForm) : exec (.sub96 x) s = execSub96 x s := rfl
theorem exec_neg (x : C3) : exec (.neg x) s = execNeg x s := rfl
theorem exec_neg96 (x : AForm) : exec (.neg96 x) s = execNeg96 x s := rfl
theorem exec_abs (x : C3) : exec (.abs x) s = execAbs x s := rfl
theorem exec_abs96 (x : AForm) : exec (.abs96 x) s = execAbs96 x s := rfl
theorem exec_min (x : C3) : exec (.min x) s = execMin x s := rfl
theorem exec_min96 (x : AForm) : exec (.min96 x) s = execMin96 x s := rfl
theorem exec_max (x : C3) : exec (.max x) s = execMax x s := rfl
theorem exec_max96 (x : AForm) : exec (.max96 x) s = execMax96 x s := rfl
theorem exec_mul (x : C3) : exec (.mul x) s = execMul x s := rfl
theorem exec_mul96 (x : AForm) : exec (.mul96 x) s = execMul96 x s := rfl
theorem exec_mulhi (x : C3) : exec (.mulhi x) s = execMulhi x s := rfl
theorem exec_mulhi96 (x : AForm) : exec (.mulhi96 x) s = execMulhi96 x s := rfl
theorem exec_mad (x : C3) : exec (.mad x) s = execMad x s := rfl
theorem exec_mad96 (x : AForm) : exec (.mad96 x) s = execMad96 x s := rfl
theorem exec_madw (x : Arith) : exec (.madw x) s = execMadw x s := rfl
theorem exec_div (x : C3) : exec (.div x) s = execDiv x s := rfl
theorem exec_div96 (x : AForm) : exec (.div96 x) s = execDiv96 x s := rfl
theorem exec_rem (x : C3) : exec (.rem x) s = execRem x s := rfl
theorem exec_rem96 (x : AForm) : exec (.rem96 x) s = execRem96 x s := rfl
theorem exec_sad (x : Arith) : exec (.sad x) s = execSad x s := rfl
theorem exec_and (x : C3) : exec (.and x) s = execAnd x s := rfl
theorem exec_and96 (x : AForm) : exec (.and96 x) s = execAnd96 x s := rfl
theorem exec_or (x : C3) : exec (.or x) s = execOr x s := rfl
theorem exec_or96 (x : AForm) : exec (.or96 x) s = execOr96 x s := rfl
theorem exec_xor (x : C3) : exec (.xor x) s = execXor x s := rfl
theorem exec_xor96 (x : AForm) : exec (.xor96 x) s = execXor96 x s := rfl
theorem exec_not (x : C3) : exec (.not x) s = execNot x s := rfl
theorem exec_not96 (x : AForm) : exec (.not96 x) s = execNot96 x s := rfl
theorem exec_andn (x : C3) : exec (.andn x) s = execAndn x s := rfl
theorem exec_andn96 (x : AForm) : exec (.andn96 x) s = execAndn96 x s := rfl
theorem exec_lop (x : Arith) : exec (.lop x) s = execLop x s := rfl
theorem exec_shl (x : C3) : exec (.shl x) s = execShl x s := rfl
theorem exec_shl96 (x : AForm) : exec (.shl96 x) s = execShl96 x s := rfl
theorem exec_shr (x : C3) : exec (.shr x) s = execShr x s := rfl
theorem exec_shr96 (x : AForm) : exec (.shr96 x) s = execShr96 x s := rfl
theorem exec_sar (x : C3) : exec (.sar x) s = execSar x s := rfl
theorem exec_sar96 (x : AForm) : exec (.sar96 x) s = execSar96 x s := rfl
theorem exec_rol (x : C3) : exec (.rol x) s = execRol x s := rfl
theorem exec_rol96 (x : AForm) : exec (.rol96 x) s = execRol96 x s := rfl
theorem exec_ror (x : C3) : exec (.ror x) s = execRor x s := rfl
theorem exec_ror96 (x : AForm) : exec (.ror96 x) s = execRor96 x s := rfl
theorem exec_bfx (x : Arith) : exec (.bfx x) s = execBfx x s := rfl
theorem exec_bfins (x : Arith) : exec (.bfins x) s = execBfins x s := rfl
theorem exec_popc (x : C3) : exec (.popc x) s = execPopc x s := rfl
theorem exec_popc96 (x : AForm) : exec (.popc96 x) s = execPopc96 x s := rfl
theorem exec_clz (x : C3) : exec (.clz x) s = execClz x s := rfl
theorem exec_clz96 (x : AForm) : exec (.clz96 x) s = execClz96 x s := rfl
theorem exec_ctz (x : C3) : exec (.ctz x) s = execCtz x s := rfl
theorem exec_ctz96 (x : AForm) : exec (.ctz96 x) s = execCtz96 x s := rfl
theorem exec_brev (x : C3) : exec (.brev x) s = execBrev x s := rfl
theorem exec_brev96 (x : AForm) : exec (.brev96 x) s = execBrev96 x s := rfl
theorem exec_revb (x : C3) : exec (.revb x) s = execRevb x s := rfl
theorem exec_revb96 (x : AForm) : exec (.revb96 x) s = execRevb96 x s := rfl
theorem exec_cmp (x : Arith) : exec (.cmp x) s = execCmp x s := rfl
theorem exec_plop (x : Arith) : exec (.plop x) s = execPlop x s := rfl
theorem exec_pmov (x : Arith) : exec (.pmov x) s = execPmov x s := rfl
theorem exec_lea (x : Arith) : exec (.lea x) s = execLea x s := rfl
theorem exec_icvt (x : Arith) : exec (.icvt x) s = execIcvt x s := rfl
theorem exec_clamp (x : Arith) : exec (.clamp x) s = execClamp x s := rfl
theorem exec_fadd (x : C3) : exec (.fadd x) s = execFadd x s := rfl
theorem exec_fadd96 (x : AForm) : exec (.fadd96 x) s = execFadd96 x s := rfl
theorem exec_fsub (x : C3) : exec (.fsub x) s = execFsub x s := rfl
theorem exec_fsub96 (x : AForm) : exec (.fsub96 x) s = execFsub96 x s := rfl
theorem exec_fmul (x : C3) : exec (.fmul x) s = execFmul x s := rfl
theorem exec_fmul96 (x : AForm) : exec (.fmul96 x) s = execFmul96 x s := rfl
theorem exec_ffma (x : C3) : exec (.ffma x) s = execFfma x s := rfl
theorem exec_ffma96 (x : AForm) : exec (.ffma96 x) s = execFfma96 x s := rfl
theorem exec_fmin (x : C3) : exec (.fmin x) s = execFmin x s := rfl
theorem exec_fmin96 (x : AForm) : exec (.fmin96 x) s = execFmin96 x s := rfl
theorem exec_fmax (x : C3) : exec (.fmax x) s = execFmax x s := rfl
theorem exec_fmax96 (x : AForm) : exec (.fmax96 x) s = execFmax96 x s := rfl
theorem exec_fabs (x : C3) : exec (.fabs x) s = execFabs x s := rfl
theorem exec_fabs96 (x : AForm) : exec (.fabs96 x) s = execFabs96 x s := rfl
theorem exec_fneg (x : C3) : exec (.fneg x) s = execFneg x s := rfl
theorem exec_fneg96 (x : AForm) : exec (.fneg96 x) s = execFneg96 x s := rfl
theorem exec_fcmp (x : Arith) : exec (.fcmp x) s = execFcmp x s := rfl
theorem exec_fclass (x : Arith) : exec (.fclass x) s = execFclass x s := rfl
theorem exec_fdiv (x : Arith) : exec (.fdiv x) s = execFdiv x s := rfl
theorem exec_fsqrt (x : Arith) : exec (.fsqrt x) s = execFsqrt x s := rfl
theorem exec_cvt (x : Arith) : exec (.cvt x) s = execCvt x s := rfl
theorem exec_cvtfi (x : Arith) : exec (.cvtfi x) s = execCvtfi x s := rfl
theorem exec_cvtif (x : Arith) : exec (.cvtif x) s = execCvtif x s := rfl
theorem exec_frnd (x : Arith) : exec (.frnd x) s = execFrnd x s := rfl
theorem exec_fscale (x : Arith) : exec (.fscale x) s = execFscale x s := rfl
theorem exec_bra (x : CB) : exec (.bra x) s = execBra x s := rfl
theorem exec_bra96 (x : Desc) : exec (.bra96 x) s = execBra96 x s := rfl
theorem exec_call (x : CB) : exec (.call x) s = execCall x s := rfl
theorem exec_call96 (x : Desc) : exec (.call96 x) s = execCall96 x s := rfl
theorem exec_jmp (x : C3) : exec (.jmp x) s = execJmp x s := rfl
theorem exec_jmp96 (x : AForm) : exec (.jmp96 x) s = execJmp96 x s := rfl
theorem exec_calli (x : C3) : exec (.calli x) s = execCalli x s := rfl
theorem exec_calli96 (x : AForm) : exec (.calli96 x) s = execCalli96 x s := rfl
theorem exec_ret (x : C3) : exec (.ret x) s = execRet x s := rfl
theorem exec_ret96 (x : AForm) : exec (.ret96 x) s = execRet96 x s := rfl
theorem exec_exit (x : C3) : exec (.exit x) s = execExit x s := rfl
theorem exec_exit96 (x : Arith) : exec (.exit96 x) s = execExit96 x s := rfl
theorem exec_brk (x : Arith) : exec (.brk x) s = execBrk x s := rfl
theorem exec_svc (x : CI) : exec (.svc x) s = execSvc x s := rfl
theorem exec_svc96 (x : Arith) : exec (.svc96 x) s = execSvc96 x s := rfl
theorem exec_wait (x : Desc) : exec (.wait x) s = execWait x s := rfl
theorem exec_nop (x : C3) : exec (.nop x) s = execNop x s := rfl
theorem exec_nop96 (x : Arith) : exec (.nop96 x) s = execNop96 x s := rfl
theorem exec_ld (x : CI) : exec (.ld x) s = execLd x s := rfl
theorem exec_ld96 (x : MForm) : exec (.ld96 x) s = execLd96 x s := rfl
theorem exec_st (x : CI) : exec (.st x) s = execSt x s := rfl
theorem exec_st96 (x : MForm) : exec (.st96 x) s = execSt96 x s := rfl
theorem exec_movs (x : Desc) : exec (.movs x) s = execMovs x s := rfl
theorem exec_sets (x : Desc) : exec (.sets x) s = execSets x s := rfl
theorem exec_sxTimeWrite (x : Desc) : exec (.sxTimeWrite x) s = execSxTimeWrite x s := rfl
theorem exec_pair (x : Pair) : exec (.pair x) s = execPair x s := rfl
theorem exec_join (x : Arith) : exec (.join x) s = execJoin x s := rfl
theorem exec_lead (x : Arith) : exec (.lead x) s = execLead x s := rfl
theorem exec_spawn (x : Arith) : exec (.spawn x) s = execSpawn x s := rfl
theorem exec_bar (x : Arith) : exec (.bar x) s = execBar x s := rfl
theorem exec_xch (x : Arith) : exec (.xch x) s = execXch x s := rfl
theorem exec_xlred (x : Arith) : exec (.xlred x) s = execXlred x s := rfl
theorem exec_xlscan (x : Arith) : exec (.xlscan x) s = execXlscan x s := rfl
theorem exec_ballot (x : Arith) : exec (.ballot x) s = execBallot x s := rfl
theorem exec_quorum (x : Arith) : exec (.quorum x) s = execQuorum x s := rfl
theorem exec_peer (x : Arith) : exec (.peer x) s = execPeer x s := rfl
theorem exec_hadd (x : C3) : exec (.hadd x) s = execHadd x s := rfl
theorem exec_hadd96 (x : AForm) : exec (.hadd96 x) s = execHadd96 x s := rfl
theorem exec_hmul (x : C3) : exec (.hmul x) s = execHmul x s := rfl
theorem exec_hmul96 (x : AForm) : exec (.hmul96 x) s = execHmul96 x s := rfl
theorem exec_hfma (x : C3) : exec (.hfma x) s = execHfma x s := rfl
theorem exec_hfma96 (x : AForm) : exec (.hfma96 x) s = execHfma96 x s := rfl
theorem exec_hmin (x : Arith) : exec (.hmin x) s = execHmin x s := rfl
theorem exec_hmax (x : Arith) : exec (.hmax x) s = execHmax x s := rfl
theorem exec_dot (x : Arith) : exec (.dot x) s = execDot x s := rfl
theorem exec_rcp (x : C3) : exec (.rcp x) s = execRcp x s := rfl
theorem exec_rcp96 (x : AForm) : exec (.rcp96 x) s = execRcp96 x s := rfl
theorem exec_rsq (x : C3) : exec (.rsq x) s = execRsq x s := rfl
theorem exec_rsq96 (x : AForm) : exec (.rsq96 x) s = execRsq96 x s := rfl
theorem exec_ex2 (x : C3) : exec (.ex2 x) s = execEx2 x s := rfl
theorem exec_ex296 (x : AForm) : exec (.ex296 x) s = execEx296 x s := rfl
theorem exec_lg2 (x : C3) : exec (.lg2 x) s = execLg2 x s := rfl
theorem exec_lg296 (x : AForm) : exec (.lg296 x) s = execLg296 x s := rfl
theorem exec_sin (x : C3) : exec (.sin x) s = execSin x s := rfl
theorem exec_sin96 (x : AForm) : exec (.sin96 x) s = execSin96 x s := rfl
theorem exec_cos (x : C3) : exec (.cos x) s = execCos x s := rfl
theorem exec_cos96 (x : AForm) : exec (.cos96 x) s = execCos96 x s := rfl
theorem exec_tanh (x : C3) : exec (.tanh x) s = execTanh x s := rfl
theorem exec_tanh96 (x : AForm) : exec (.tanh96 x) s = execTanh96 x s := rfl
theorem exec_pack (x : Arith) : exec (.pack x) s = execPack x s := rfl
theorem exec_unpk (x : Arith) : exec (.unpk x) s = execUnpk x s := rfl
theorem exec_qblk (x : Arith) : exec (.qblk x) s = execQblk x s := rfl
theorem exec_edge (x : Arith) : exec (.edge x) s = execEdge x s := rfl
theorem exec_ldmx (x : Memf) : exec (.ldmx x) s = execLdmx x s := rfl
theorem exec_atom (x : Memf) : exec (.atom x) s = execAtom x s := rfl
theorem exec_red (x : Memf) : exec (.red x) s = execRed x s := rfl
theorem exec_fence (x : Memf) : exec (.fence x) s = execFence x s := rfl
theorem exec_ifence (x : Arith) : exec (.ifence x) s = execIfence x s := rfl
theorem exec_cwb (x : Memf) : exec (.cwb x) s = execCwb x s := rfl
theorem exec_cinval (x : Memf) : exec (.cinval x) s = execCinval x s := rfl
theorem exec_pref (x : Memf) : exec (.pref x) s = execPref x s := rfl
theorem exec_cpy (x : Desc) : exec (.cpy x) s = execCpy x s := rfl
theorem exec_cpyt (x : Desc) : exec (.cpyt x) s = execCpyt x s := rfl
theorem exec_slotarm (x : Desc) : exec (.slotarm x) s = execSlotarm x s := rfl
theorem exec_sarrive (x : Desc) : exec (.sarrive x) s = execSarrive x s := rfl
theorem exec_sacq (x : Desc) : exec (.sacq x) s = execSacq x s := rfl
theorem exec_swait (x : Desc) : exec (.swait x) s = execSwait x s := rfl
theorem exec_sfirst (x : Desc) : exec (.sfirst x) s = execSfirst x s := rfl
theorem exec_sreset (x : Desc) : exec (.sreset x) s = execSreset x s := rfl
theorem exec_ondone (x : Desc) : exec (.ondone x) s = execOndone x s := rfl
theorem exec_give (x : Desc) : exec (.give x) s = execGive x s := rfl
theorem exec_take (x : Desc) : exec (.take x) s = execTake x s := rfl
theorem exec_qinit (x : Desc) : exec (.qinit x) s = execQinit x s := rfl
theorem exec_qpush (x : Desc) : exec (.qpush x) s = execQpush x s := rfl
theorem exec_qpop (x : Desc) : exec (.qpop x) s = execQpop x s := rfl
theorem exec_qtryPush (x : Desc) : exec (.qtryPush x) s = execQtryPush x s := rfl
theorem exec_qtryPop (x : Desc) : exec (.qtryPop x) s = execQtryPop x s := rfl
theorem exec_hitch (x : Desc) : exec (.hitch x) s = execHitch x s := rfl
theorem exec_unhitch (x : Desc) : exec (.unhitch x) s = execUnhitch x s := rfl
theorem exec_bload (x : Desc) : exec (.bload x) s = execBload x s := rfl
theorem exec_bswap (x : Desc) : exec (.bswap x) s = execBswap x s := rfl
theorem exec_mma (x : Desc) : exec (.mma x) s = execMma x s := rfl
theorem exec_accz (x : Desc) : exec (.accz x) s = execAccz x s := rfl
theorem exec_accld (x : Desc) : exec (.accld x) s = execAccld x s := rfl
theorem exec_accst (x : Desc) : exec (.accst x) s = execAccst x s := rfl
theorem exec_trace (x : Desc) : exec (.trace x) s = execTrace x s := rfl
theorem exec_pairs (x : Desc) : exec (.pairs x) s = execPairs x s := rfl
theorem exec_isload (x : Desc) : exec (.isload x) s = execIsload x s := rfl
theorem exec_isray (x : Desc) : exec (.isray x) s = execIsray x s := rfl
theorem exec_iscand (x : Desc) : exec (.iscand x) s = execIscand x s := rfl
theorem exec_isacc (x : Desc) : exec (.isacc x) s = execIsacc x s := rfl
theorem exec_isrej (x : Desc) : exec (.isrej x) s = execIsrej x s := rfl
theorem exec_isend (x : Desc) : exec (.isend x) s = execIsend x s := rfl
theorem exec_sgfork (x : Desc) : exec (.sgfork x) s = execSgfork x s := rfl
theorem exec_sgpost (x : Desc) : exec (.sgpost x) s = execSgpost x s := rfl
theorem exec_sgcancel (x : Desc) : exec (.sgcancel x) s = execSgcancel x s := rfl
theorem exec_sgcancelAll (x : Desc) : exec (.sgcancelAll x) s = execSgcancelAll x s := rfl
theorem exec_sgstat (x : Desc) : exec (.sgstat x) s = execSgstat x s := rfl
theorem exec_rte (x : Desc) : exec (.rte x) s = execRte x s := rfl
theorem exec_movix (x : Desc) : exec (.movix x) s = execMovix x s := rfl
theorem exec_setix (x : Desc) : exec (.setix x) s = execSetix x s := rfl
theorem exec_regionOpen (x : Desc) : exec (.regionOpen x) s = execRegionOpen x s := rfl
theorem exec_regionClose (x : Desc) : exec (.regionClose x) s = execRegionClose x s := rfl
theorem exec_yield (x : Desc) : exec (.yield x) s = execYield x s := rfl
theorem exec_qwait (x : Desc) : exec (.qwait x) s = execQwait x s := rfl
theorem exec_launchStart (x : Desc) : exec (.launchStart x) s = execLaunchStart x s := rfl
theorem exec_launchReply (x : Desc) : exec (.launchReply x) s = execLaunchReply x s := rfl
theorem exec_launchPreempt (x : Desc) : exec (.launchPreempt x) s = execLaunchPreempt x s := rfl
theorem exec_launchResume (x : Desc) : exec (.launchResume x) s = execLaunchResume x s := rfl
theorem exec_launchEnd (x : Desc) : exec (.launchEnd x) s = execLaunchEnd x s := rfl
theorem exec_launchBind (x : Desc) : exec (.launchBind x) s = execLaunchBind x s := rfl
theorem exec_illegalOpcode (ws : List Word) : exec (.illegalOpcode ws) s = execIllegalOpcode ws s := rfl
theorem exec_threadEnd : exec .threadEnd s = execThreadEnd s := rfl
theorem exec_loadComplete : exec .loadComplete s = execLoadComplete s := rfl
theorem exec_storeComplete : exec .storeComplete s = execStoreComplete s := rfl
theorem exec_releaseWritePerform : exec .releaseWritePerform s = execReleaseWritePerform s := rfl
theorem exec_writePerform : exec .writePerform s = execWritePerform s := rfl
theorem exec_keyReadyTimeout : exec .keyReadyTimeout s = execKeyReadyTimeout s := rfl
theorem exec_keyAgeExpiry : exec .keyAgeExpiry s = execKeyAgeExpiry s := rfl
theorem exec_spawnPoolRoom : exec .spawnPoolRoom s = execSpawnPoolRoom s := rfl
theorem exec_poolInsertDeferred : exec .poolInsertDeferred s = execPoolInsertDeferred s := rfl
theorem exec_binTimerExpiry : exec .binTimerExpiry s = execBinTimerExpiry s := rfl
theorem exec_spawnedGroupStart : exec .spawnedGroupStart s = execSpawnedGroupStart s := rfl
theorem exec_flagwordOr : exec .flagwordOr s = execFlagwordOr s := rfl
theorem exec_copyProgress : exec .copyProgress s = execCopyProgress s := rfl
theorem exec_copyRetire : exec .copyRetire s = execCopyRetire s := rfl
theorem exec_copyFault : exec .copyFault s = execCopyFault s := rfl
theorem exec_sresetDone : exec .sresetDone s = execSresetDone s := rfl
theorem exec_takeDone : exec .takeDone s = execTakeDone s := rfl
theorem exec_queueWaitServed : exec .queueWaitServed s = execQueueWaitServed s := rfl
theorem exec_unhitchComplete : exec .unhitchComplete s = execUnhitchComplete s := rfl
theorem exec_bloadRetire : exec .bloadRetire s = execBloadRetire s := rfl
theorem exec_bloadFault : exec .bloadFault s = execBloadFault s := rfl
theorem exec_gridOpRetire : exec .gridOpRetire s = execGridOpRetire s := rfl
theorem exec_gridOpFault : exec .gridOpFault s = execGridOpFault s := rfl
theorem exec_accCmdRetire : exec .accCmdRetire s = execAccCmdRetire s := rfl
theorem exec_harnessDrain : exec .harnessDrain s = execHarnessDrain s := rfl
theorem exec_harnessRestore : exec .harnessRestore s = execHarnessRestore s := rfl
theorem exec_traversalRoom : exec .traversalRoom s = execTraversalRoom s := rfl
theorem exec_intersectionProgramStart : exec .intersectionProgramStart s = execIntersectionProgramStart s := rfl
theorem exec_programBudgetExpiry : exec .programBudgetExpiry s = execProgramBudgetExpiry s := rfl
theorem exec_rayWalkEnd : exec .rayWalkEnd s = execRayWalkEnd s := rfl
theorem exec_pairEmit : exec .pairEmit s = execPairEmit s := rfl
theorem exec_pairWalkEnd : exec .pairWalkEnd s = execPairWalkEnd s := rfl
theorem exec_isloadApply : exec .isloadApply s = execIsloadApply s := rfl
theorem exec_sgOpen : exec .sgOpen s = execSgOpen s := rfl
theorem exec_sgEvent : exec .sgEvent s = execSgEvent s := rfl
theorem exec_sgTimerExpiry : exec .sgTimerExpiry s = execSgTimerExpiry s := rfl
theorem exec_sgCloseDone : exec .sgCloseDone s = execSgCloseDone s := rfl
theorem exec_sgElapsedWrite : exec .sgElapsedWrite s = execSgElapsedWrite s := rfl
theorem exec_gangPlace : exec .gangPlace s = execGangPlace s := rfl
theorem exec_gangWaitExpiry : exec .gangWaitExpiry s = execGangWaitExpiry s := rfl
theorem exec_groupFree : exec .groupFree s = execGroupFree s := rfl
theorem exec_launchComplete : exec .launchComplete s = execLaunchComplete s := rfl
theorem exec_groupEvict : exec .groupEvict s = execGroupEvict s := rfl
theorem exec_groupReplace : exec .groupReplace s = execGroupReplace s := rfl
theorem exec_deferredFault : exec .deferredFault s = execDeferredFault s := rfl
theorem exec_takePendingTrap : exec .takePendingTrap s = execTakePendingTrap s := rfl
theorem exec_haltRecordTimeout : exec .haltRecordTimeout s = execHaltRecordTimeout s := rfl
theorem exec_yieldExpiry : exec .yieldExpiry s = execYieldExpiry s := rfl
theorem exec_preemptHalt : exec .preemptHalt s = execPreemptHalt s := rfl
theorem exec_groupRestore : exec .groupRestore s = execGroupRestore s := rfl
theorem exec_correctedError : exec .correctedError s = execCorrectedError s := rfl
theorem exec_spareMove : exec .spareMove s = execSpareMove s := rfl
theorem exec_lastingContainment : exec .lastingContainment s = execLastingContainment s := rfl
theorem exec_uncorrectableError : exec .uncorrectableError s = execUncorrectableError s := rfl
theorem exec_pageRequestRoom : exec .pageRequestRoom s = execPageRequestRoom s := rfl
theorem exec_pageReply : exec .pageReply s = execPageReply s := rfl
theorem exec_shootdown : exec .shootdown s = execShootdown s := rfl
theorem exec_shootdownAck : exec .shootdownAck s = execShootdownAck s := rfl
theorem exec_pageHomeMove : exec .pageHomeMove s = execPageHomeMove s := rfl
theorem exec_hostWrite : exec .hostWrite s = execHostWrite s := rfl
theorem exec_hostRead : exec .hostRead s = execHostRead s := rfl
theorem exec_hostSnoop : exec .hostSnoop s = execHostSnoop s := rfl
theorem exec_pcieInbound : exec .pcieInbound s = execPcieInbound s := rfl
theorem exec_fabricRequest : exec .fabricRequest s = execFabricRequest s := rfl
theorem exec_fabricResponse : exec .fabricResponse s = execFabricResponse s := rfl
theorem exec_sendWindowRoom : exec .sendWindowRoom s = execSendWindowRoom s := rfl
theorem exec_fabricTimeout : exec .fabricTimeout s = execFabricTimeout s := rfl
theorem exec_fabricPathLoss : exec .fabricPathLoss s = execFabricPathLoss s := rfl
theorem exec_arrivalWindowWrite : exec .arrivalWindowWrite s = execArrivalWindowWrite s := rfl
theorem exec_notifyWrite : exec .notifyWrite s = execNotifyWrite s := rfl
theorem exec_launchIdFree : exec .launchIdFree s = execLaunchIdFree s := rfl
theorem exec_launchEndDone : exec .launchEndDone s = execLaunchEndDone s := rfl
theorem exec_doneRingRecheck : exec .doneRingRecheck s = execDoneRingRecheck s := rfl
theorem exec_moduleReset : exec .moduleReset s = execModuleReset s := rfl
theorem exec_attestationRequest : exec .attestationRequest s = execAttestationRequest s := rfl
theorem exec_powerStateRequest : exec .powerStateRequest s = execPowerStateRequest s := rfl
theorem exec_powerLoss : exec .powerLoss s = execPowerLoss s := rfl
theorem exec_fetchFault : exec .fetchFault s = execFetchFault s := rfl
theorem exec_lostHostLink : exec .lostHostLink s = execLostHostLink s := rfl
theorem exec_gridPassEnd : exec .gridPassEnd s = execGridPassEnd s := rfl

end Sys2Proof.Machine
end

