-- ==== Sys2Proof/Laws/Memory.lean ====
section
/-! SUPPORT. The canonical form of memory and what keeps it, and what the issue of one access does. -/

namespace Sys2Proof.Machine

/-! ### The canonical form -/

theorem Memory.wfFrom_mono {m : Memory} {a b : Nat} (h : m.wfFrom b = true) (hab : a ≤ b) : m.wfFrom a = true := by
  cases m with
  | nil => rfl
  | cons c rest =>
    obtain ⟨x, v⟩ := c
    simp only [Memory.wfFrom, Bool.and_eq_true, decide_eq_true_eq] at h ⊢
    exact ⟨⟨by omega, h.1.2⟩, h.2⟩

theorem Memory.wfFrom_write (m : Memory) (lo a : Nat) (b : Byte) (h : m.wfFrom lo = true) (hlo : lo ≤ a) :
    (m.write a b).wfFrom lo = true := by
  induction m generalizing lo with
  | nil =>
    unfold Memory.write
    split
    · rfl
    · simp_all [Memory.wfFrom]
  | cons c rest ih =>
    obtain ⟨x, v⟩ := c
    simp only [Memory.wfFrom, Bool.and_eq_true, decide_eq_true_eq] at h
    unfold Memory.write
    split
    · rename_i hx
      simp only [Memory.wfFrom, Bool.and_eq_true, decide_eq_true_eq]
      exact ⟨h.1, ih _ h.2 (by omega)⟩
    · split
      · split
        · exact Memory.wfFrom_mono h.2 (by omega)
        · simp_all [Memory.wfFrom]
      · split
        · simp_all [Memory.wfFrom]
        · simp_all [Memory.wfFrom]
          omega

/-- Writing a byte keeps the canonical form. -/
theorem Memory.wf_write (m : Memory) (a : Nat) (b : Byte) (h : m.wf = true) : (m.write a b).wf = true :=
  Memory.wfFrom_write m 0 a b h (Nat.zero_le _)

/-- Storing bytes keeps the canonical form. -/
theorem Memory.wf_store (m : Memory) (a : Nat) (bs : List Byte) (h : m.wf = true) : (m.store a bs).wf = true := by
  induction bs generalizing m a with
  | nil => exact h
  | cons b bs ih => exact ih _ _ (Memory.wf_write m a b h)

theorem notify_mem (s : State) (pa n : Nat) : (s.notify pa n).mem = s.mem := by
  unfold State.notify
  split
  · rfl
  · rename_i hb
    clear hb
    generalize List.range 64 = l
    induction l generalizing s with
    | nil => rfl
    | cons q qs ih =>
      rw [List.foldl_cons, ih]
      simp only []
      split <;> rfl

/-- A write at a physical address keeps the canonical form. -/
theorem wf_writePhys (s : State) (core : Option Nat) (pa : Nat) (bs : List Byte) (unc : Bool) (h : s.mem.wf = true) :
    (s.writePhys core pa bs unc).mem.wf = true := by
  unfold State.writePhys
  split
  · exact h
  · rw [notify_mem]
    exact Memory.wf_store _ _ _ h

/-! ### Requests -/

/-- Without far requests of engines none leaves. -/
theorem pumpFar_none {s : State} (h : s.far = []) : s.pumpFar = s := by simp [State.pumpFar, h]

/-- Without far accesses nothing leaves the module. -/
theorem pump_homely {s : State} (h : s.Homely) : s.pump = s := by
  unfold State.pump
  suffices ∀ (xs : List Thread) (t : State), t = s → xs.foldl (fun s x => x.ops.foldl (fun s a0 =>
      match (s.thread? x.id).bind fun th => (th.ops.find? fun a => a.id == a0.id).map fun a => (th, a) with
      | none => s
      | some (th, a) => if s.maySend th a then s.sendAccess th a else s) s) t = s from
    (congrArg State.pumpFar (this s.threads s rfl)).trans (pumpFar_none h.2.1)
  intro xs
  induction xs with
  | nil => exact fun _ e => e
  | cons x xs ih =>
    intro t e
    subst e
    rw [List.foldl_cons]
    refine ih _ ?_
    generalize x.ops = as
    induction as with
    | nil => rfl
    | cons a0 as ih2 =>
      rw [List.foldl_cons]
      split
      · exact ih2
      · rename_i th a heq
        have : t.maySend th a = false := by
          obtain ⟨u, hu, hv⟩ := Option.bind_eq_some_iff.mp heq
          obtain ⟨w, hw, hp⟩ := Option.map_eq_some_iff.mp hv
          obtain ⟨rfl, rfl⟩ := Prod.mk.inj hp
          have := h.2.2 u (List.mem_of_find?_eq_some hu) w (List.mem_of_find?_eq_some hw)
          simp [State.maySend, this]
        simp only [this]
        exact ih2

/-! ### One access -/

theorem runs_newId {i : Instr} {s : State} {th : Thread} (h : Runs i s th) : Runs i s.newId.2 th :=
  h.near ⟨fun _ => rfl⟩ rfl

/-- A memory instruction of a thread that issues alone: its effect, unless the issue overruns a send window. -/
theorem memTeam_alone {i : Instr} {s : State} {th : Thread} (f : Nat → State → State → Thread → Res) (h : Alone i s th) :
    memTeam i f s = (
      let t := match f s.nextId s.newId.2 s.newId.2 th with
        | .done s2 => s2.past i th
        | .jump s2 => s2.executed th
        | .trap s2 c a d => if th.frameWaits then s.newId.2.stay th i else s2.trapHere th (encode i) c a d
        | .stall s2 => s2.stay th i
      match s.overWindow t with
      | some d => .next (s.holdWindow d i)
      | none => .next t) := by
  have h2 : Alone i s.newId.2 th := ⟨h.1, runs_newId h.2⟩
  have hrun := runTeam_alone (f s.nextId) h2
  unfold memTeam
  rcases hn : s.newId with ⟨n, s0⟩
  have e1 : n = s.nextId := by rw [← newId_fst, hn]
  rw [hn] at hrun
  subst e1
  simp only [hrun] <;> rfl

/-- An access that passes its checks is issued. -/
theorem memOne_granted {i : Instr} {s s1 : State} {iss : Nat} {th : Thread} {q : Ask} {p : Place} {tail : Option (Nat × Place)}
    (hg : Granted s th q s1 p tail) : s.newId.2.memOne i iss th q = .done (s1.issueAccess th i iss q p tail) := by
  obtain ⟨h1, h2, h3, -, -, c, hc, hcan, hp⟩ := hg
  have hcan' : canonical (s.newId.2.spaceOf th) (q.va + BitVec.ofNat 64 (q.size - 1)) = true := hcan
  unfold State.memOne
  rw [hc]
  simp only [hcan', h1, h2, Bool.not_true, Bool.false_eq_true, if_false, Bool.or_self]
  cases c with
  | spad o =>
    obtain ⟨rfl, rfl, rfl⟩ := hp
    have : classTrap q.op (.spad o) = false := by cases q.op <;> rfl
    simp [this, h3]
  | stack o =>
    obtain ⟨rfl, rfl, rfl, ht, -⟩ := hp
    simp [ht, h3]
  | global =>
    obtain ⟨p0, tail0, hg, ht, hl⟩ := hp
    simp [hg, ht, hl, h3]

end Sys2Proof.Machine
end

