-- ==== Sys2Proof/Tests/Slice0.lean ====
section
/-! SUPPORT. Small tests: words written out from the encoding tables (02) and the instruction each stands for, ill-formed terms that
`Instr.wf` refuses, results of one step on small states, and a witness for the hypotheses of each statement of Obligations.lean. -/

namespace Sys2Proof.Tests

open Sys2Proof Sys2Proof.Machine

set_option linter.unusedVariables false
set_option Elab.async false

/-! ### Terms -/

def tW (l : List Nat) : List Word := l.map (BitVec.ofNat 32)
def tC3 (m : Bool) (d a b : Opnd) : C3 := { m := m, b := b, a := a, d := d }
def tAr (ty : Ty) (ext mod8 : Nat) (d a b c : Opnd) : Arith :=
  { g := 7, d := d, a := a, b := b, c := c, mod8 := BitVec.ofNat 8 mod8, lit := none, ext := BitVec.ofNat 16 ext, sat := false, rnd := 0
    ty := ty }
def tMe (ty : Ty) (off agent store ord mod8 : Nat) (d a b c : Opnd) : Memf :=
  { g := 7, d := d, a := a, b := b, c := c, mod8 := BitVec.ofNat 8 mod8, lit := none, off := BitVec.ofNat 20 off
    agent := BitVec.ofNat 3 agent, store := BitVec.ofNat 2 store, ord := BitVec.ofNat 2 ord, ty := ty }
def tDe (w2 : Nat) (d a b c : Opnd) : Desc :=
  { g := 7, d := d, a := a, b := b, c := c, mod8 := 0, lit := none, w2 := BitVec.ofNat 32 w2 }

/-! ### Small states -/

/-- Physical memory with two page tables that map the first GiB of virtual addresses to itself, and the header of a spawn entry at 0x6000. -/
def tMem : Memory := [(0x1000, 0x01), (0x1001, 0x20), (0x2000, 0x7F), (0x6000, 0x01), (0x6004, 0x40), (0x6008, 0x20), (0x6010, 0x04)]

def tSpace : Space := { root := 0x1000 }

def tImg : Image := { spBase := 0x00007F0000000000, stkBase := 0x00007E0000000000, kvec := 0x4000, members := [0, 1], fwSpace := tSpace }

def tHdr : Header := { threads := [1, 0, 0, 0], regs := [4, 0, 0, 0], uniforms := 16, scratch := 4096, slots := 8, accwin := 8 }

def tLaunch : Launch := { id := 1, queue := 0, lr := { entry := 0x3000, poolCap := 32, poolAddr := 0x5000, stack := 1024 }, hdr := tHdr, space := tSpace }

def tGroup : Group :=
  { id := 2, launch := 1, gang := 9, hdr := tHdr, entry := 0x3000, slots := List.replicate 8 {}, queues := List.replicate 8 {}
    tvec := 0x4100 }

/-- A device thread at 0x3040. -/
def tThread : Thread := { id := 3, unit := .device, group := 2, pc := 0x3040, alloc := 32 }

/-- A state in which the thread th issues alone. -/
def tState (th : Thread) : State :=
  { nextId := 20, team := [th.id], booted := true, img := tImg, mem := tMem, threads := [th], groups := [tGroup], launches := [tLaunch] }

/-- A thread of the unit that executes the instruction: a service-processor thread, a traversal unit's core, or a device thread. -/
def tFor (i : Instr) : Thread :=
  let op := instrOp i
  if op == 0xE7 || op == 0xE8 || op == 0xD2 then { tThread with unit := .service, sup := true, alloc := 256 }
  else if 0xD3 ≤ op && op ≤ 0xD7 then { tThread with unit := .intersection, budget := 100 }
  else tThread

/-- `Runs` as a check, for a thread that is in the state. -/
def tRun (i : Instr) (s : State) (th : Thread) : Bool :=
  s.canIssue th && th.pend.isEmpty && (s.decodeTrap th i).isNone && th.guard i.guard && !stallsAt th i && th.region == .none

theorem runs_of_check {i : Instr} {s : State} {th : Thread} (h0 : s.thread? th.id = some th) (h : tRun i s th = true) : Runs i s th := by
  simp only [tRun, Bool.and_eq_true, beq_iff_eq, List.isEmpty_iff, Option.isNone_iff_eq_none, Bool.not_eq_true'] at h
  obtain ⟨⟨⟨⟨⟨h2, h3⟩, h4⟩, h5⟩, h6⟩, h7⟩ := h
  exact ⟨h0, h2, h3, h4, h5, h6, fun a n e => by simp [h7] at e⟩

/-- One thread runs the instruction alone. -/
theorem alone_of_check {i : Instr} {s : State} {th : Thread} (h1 : s.team = [th.id]) (h0 : s.thread? th.id = some th)
    (h : tRun i s th = true) : Alone i s th :=
  ⟨h1, runs_of_check h0 h⟩

/-- One thread runs the instruction alone in the small state around it. -/
theorem alone_tState {i : Instr} {th : Thread} (h : tRun i (tState th) th = true) : Alone i (tState th) th :=
  alone_of_check rfl (by simp [State.thread?, tState]) h

/-- A team of one that runs the instruction. -/
theorem team_of_alone {i : Instr} {s : State} {th : Thread} (h : Alone i s th) : TeamRuns i s :=
  ⟨by simp [h.1], fun t ht => ⟨th, by simpa [h.1, eq_comm] using ht, h.2⟩⟩

def tDecodes (l : List (List Word × Instr)) : Bool :=
  l.all fun r => match decode r.1 with
    | .ok i => i == r.2 && i.wf && i.legal
    | .error _ => false

/-- Every instruction of the list runs alone in a small state: the hypotheses of its statement can be met. -/
def tRuns (l : List (List Word × Instr)) : Bool := l.all fun r => tRun r.2 (tState (tFor r.2)) (tFor r.2)

/-! ### Words and what they stand for: one for each constructor that has an encoding (02 R36 to R57) -/

def wordsInteger0 : List (List Word × Instr) := [
  (tW [0xfa104004], .mov (tC3 true (.v 16) (.v 8) .zero)),
  (tW [0x804005, 0x73fcff, 0x1], .mov96 (.wide (tAr .i32 0x0 0 (.v 16) (.v 8) .zero .zero))),
  (tW [0x804009, 0x73fc0c, 0x10000], .sel (tAr .b32 0x1 0 (.v 16) (.v 8) (.v 12) .zero)),
  (tW [0x8c10400c], .add (tC3 true (.v 16) (.v 8) (.v 12))),
  (tW [0x80400d, 0x73fc0c, 0x1], .add96 (.wide (tAr .i32 0x0 0 (.v 16) (.v 8) (.v 12) .zero))),
  (tW [0x8c104010], .sub (tC3 true (.v 16) (.v 8) (.v 12))),
  (tW [0x804011, 0x73fc0c, 0x1], .sub96 (.wide (tAr .i32 0x0 0 (.v 16) (.v 8) (.v 12) .zero))),
  (tW [0xfa104014], .neg (tC3 true (.v 16) (.v 8) .zero)),
  (tW [0x804015, 0x73fcff, 0x1], .neg96 (.wide (tAr .i32 0x0 0 (.v 16) (.v 8) .zero .zero))),
  (tW [0xfa104018], .abs (tC3 true (.v 16) (.v 8) .zero)),
  (tW [0x804019, 0x73fcff, 0x1], .abs96 (.wide (tAr .i32 0x0 0 (.v 16) (.v 8) .zero .zero))),
  (tW [0x8c10401c], .min (tC3 true (.v 16) (.v 8) (.v 12))),
  (tW [0x80401d, 0x73fc0c, 0x1], .min96 (.wide (tAr .i32 0x0 0 (.v 16) (.v 8) (.v 12) .zero))),
  (tW [0x8c104020], .max (tC3 true (.v 16) (.v 8) (.v 12))),
  (tW [0x804021, 0x73fc0c, 0x1], .max96 (.wide (tAr .i32 0x0 0 (.v 16) (.v 8) (.v 12) .zero))),
  (tW [0x8c104024], .mul (tC3 true (.v 16) (.v 8) (.v 12))),
  (tW [0x804025, 0x73fc0c, 0x1], .mul96 (.wide (tAr .i32 0x0 0 (.v 16) (.v 8) (.v 12) .zero))),
  (tW [0x8c104028], .mulhi (tC3 true (.v 16) (.v 8) (.v 12))),
  (tW [0x804029, 0x73fc0c, 0x1], .mulhi96 (.wide (tAr .i32 0x0 0 (.v 16) (.v 8) (.v 12) .zero))),
  (tW [0x8c10402c], .mad (tC3 true (.v 16) (.v 8) (.v 12))),
  (tW [0x80402d, 0x70100c, 0x1], .mad96 (.wide (tAr .i32 0x0 0 (.v 16) (.v 8) (.v 12) (.v 4)))),
  (tW [0x804031, 0x70100c, 0x1], .madw (tAr .i32 0x0 0 (.v 16) (.v 8) (.v 12) (.v 4))),
  (tW [0x8c104034], .div (tC3 true (.v 16) (.v 8) (.v 12))),
  (tW [0x804035, 0x73fc0c, 0x1], .div96 (.wide (tAr .i32 0x0 0 (.v 16) (.v 8) (.v 12) .zero))),
  (tW [0x8c104038], .rem (tC3 true (.v 16) (.v 8) (.v 12))),
  (tW [0x804039, 0x73fc0c, 0x1], .rem96 (.wide (tAr .i32 0x0 0 (.v 16) (.v 8) (.v 12) .zero))),
  (tW [0x80403d, 0x70100c, 0x1], .sad (tAr .i32 0x0 0 (.v 16) (.v 8) (.v 12) (.v 4))),
  (tW [0x8c104040], .and (tC3 true (.v 16) (.v 8) (.v 12)))]

def wordsInteger1 : List (List Word × Instr) := [
  (tW [0x804041, 0x73fc0c, 0x1], .and96 (.wide (tAr .i32 0x0 0 (.v 16) (.v 8) (.v 12) .zero))),
  (tW [0x8c104044], .or (tC3 true (.v 16) (.v 8) (.v 12))),
  (tW [0x804045, 0x73fc0c, 0x1], .or96 (.wide (tAr .i32 0x0 0 (.v 16) (.v 8) (.v 12) .zero))),
  (tW [0x8c104048], .xor (tC3 true (.v 16) (.v 8) (.v 12))),
  (tW [0x804049, 0x73fc0c, 0x1], .xor96 (.wide (tAr .i32 0x0 0 (.v 16) (.v 8) (.v 12) .zero))),
  (tW [0xfa10404c], .not (tC3 true (.v 16) (.v 8) .zero)),
  (tW [0x80404d, 0x73fcff, 0x1], .not96 (.wide (tAr .i32 0x0 0 (.v 16) (.v 8) .zero .zero))),
  (tW [0x8c104050], .andn (tC3 true (.v 16) (.v 8) (.v 12))),
  (tW [0x804051, 0x73fc0c, 0x1], .andn96 (.wide (tAr .i32 0x0 0 (.v 16) (.v 8) (.v 12) .zero))),
  (tW [0x804055, 0x70100c, 0xca0001], .lop (tAr .i32 0xca 0 (.v 16) (.v 8) (.v 12) (.v 4))),
  (tW [0x8c104058], .shl (tC3 true (.v 16) (.v 8) (.v 12))),
  (tW [0x804059, 0x73fc0c, 0x1], .shl96 (.wide (tAr .i32 0x0 0 (.v 16) (.v 8) (.v 12) .zero))),
  (tW [0x8c10405c], .shr (tC3 true (.v 16) (.v 8) (.v 12))),
  (tW [0x80405d, 0x73fc0c, 0x1], .shr96 (.wide (tAr .i32 0x0 0 (.v 16) (.v 8) (.v 12) .zero))),
  (tW [0x8c104060], .sar (tC3 true (.v 16) (.v 8) (.v 12))),
  (tW [0x804061, 0x73fc0c, 0x1], .sar96 (.wide (tAr .i32 0x0 0 (.v 16) (.v 8) (.v 12) .zero))),
  (tW [0x8c104064], .rol (tC3 true (.v 16) (.v 8) (.v 12))),
  (tW [0x804065, 0x73fc0c, 0x1], .rol96 (.wide (tAr .i32 0x0 0 (.v 16) (.v 8) (.v 12) .zero))),
  (tW [0x8c104068], .ror (tC3 true (.v 16) (.v 8) (.v 12))),
  (tW [0x804069, 0x73fc0c, 0x1], .ror96 (.wide (tAr .i32 0x0 0 (.v 16) (.v 8) (.v 12) .zero))),
  (tW [0x80406d, 0x73fc0c, 0x1], .bfx (tAr .i32 0x0 0 (.v 16) (.v 8) (.v 12) .zero)),
  (tW [0x804071, 0x70100c, 0x0], .bfins (tAr .b32 0x0 0 (.v 16) (.v 8) (.v 12) (.v 4))),
  (tW [0xfa104074], .popc (tC3 true (.v 16) (.v 8) .zero)),
  (tW [0x804075, 0x73fcff, 0x1], .popc96 (.wide (tAr .i32 0x0 0 (.v 16) (.v 8) .zero .zero))),
  (tW [0xfa104078], .clz (tC3 true (.v 16) (.v 8) .zero)),
  (tW [0x804079, 0x73fcff, 0x1], .clz96 (.wide (tAr .i32 0x0 0 (.v 16) (.v 8) .zero .zero))),
  (tW [0xfa10407c], .ctz (tC3 true (.v 16) (.v 8) .zero)),
  (tW [0x80407d, 0x73fcff, 0x1], .ctz96 (.wide (tAr .i32 0x0 0 (.v 16) (.v 8) .zero .zero)))]

def wordsInteger2 : List (List Word × Instr) := [
  (tW [0xfa104080], .brev (tC3 true (.v 16) (.v 8) .zero)),
  (tW [0x804081, 0x73fcff, 0x1], .brev96 (.wide (tAr .i32 0x0 0 (.v 16) (.v 8) .zero .zero))),
  (tW [0xfa104084], .revb (tC3 true (.v 16) (.v 8) .zero)),
  (tW [0x804085, 0x73fcff, 0x1], .revb96 (.wide (tAr .i32 0x0 0 (.v 16) (.v 8) .zero .zero))),
  (tW [0x804089, 0x73fc0c, 0x110001], .cmp (tAr .i32 0x11 0 (.v 16) (.v 8) (.v 12) .zero)),
  (tW [0xff3fc8d, 0x8073fcff, 0x90000], .plop (tAr .b32 0x9 128 .zero .zero .zero .zero)),
  (tW [0xff04091, 0x73fcff, 0x0], .pmov (tAr .b32 0x0 0 (.v 16) .zero .zero .zero)),
  (tW [0x804095, 0x73fc0c, 0x20006], .lea (tAr .b64 0x2 0 (.v 16) (.v 8) (.v 12) .zero)),
  (tW [0x804099, 0x73fcff, 0x10001], .icvt (tAr .i32 0x1 0 (.v 16) (.v 8) .zero .zero)),
  (tW [0x80409d, 0x70100c, 0x1], .clamp (tAr .i32 0x0 0 (.v 16) (.v 8) (.v 12) (.v 4)))]

def wordsFloat : List (List Word × Instr) := [
  (tW [0x8c104100], .fadd (tC3 true (.v 16) (.v 8) (.v 12))),
  (tW [0x804101, 0x73fc0c, 0x3], .fadd96 (.wide (tAr .f32 0x0 0 (.v 16) (.v 8) (.v 12) .zero))),
  (tW [0x8c104104], .fsub (tC3 true (.v 16) (.v 8) (.v 12))),
  (tW [0x804105, 0x73fc0c, 0x3], .fsub96 (.wide (tAr .f32 0x0 0 (.v 16) (.v 8) (.v 12) .zero))),
  (tW [0x8c104108], .fmul (tC3 true (.v 16) (.v 8) (.v 12))),
  (tW [0x804109, 0x73fc0c, 0x3], .fmul96 (.wide (tAr .f32 0x0 0 (.v 16) (.v 8) (.v 12) .zero))),
  (tW [0x8c10410c], .ffma (tC3 true (.v 16) (.v 8) (.v 12))),
  (tW [0x80410d, 0x70100c, 0x3], .ffma96 (.wide (tAr .f32 0x0 0 (.v 16) (.v 8) (.v 12) (.v 4)))),
  (tW [0xc104110], .fmin (tC3 false (.v 16) (.v 8) (.v 12))),
  (tW [0x804111, 0x73fc0c, 0x3], .fmin96 (.wide (tAr .f32 0x0 0 (.v 16) (.v 8) (.v 12) .zero))),
  (tW [0xc104114], .fmax (tC3 false (.v 16) (.v 8) (.v 12))),
  (tW [0x804115, 0x73fc0c, 0x3], .fmax96 (.wide (tAr .f32 0x0 0 (.v 16) (.v 8) (.v 12) .zero))),
  (tW [0x7a104118], .fabs (tC3 false (.v 16) (.v 8) .zero)),
  (tW [0x804119, 0x73fcff, 0x3], .fabs96 (.wide (tAr .f32 0x0 0 (.v 16) (.v 8) .zero .zero))),
  (tW [0x7a10411c], .fneg (tC3 false (.v 16) (.v 8) .zero)),
  (tW [0x80411d, 0x73fcff, 0x3], .fneg96 (.wide (tAr .f32 0x0 0 (.v 16) (.v 8) .zero .zero))),
  (tW [0x804121, 0x73fc0c, 0x110003], .fcmp (tAr .f32 0x11 0 (.v 16) (.v 8) (.v 12) .zero)),
  (tW [0x804125, 0x73fcff, 0x3], .fclass (tAr .f32 0x0 0 (.v 16) (.v 8) .zero .zero)),
  (tW [0x804129, 0x73fc0c, 0x3], .fdiv (tAr .f32 0x0 0 (.v 16) (.v 8) (.v 12) .zero)),
  (tW [0x80412d, 0x73fcff, 0x3], .fsqrt (tAr .f32 0x0 0 (.v 16) (.v 8) .zero .zero)),
  (tW [0x804131, 0x73fcff, 0x30003], .cvt (tAr .f32 0x3 0 (.v 16) (.v 8) .zero .zero)),
  (tW [0x804135, 0x73fcff, 0x30001], .cvtfi (tAr .i32 0x3 0 (.v 16) (.v 8) .zero .zero)),
  (tW [0x804139, 0x73fcff, 0x10003], .cvtif (tAr .f32 0x1 0 (.v 16) (.v 8) .zero .zero)),
  (tW [0x80413d, 0x73fcff, 0x3], .frnd (tAr .f32 0x0 0 (.v 16) (.v 8) .zero .zero)),
  (tW [0x804141, 0x73fc0c, 0x3], .fscale (tAr .f32 0x0 0 (.v 16) (.v 8) (.v 12) .zero))]

def wordsControl : List (List Word × Instr) := [
  (tW [0xffffc180], .bra ⟨0x3FFFF0⟩),
  (tW [0x8ff3fd81, 0x73fcff, 0xfffffff0], .bra96 (tDe 0xfffffff0 .zero .zero .zero .zero)),
  (tW [0xffffc184], .call ⟨0x3FFFF0⟩),
  (tW [0x8ff04185, 0x73fcff, 0x8], .call96 (tDe 0x8 (.v 16) .zero .zero .zero)),
  (tW [0x7a11e988], .jmp (tC3 false .zero (.v 8) .zero)),
  (tW [0x83fd89, 0x73fcff, 0x0], .jmp96 (.wide (tAr .b32 0x0 0 .zero (.v 8) .zero .zero))),
  (tW [0x7a10418c], .calli (tC3 false (.v 16) (.v 8) .zero)),
  (tW [0x80418d, 0x73fcff, 0x0], .calli96 (.wide (tAr .b32 0x0 0 (.v 16) (.v 8) .zero .zero))),
  (tW [0x7a11e990], .ret (tC3 false .zero (.v 8) .zero)),
  (tW [0x83fd91, 0x73fcff, 0x0], .ret96 (.wide (tAr .b32 0x0 0 .zero (.v 8) .zero .zero))),
  (tW [0x7af5e994], .exit (tC3 false .zero .zero .zero)),
  (tW [0xff3fd95, 0x73fcff, 0x0], .exit96 (tAr .b32 0x0 0 .zero .zero .zero .zero)),
  (tW [0xff3fd99, 0x73fcff, 0x70000], .brk (tAr .b32 0x7 0 .zero .zero .zero .zero)),
  (tW [0x5f5e99c], .svc ⟨5, .zero, .zero⟩),
  (tW [0x80419d, 0x73fcff, 0x50000], .svc96 (tAr .b32 0x5 0 (.v 16) (.v 8) .zero .zero)),
  (tW [0x8ff3fda1, 0x73fcff, 0x1020304], .wait (tDe 0x1020304 .zero .zero .zero .zero)),
  (tW [0x7af5e9a4], .nop (tC3 false .zero .zero .zero)),
  (tW [0xff3fda5, 0x73fcff, 0x0], .nop96 (tAr .b32 0x0 0 .zero .zero .zero .zero))]

def wordsLane : List (List Word × Instr) := [
  (tW [0xff3fdc1, 0x73fcff, 0x0], .join (tAr .b32 0x0 0 .zero .zero .zero .zero)),
  (tW [0xff041c5, 0x73fcff, 0x80000], .lead (tAr .b32 0x8 0 (.v 16) .zero .zero .zero)),
  (tW [0x83fdc9, 0x73fc0c, 0x0], .spawn (tAr .b32 0x0 0 .zero (.v 8) (.v 12) .zero)),
  (tW [0xff3fdcd, 0x73fcff, 0x0], .bar (tAr .b32 0x0 0 .zero .zero .zero .zero)),
  (tW [0x8041d1, 0x73fcff, 0x40000], .xch (tAr .b32 0x4 0 (.v 16) (.v 8) .zero .zero)),
  (tW [0x8041d5, 0x73fcff, 0x10001], .xlred (tAr .i32 0x1 0 (.v 16) (.v 8) .zero .zero)),
  (tW [0x8041d9, 0x73fcff, 0x110001], .xlscan (tAr .i32 0x11 0 (.v 16) (.v 8) .zero .zero)),
  (tW [0xff041dd, 0x73fcff, 0x10000], .ballot (tAr .b32 0x1 0 (.v 16) .zero .zero .zero)),
  (tW [0xff041e1, 0x73fcff, 0x110000], .quorum (tAr .b32 0x11 0 (.v 16) .zero .zero .zero)),
  (tW [0x8041e5, 0x73fcff, 0x10000], .peer (tAr .b32 0x1 0 (.v 16) (.v 8) .zero .zero))]

def wordsPacked : List (List Word × Instr) := [
  (tW [0x8c104200], .hadd (tC3 true (.v 16) (.v 8) (.v 12))),
  (tW [0x804201, 0x73fc0c, 0x4], .hadd96 (.wide (tAr .f16 0x0 0 (.v 16) (.v 8) (.v 12) .zero))),
  (tW [0x8c104204], .hmul (tC3 true (.v 16) (.v 8) (.v 12))),
  (tW [0x804205, 0x73fc0c, 0x4], .hmul96 (.wide (tAr .f16 0x0 0 (.v 16) (.v 8) (.v 12) .zero))),
  (tW [0x8c104208], .hfma (tC3 true (.v 16) (.v 8) (.v 12))),
  (tW [0x804209, 0x70100c, 0x4], .hfma96 (.wide (tAr .f16 0x0 0 (.v 16) (.v 8) (.v 12) (.v 4)))),
  (tW [0x80420d, 0x73fc0c, 0x4], .hmin (tAr .f16 0x0 0 (.v 16) (.v 8) (.v 12) .zero)),
  (tW [0x80420d, 0x173fc0c, 0x4], .hmax (tAr .f16 0x0 1 (.v 16) (.v 8) (.v 12) .zero)),
  (tW [0x804211, 0x70100c, 0x40004], .dot (tAr .f16 0x4 0 (.v 16) (.v 8) (.v 12) (.v 4))),
  (tW [0x7a104214], .rcp (tC3 false (.v 16) (.v 8) .zero)),
  (tW [0x804215, 0x73fcff, 0x3], .rcp96 (.wide (tAr .f32 0x0 0 (.v 16) (.v 8) .zero .zero))),
  (tW [0x7a104218], .rsq (tC3 false (.v 16) (.v 8) .zero)),
  (tW [0x804219, 0x73fcff, 0x3], .rsq96 (.wide (tAr .f32 0x0 0 (.v 16) (.v 8) .zero .zero))),
  (tW [0x7a10421c], .ex2 (tC3 false (.v 16) (.v 8) .zero)),
  (tW [0x80421d, 0x73fcff, 0x3], .ex296 (.wide (tAr .f32 0x0 0 (.v 16) (.v 8) .zero .zero))),
  (tW [0x7a104220], .lg2 (tC3 false (.v 16) (.v 8) .zero)),
  (tW [0x804221, 0x73fcff, 0x3], .lg296 (.wide (tAr .f32 0x0 0 (.v 16) (.v 8) .zero .zero))),
  (tW [0x7a104224], .sin (tC3 false (.v 16) (.v 8) .zero)),
  (tW [0x804225, 0x73fcff, 0x3], .sin96 (.wide (tAr .f32 0x0 0 (.v 16) (.v 8) .zero .zero))),
  (tW [0x7a104228], .cos (tC3 false (.v 16) (.v 8) .zero)),
  (tW [0x804229, 0x73fcff, 0x3], .cos96 (.wide (tAr .f32 0x0 0 (.v 16) (.v 8) .zero .zero))),
  (tW [0x7a10422c], .tanh (tC3 false (.v 16) (.v 8) .zero)),
  (tW [0x80422d, 0x73fcff, 0x3], .tanh96 (.wide (tAr .f32 0x0 0 (.v 16) (.v 8) .zero .zero))),
  (tW [0x804231, 0x73fc0c, 0x4], .pack (tAr .f16 0x0 0 (.v 16) (.v 8) (.v 12) .zero)),
  (tW [0x804235, 0x73fcff, 0x10004], .unpk (tAr .f16 0x1 0 (.v 16) (.v 8) .zero .zero)),
  (tW [0x804239, 0x73fcff, 0x10], .qblk (tAr .e4m3 0x0 0 (.v 16) (.v 8) .zero .zero)),
  (tW [0x80423d, 0x70100c, 0x3], .edge (tAr .f32 0x0 0 (.v 16) (.v 8) (.v 12) (.v 4)))]

def wordsMemory : List (List Word × Instr) := [
  (tW [0xfe104240], .ld ⟨254, .v 8, .v 16⟩),
  (tW [0x40804241, 0x73fcff, 0xffff8920], .ld96 (.wide (tMe .b32 0xffff8 4 2 1 0 (.v 16) (.v 8) .zero .zero))),
  (tW [0xfe104244], .st ⟨254, .v 8, .v 16⟩),
  (tW [0x4083fe45, 0x73fc0c, 0xffff8940], .st96 (.wide (tMe .b32 0xffff8 4 2 2 0 .zero (.v 8) (.v 12) .zero))),
  (tW [0x40804249, 0x73fc0c, 0xffff8930], .ldmx (tMe .e4m3 0xffff8 4 2 1 0 (.v 16) (.v 8) (.v 12) .zero)),
  (tW [0x4080424d, 0x73fc0c, 0xffff8921], .atom (tMe .i32 0xffff8 4 2 1 0 (.v 16) (.v 8) (.v 12) .zero)),
  (tW [0x4083fe51, 0x73fc0c, 0xffff8941], .red (tMe .i32 0xffff8 4 2 2 0 .zero (.v 8) (.v 12) .zero)),
  (tW [0x4ff3fe55, 0x73fcff, 0x920], .fence (tMe .b32 0x0 4 2 1 0 .zero .zero .zero .zero)),
  (tW [0xff3fe59, 0x73fcff, 0x0], .ifence (tAr .b32 0x0 0 .zero .zero .zero .zero)),
  (tW [0x4083fe5d, 0x73fcff, 0xffff8000], .cwb (tMe .b32 0xffff8 0 0 0 0 .zero (.v 8) .zero .zero)),
  (tW [0x4083fe61, 0x73fcff, 0xffff8000], .cinval (tMe .b32 0xffff8 0 0 0 0 .zero (.v 8) .zero .zero)),
  (tW [0x4083fe65, 0x73fcff, 0xffff8000], .pref (tMe .b32 0xffff8 0 0 0 0 .zero (.v 8) .zero .zero))]

def wordsCopy : List (List Word × Instr) := [
  (tW [0x808042c1, 0x70100c, 0x1], .cpy (tDe 0x1 (.v 16) (.v 8) (.v 12) (.v 4))),
  (tW [0x808042c5, 0x70100c, 0x1], .cpyt (tDe 0x1 (.v 16) (.v 8) (.v 12) (.v 4))),
  (tW [0x808042c9, 0x73fc0c, 0x0], .slotarm (tDe 0x0 (.v 16) (.v 8) (.v 12) .zero)),
  (tW [0x808042cd, 0x73fcff, 0x0], .sarrive (tDe 0x0 (.v 16) (.v 8) .zero .zero)),
  (tW [0x8ff042d1, 0x73fcff, 0x1], .sacq (tDe 0x1 (.v 16) .zero .zero .zero)),
  (tW [0x808042d5, 0x73fcff, 0x1], .swait (tDe 0x1 (.v 16) (.v 8) .zero .zero)),
  (tW [0x808042d9, 0x73fcff, 0x1], .sfirst (tDe 0x1 (.v 16) (.v 8) .zero .zero)),
  (tW [0x8ff042dd, 0x73fcff, 0x0], .sreset (tDe 0x0 (.v 16) .zero .zero .zero)),
  (tW [0x808042e1, 0x73fc0c, 0x0], .ondone (tDe 0x0 (.v 16) (.v 8) (.v 12) .zero)),
  (tW [0x8083fee5, 0x73fc0c, 0x0], .give (tDe 0x0 .zero (.v 8) (.v 12) .zero)),
  (tW [0x8083fee9, 0x73fc0c, 0x0], .take (tDe 0x0 .zero (.v 8) (.v 12) .zero)),
  (tW [0x8083feed, 0x73fc0c, 0x3], .qinit (tDe 0x3 .zero (.v 8) (.v 12) .zero)),
  (tW [0x8083fef1, 0x73fcff, 0x3], .qpush (tDe 0x3 .zero (.v 8) .zero .zero)),
  (tW [0x8ff042f5, 0x73fcff, 0x3], .qpop (tDe 0x3 (.v 16) .zero .zero .zero)),
  (tW [0x8083fef9, 0x73fcff, 0x1], .qtryPush (tDe 0x1 .zero (.v 8) .zero .zero)),
  (tW [0x8ff042f9, 0x73fcff, 0x9], .qtryPop (tDe 0x9 (.v 16) .zero .zero .zero))]

def wordsMatrix : List (List Word × Instr) := [
  (tW [0x8ff3ff01, 0x73fcff, 0x12], .hitch (tDe 0x12 .zero .zero .zero .zero)),
  (tW [0x8ff3ff05, 0x73fcff, 0x0], .unhitch (tDe 0x0 .zero .zero .zero .zero)),
  (tW [0x80804309, 0x73fc0c, 0x1], .bload (tDe 0x1 (.v 16) (.v 8) (.v 12) .zero)),
  (tW [0x8083ff0d, 0x73fc0c, 0x0], .bswap (tDe 0x0 .zero (.v 8) (.v 12) .zero)),
  (tW [0x90804311, 0x73fcff, 0x1], .mma (tDe 0x1 (.v 16) (.k 8) .zero .zero)),
  (tW [0x8ff3ff15, 0x70100c, 0x0], .accz (tDe 0x0 .zero .zero (.v 12) (.v 4))),
  (tW [0x80804319, 0x70100c, 0x1], .accld (tDe 0x1 (.v 16) (.v 8) (.v 12) (.v 4))),
  (tW [0x8083ff1d, 0x70100c, 0x0], .accst (tDe 0x0 .zero (.v 8) (.v 12) (.v 4)))]

def wordsUnit : List (List Word × Instr) := [
  (tW [0x8083ff41, 0x73fcff, 0x0], .trace (tDe 0x0 .zero (.v 8) .zero .zero)),
  (tW [0x8083ff45, 0x73fcff, 0x0], .pairs (tDe 0x0 .zero (.v 8) .zero .zero)),
  (tW [0x8083ff49, 0x73fc0c, 0x1], .isload (tDe 0x1 .zero (.v 8) (.v 12) .zero)),
  (tW [0x8ff0434d, 0x73fcff, 0x0], .isray (tDe 0x0 (.v 16) .zero .zero .zero)),
  (tW [0x8ff04351, 0x73fcff, 0x0], .iscand (tDe 0x0 (.v 16) .zero .zero .zero)),
  (tW [0x8083ff55, 0x73fc0c, 0x0], .isacc (tDe 0x0 .zero (.v 8) (.v 12) .zero)),
  (tW [0x8ff3ff59, 0x73fcff, 0x0], .isrej (tDe 0x0 .zero .zero .zero .zero)),
  (tW [0x8083ff5d, 0x73fc0c, 0x0], .isend (tDe 0x0 .zero (.v 8) (.v 12) .zero)),
  (tW [0x8083ff61, 0x70100c, 0x0], .sgfork (tDe 0x0 .zero (.v 8) (.v 12) (.v 4))),
  (tW [0x80804365, 0x73fc0c, 0x0], .sgpost (tDe 0x0 (.v 16) (.v 8) (.v 12) .zero)),
  (tW [0x80804369, 0x73fcff, 0x0], .sgcancel (tDe 0x0 (.v 16) (.v 8) .zero .zero)),
  (tW [0x80804369, 0x73fcff, 0x1], .sgcancelAll (tDe 0x1 (.v 16) (.v 8) .zero .zero)),
  (tW [0x8080436d, 0x73fcff, 0x0], .sgstat (tDe 0x0 (.v 16) (.v 8) .zero .zero))]

def wordsSystem : List (List Word × Instr) := [
  (tW [0x8ff04381, 0x73fcff, 0x20], .movs (tDe 0x20 (.v 16) .zero .zero .zero)),
  (tW [0x8083ff85, 0x73fcff, 0x31], .sets (tDe 0x31 .zero (.v 8) .zero .zero)),
  (tW [0x8083ff85, 0x73fcff, 0x8011], .sxTimeWrite (tDe 0x8011 .zero (.v 8) .zero .zero)),
  (tW [0x8ff3ff89, 0x73fcff, 0x1], .rte (tDe 0x1 .zero .zero .zero .zero)),
  (tW [0x8080438d, 0x73fcff, 0x1], .movix (tDe 0x1 (.v 16) (.v 8) .zero .zero)),
  (tW [0x8083ff91, 0x73fc0c, 0x1], .setix (tDe 0x1 .zero (.v 8) (.v 12) .zero)),
  (tW [0x8ff3ff95, 0x73fcff, 0x0], .regionOpen (tDe 0x0 .zero .zero .zero .zero)),
  (tW [0x8ff3ff95, 0x73fcff, 0x1], .regionClose (tDe 0x1 .zero .zero .zero .zero)),
  (tW [0x8083ff99, 0x73fcff, 0x0], .yield (tDe 0x0 .zero (.v 8) .zero .zero)),
  (tW [0x808043a1, 0x73fcff, 0x0], .qwait (tDe 0x0 (.v 16) (.v 8) .zero .zero)),
  (tW [0x8080439d, 0x73fc0c, 0x0], .launchStart (tDe 0x0 (.v 16) (.v 8) (.v 12) .zero)),
  (tW [0x8080439d, 0x73fc0c, 0x1], .launchReply (tDe 0x1 (.v 16) (.v 8) (.v 12) .zero)),
  (tW [0x8080439d, 0x73fc0c, 0x2], .launchPreempt (tDe 0x2 (.v 16) (.v 8) (.v 12) .zero)),
  (tW [0x8080439d, 0x73fcff, 0x3], .launchResume (tDe 0x3 (.v 16) (.v 8) .zero .zero)),
  (tW [0x8080439d, 0x73fcff, 0x4], .launchEnd (tDe 0x4 (.v 16) (.v 8) .zero .zero)),
  (tW [0x8080439d, 0x73fc0c, 0x5], .launchBind (tDe 0x5 (.v 16) (.v 8) (.v 12) .zero))]

def wordsPair : List (List Word × Instr) := [
  (tW [0x82007f1, 0x1886fe86, 0x7f43041], .pair ⟨⟨.f32, 7, .zero, .v 12, .v 8, .v 16, 0x01⟩, ⟨.b32, 7, .zero, .v 12, .v 8, .v 17, 0x44⟩, none⟩)]

theorem test_decode_integer0 : tDecodes wordsInteger0 = true := by decide
theorem test_runs_integer0 : tRuns wordsInteger0 = true := by decide +kernel
theorem test_decode_integer1 : tDecodes wordsInteger1 = true := by decide
theorem test_runs_integer1 : tRuns wordsInteger1 = true := by decide +kernel
theorem test_decode_integer2 : tDecodes wordsInteger2 = true := by decide
theorem test_runs_integer2 : tRuns wordsInteger2 = true := by decide +kernel
theorem test_decode_float : tDecodes wordsFloat = true := by decide
theorem test_runs_float : tRuns wordsFloat = true := by decide +kernel
theorem test_decode_control : tDecodes wordsControl = true := by decide
theorem test_runs_control : tRuns wordsControl = true := by decide +kernel
theorem test_decode_lane : tDecodes wordsLane = true := by decide
theorem test_runs_lane : tRuns wordsLane = true := by decide +kernel
theorem test_decode_packed : tDecodes wordsPacked = true := by decide
theorem test_runs_packed : tRuns wordsPacked = true := by decide +kernel
theorem test_decode_memory : tDecodes wordsMemory = true := by decide
theorem test_runs_memory : tRuns wordsMemory = true := by decide +kernel
theorem test_decode_copy : tDecodes wordsCopy = true := by decide
theorem test_runs_copy : tRuns wordsCopy = true := by decide +kernel
theorem test_decode_matrix : tDecodes wordsMatrix = true := by decide
theorem test_runs_matrix : tRuns wordsMatrix = true := by decide +kernel
theorem test_decode_unit : tDecodes wordsUnit = true := by decide
theorem test_runs_unit : tRuns wordsUnit = true := by decide +kernel
theorem test_decode_system : tDecodes wordsSystem = true := by decide
theorem test_runs_system : tRuns wordsSystem = true := by decide +kernel
theorem test_decode_pair : tDecodes wordsPair = true := by decide
theorem test_runs_pair : tRuns wordsPair = true := by decide +kernel

/-! ### Witnesses: what the statements assume can be met -/

theorem pair_of_snd {α β : Type} {p : α × β} {b : β} (h : p.2 = b) : p = (p.1, b) := by rw [← h]

/-- Two facts in front of a third. -/
theorem both {a b r : Prop} (h : a ∧ b) (k : r) : a ∧ b ∧ r := ⟨h.1, h.2, k⟩

def tNear (r : Option (Nat × Place)) : Bool := r.all fun x => !x.2.far

def tGrant (s : State) (th : Thread) (q : Ask) : Bool :=
  let go (p : Place) : Bool := !counterFull q.op th.cnt && !(q.order.rel && parkedBy th q.order) && !acqHolds th p && !p.far
  canonical (s.spaceOf th) (q.va + BitVec.ofNat 64 (q.size - 1))
    && match s.newId.2.classify th q.va q.size q.align with
      | .ok (.spad o) => go (.spad o)
      | .ok (.stack o) => !classTrap q.op (.stack o) && !s.stackBad th.id o q.size && go (.stack o)
      | .ok .global =>
        match s.newId.2.placeGlobal th th.sup q.va q.size q.kind with
        | (s1, p, tail) => !classTrap q.op p && go (s1.linkAll q.va q.size p tail).1 && tNear (s1.linkAll q.va q.size p tail).2
      | .error _ => false

theorem granted_of_check {s : State} {th : Thread} {q : Ask} (h : tGrant s th q = true) : ∃ s1 p tail, Granted s th q s1 p tail := by
  unfold tGrant at h
  simp only [Bool.and_eq_true] at h
  obtain ⟨h1, h2⟩ := h
  split at h2
  · rename_i o e
    simp only [Bool.and_eq_true, Bool.not_eq_true'] at h2
    exact ⟨_, _, none, h2.1.1.1, h2.1.1.2, h2.1.2, h2.2, nofun, _, e, h1, rfl, rfl, rfl⟩
  · rename_i o e
    simp only [Bool.and_eq_true, Bool.not_eq_true'] at h2
    exact ⟨_, _, none, h2.2.1.1.1, h2.2.1.1.2, h2.2.1.2, h2.2.2, nofun, _, e, h1, rfl, rfl, rfl, h2.1.1, h2.1.2⟩
  · rename_i e
    rcases hg : s.newId.2.placeGlobal th th.sup q.va q.size q.kind with ⟨s1, p0, tail0⟩
    rcases hl : s1.linkAll q.va q.size p0 tail0 with ⟨p, tail⟩
    simp only [hg, hl, Bool.and_eq_true, Bool.not_eq_true'] at h2
    obtain ⟨⟨ht, ⟨⟨ha, hb⟩, hc⟩, hd⟩, hn⟩ := h2
    refine ⟨s1, p, tail, ha, hb, hc, hd, fun n r hr => ?_, _, e, h1, p0, tail0, hg, ht, hl⟩
    subst hr
    simpa [tNear] using hn
  · cases h2

/-- The small state with an instruction's bytes at a physical address. -/
def tStore (s : State) (pa : Nat) (ws : List Nat) : State :=
  { s with mem := s.mem.store pa (ws.flatMap fun w => toBytes 4 w) }

/-- A state whose agenda is that the thread issues. -/
def tNext : State := { tStore (tState tThread) 0x3040 [0x7AF5E9A4] with agenda := [(0, .issue [3] {})] }

/-- A thread with a value in registers n and n + 1 of the main file. -/
def tPut (n : Nat) (x : Dword) (th : Thread) : Thread :=
  { th with v := (th.v.setIfInBounds n (x.setWidth 32)).setIfInBounds (n + 1) ((x >>> 32).setWidth 32) }

/-- The thread in its handler, with these bytes in its frame. -/
def tFramed (fr : List Byte) : Thread := { tThread with tstate := 1, stk := stackStore [] 896 fr }

/-- The frame of a trap of the thread at a PC. -/
def tFrame (pc : Dword) : List Byte := Thread.frame { tThread with pc := pc } { cause := .brk, pc := pc }


/-! ### Ill-formed terms, one for each check of `Instr.wf` -/

def tWide (d a b c : Opnd) : Instr := .add96 (.wide (tAr .i32 0 0 d a b c))

theorem test_wf_c3 : (Instr.add (tC3 true (.v 96) (.v 8) (.v 12))).wf = false ∧ (Instr.add (tC3 true (.v 16) (.k 16) (.v 12))).wf = false
    ∧ (Instr.add (tC3 true (.v 16) (.v 8) .litLo)).wf = false ∧ (Instr.add (tC3 true (.v 16) (.v 8) .litHi)).wf = false
    ∧ (Instr.add (tC3 true (.v 16) (.v 8) (.imm 4))).wf = false ∧ (Instr.add (tC3 true (.v 95) (.k 15) (.v 12))).wf = true := by decide
theorem test_wf_ci : (Instr.ld ⟨0, .v 96, .v 8⟩).wf = false ∧ (Instr.ld ⟨0, .v 8, .v 96⟩).wf = false := by decide
theorem test_wf_ops4 : (tWide (.v 255) (.v 8) (.v 8) (.v 8)).wf = false ∧ (tWide (.v 8) (.v 255) (.v 8) (.v 8)).wf = false
    ∧ (tWide (.v 8) (.v 8) (.v 255) (.v 8)).wf = false ∧ (tWide (.v 8) (.v 8) (.v 8) (.v 255)).wf = false
    ∧ (tWide (.v 254) (.v 254) .litHi (.imm 255)).wf = true := by decide
theorem test_wf_literal_forms : (Instr.add96 (.c3 (tC3 true (.v 96) (.v 8) .lit) 5)).wf = false
    ∧ (Instr.ld96 (.ci ⟨0, .v 96, .v 8⟩ 5)).wf = false ∧
    (Instr.ld96 (.wide (tMe .b32 0 4 2 1 0 (.v 255) (.v 8) .zero .zero))).wf = false := by
  decide

def tHalf (ty : Ty) (c b a d : Opnd) : Half := { ty := ty, g := 7, c := c, b := b, a := a, d := d, sub := 1 }
def tOk : Half := tHalf .f32 .zero (.v 8) (.v 8) (.v 16)

theorem test_wf_pair : (Instr.pair ⟨tOk, tOk, none⟩).wf = true ∧ (Instr.pair ⟨tHalf .f32 (.v 96) (.v 8) (.v 8) (.v 16), tOk, none⟩).wf = false
    ∧ (Instr.pair ⟨tHalf .f32 .zero (.v 96) (.v 8) (.v 16), tOk, none⟩).wf = false
    ∧ (Instr.pair ⟨tOk, tHalf .f32 .zero (.v 8) (.v 96) (.v 16), none⟩).wf = false
    ∧ (Instr.pair ⟨tOk, tHalf .f32 .zero (.v 8) (.v 8) (.v 96), none⟩).wf = false
    ∧ (Instr.pair ⟨tOk, tHalf .e4m3 .zero (.v 8) (.v 8) (.v 16), none⟩).wf = false := by decide
theorem test_wf_register_numbers : (Instr.sets (tDe 0x11 .zero (.v 8) .zero .zero)).wf = false
    ∧ (Instr.sxTimeWrite (tDe 0x31 .zero (.v 8) .zero .zero)).wf = false := by decide
theorem test_wf_packed_modes : (Instr.hmin (tAr .f16 0 1 (.v 16) (.v 8) (.v 12) .zero)).wf = false
    ∧ (Instr.hmax (tAr .f16 0 0 (.v 16) (.v 8) (.v 12) .zero)).wf = false := by decide
theorem test_wf_variant_bits : (Instr.qtryPush (tDe 8 .zero (.v 8) .zero .zero)).wf = false
    ∧ (Instr.qtryPop (tDe 0 (.v 16) .zero .zero .zero)).wf = false ∧ (Instr.sgcancel (tDe 1 (.v 16) (.v 8) .zero .zero)).wf = false
    ∧ (Instr.sgcancelAll (tDe 0 (.v 16) (.v 8) .zero .zero)).wf = false ∧ (Instr.regionOpen (tDe 1 .zero .zero .zero .zero)).wf = false
    ∧ (Instr.regionClose (tDe 0 .zero .zero .zero .zero)).wf = false := by decide
theorem test_wf_launch_operations : (Instr.launchStart (tDe 1 (.v 16) (.v 8) (.v 12) .zero)).wf = false
    ∧ (Instr.launchReply (tDe 0 (.v 16) (.v 8) (.v 12) .zero)).wf = false ∧
    (Instr.launchPreempt (tDe 3 (.v 16) (.v 8) .zero .zero)).wf = false
    ∧ (Instr.launchResume (tDe 2 (.v 16) (.v 8) .zero .zero)).wf = false ∧ (Instr.launchEnd (tDe 5 (.v 16) (.v 8) .zero .zero)).wf = false
    ∧ (Instr.launchBind (tDe 4 (.v 16) (.v 8) (.v 12) .zero)).wf = false := by decide
theorem test_wf_illegal_opcode : (Instr.illegalOpcode []).wf = false ∧ (Instr.illegalOpcode [0x3FC]).wf = true
    ∧ (Instr.illegalOpcode [0x3FC, 0]).wf = false ∧ (Instr.illegalOpcode [0x0C]).wf = false := by decide

/-! ### Words the manual works out in 17, and words it refuses -/

def tTrapWords : List (List Word × Instr) := [
  (tW [0x8FF3FF89, 0x0073FCFF, 1], .rte (tDe 1 .zero .zero .zero .zero)),
  (tW [0x81402B8D, 0x0073FCFF, 1], .movix (tDe 1 (.v 10) (.v 20) .zero .zero)),
  (tW [0x8143FF91, 0x0073FC0C, 1], .setix (tDe 1 .zero (.v 20) (.v 12) .zero)),
  (tW [0x8FF3FF95, 0x0073FCFF, 0], .regionOpen (tDe 0 .zero .zero .zero .zero)),
  (tW [0xB643FF99, 0x0073FCFF, 0], .yield (tDe 0 .zero (.imm 100) .zero .zero))]

theorem test_decode_trap_words : tDecodes tTrapWords = true := by decide

/-- Words whose reserved bits, type or modifiers their instruction does not accept (02 R44, R58). -/
def tRefused : List (List Word) := [
  tW [0x8083FE05, 0x0073FC0C, 0x00000800],
  tW [0x8FF3FF89, 0x0073FCFF, 2],
  tW [0xB643FF99, 0x0073FCFF, 1],
  tW [0x8083FE0D, 0x0073FC0C, 0x0000001F]]

theorem test_decode_refuses : tRefused.all (fun ws => match decode ws with | .ok _ => false | .error _ => true) = true := by decide

/-! ### One step -/

theorem test_reset_starts : (match step State.reset with | .next t => t.booted | _ => false) = true := by decide +kernel

/-- The thread that withFetchWord places runs the word at its PC: a compact NOP moves it past one word. -/
theorem test_step_runs_fetch_word :
    (match step (State.reset.withFetchWord 32 0x7AF5E9A4) with
      | .next t => (t.threads.map fun x => x.pc) == ((State.reset.withFetchWord 32 0x7AF5E9A4).threads.map fun x => x.pc + 4)
      | _ => false) = true := by decide +kernel

def tOut32 (i : Instr) (th : Thread) (n : BitVec 8) : Option Word :=
  match exec i (tState th) with
  | .next t => (t.thread? 3).map fun x => x.getV n
  | _ => none

/-- add.i32 wraps modulo 2^32 (04 R98). -/
theorem test_add_wraps : tOut32 (tWide (.v 16) (.v 8) (.v 10) .zero) (tPut 8 0x7FFFFFFF (tPut 10 2 tThread)) 16 = some 0x80000001 := by
  decide +kernel
/-- add.i32.sat clamps at the greatest value (04 R98). -/
theorem test_add_clamps : tOut32 (.add96 (.wide { tAr .i32 0 0 (.v 16) (.v 8) (.v 10) .zero with sat := true }))
    (tPut 8 0x7FFFFFFF (tPut 10 2 tThread)) 16 = some 0x7FFFFFFF := by decide +kernel
/-- mulhi.i32 of -1 and -1 is 0: the operands are signed (04 R98). -/
theorem test_mulhi_signed : tOut32 (.mulhi96 (.wide (tAr .i32 0 0 (.v 16) (.v 8) (.v 10) .zero)))
    (tPut 8 0xFFFFFFFF (tPut 10 0xFFFFFFFF tThread)) 16 = some 0 := by decide +kernel
/-- A source that is also the destination is read before the write (01 R17). -/
theorem test_add_in_place : tOut32 (tWide (.v 8) (.v 8) (.v 8) .zero) (tPut 8 5 tThread) 8 = some 10 := by decide +kernel
/-- shl.b32 by 32 gives 0 (04 R104). -/
theorem test_shift_by_width : tOut32 (.shl96 (.wide (tAr .b32 0 0 (.v 16) (.v 8) (.v 10) .zero))) (tPut 8 1 (tPut 10 32 tThread)) 16 = some 0 := by
  decide +kernel
/-- 1.5 + 2.25 = 3.75 in FP32 (03 R70). -/
theorem test_fadd : tOut32 (.fadd96 (.wide (tAr .f32 0 0 (.v 16) (.v 8) (.v 10) .zero))) (tPut 8 0x3FC00000 (tPut 10 0x40100000 tThread)) 16
    = some 0x40700000 := by decide +kernel
/-- 2^24 + 1 is halfway between two FP32 values and rounds to the even one (03 R71). -/
theorem test_fadd_ties : tOut32 (.fadd96 (.wide (tAr .f32 0 0 (.v 16) (.v 8) (.v 10) .zero))) (tPut 8 0x4B800000 (tPut 10 0x3F800000 tThread)) 16
    = some 0x4B800000 := by decide +kernel
/-- FFMA rounds once: (1 + 2^-23)^2 - (1 + 2^-22) is 2^-46 (04 R112). -/
theorem test_fma_exact : tOut32 (.ffma96 (.wide (tAr .f32 0 0 (.v 16) (.v 8) (.v 10) (.v 12))))
    (tPut 8 0x3F800001 (tPut 10 0x3F800001 (tPut 12 0xBF800002 tThread))) 16 = some 0x28800000 := by decide +kernel

/-- The state of a step about thread 3. -/
def tAt (th : Thread) : State := { tState th with arg := { t := 3, a := 10 } }

/-- An access of thread 3, and the thread with accesses outstanding. -/
def tAcc (op : MemOp) (place : Place) : Access :=
  { id := 10, issue := 10, pc := 0x3040, words := [], va := 0x5000, size := 4, sup := false, place := place, op := op, dst := .v 8 }
def tOps (l : List Access) : Thread := { tThread with ops := l, cnt := { loads := 1, stores := 1 } }

theorem ok_of_check {ε α : Type} [DecidableEq α] {e : Except ε α} {b : α}
    (h : (match e with | .ok x => decide (x = b) | .error _ => false) = true) : e = .ok b := by
  cases e <;> simp_all

theorem error_of_check {ε α : Type} [DecidableEq ε] {e : Except ε α} {b : ε}
    (h : (match e with | .error x => decide (x = b) | .ok _ => false) = true) : e = .error b := by
  cases e <;> simp_all

/-- The state around a thread and its group. -/
def tIn (th : Thread) (g : Group) : State := { tState th with groups := [g], arg := { t := 3, a := 10, g := 2 } }

/-- The group with every tile queue initialised and holding n entries. -/
def tQueued (n : Nat) : Group := { tGroup with queues := List.replicate 8 { init := true, cap := 4, count := n, ring := 256 } }

/-- The group with a slot 0. -/
def tSlotted (x : Slot) : Group := { tGroup with slots := x :: List.replicate 7 {} }

/-- A command of thread 3. -/
def tCmd (kind : CmdKind) (left : List (Nat × Nat)) : Cmd :=
  { id := 10, thread := 3, pc := 0x3040, words := [], kind := kind, left := left }

/-- Registers for a command: v8 and v10 hold addresses, v12 a count. -/
def tRegs (a b c : Dword) : Thread := tPut 8 a (tPut 10 b (tPut 12 c tThread))

/-- A parameter block of an integer operation: one row, K 256, A at scratchpad offset 0. -/
def tBlock : List Nat := [1, 0x00000D0D00000000, 0x10100, 0x0000010000000100, 0, 0, 0, 0]
def tBlockBytes : List Byte := tBlock.flatMap fun x => toBytes 8 x

/-- A hitched group that is its harness, with the block in k0 to k7 and block 0 of its scratchpad owned by the engine. -/
def tHitched : Group :=
  { tGroup with
    hitched := some { w := 0, dp := 0 }, hdr := { tHdr with awin := 8 }, engine := [0]
    k := (List.range 8).foldl (fun k i => k.setIfInBounds i (BitVec.ofNat 64 (tBlock.getD i 0))) (Vector.replicate 256 0) }

/-- The command of its MMA, and the operation with some passes finished. -/
def tGridCmd : Cmd := tCmd (.grid 10 tBlockBytes 1 0 0) []
def tGridOp (pass : Nat) (fault : Option (Fail × Dword)) : GridOp :=
  { id := 10, gang := 9, members := [(2, 10)], blocks := [(2, tBlockBytes)], planes := [(2, 0, false)], pass := pass, fault := fault }
def tGridState (pass : Nat) (fault : Option (Fail × Dword)) : State :=
  { tIn tThread { tHitched with cmds := [tGridCmd] } with grids := [tGridOp pass fault] }

theorem got_ok {α : Type} {p : State × Got α} (h : (match p.2 with | .ok _ => true | _ => false) = true) :
    ∃ s1 x, p = (s1, .ok x) := by
  obtain ⟨s1, r⟩ := p
  cases r <;> simp_all

theorem some_of_check {α : Type} {o : Option α} (P : α → Bool) (h : (match o with | some x => P x | none => false) = true) :
    ∃ x, o = some x ∧ P x = true := by
  cases o with
  | none => cases h
  | some x => exact ⟨x, rfl, h⟩

/-- A ray record at 0x7000, a pair descriptor at 0x7100, a node at 0x8000 over one procedural leaf at 0x8080, a sample group's
descriptor at 0xB000, and program 0 in the instruction stores. -/
def tRayWords : List Nat := [0x3F000000, 0x3F000000, 0xBF800000, 0, 0, 0x3F800000, 0, 0x7F800000, 0x8000, 0, 0x9000, 0, 0x6000, 0, 0, 0]
def tPairWords : List Nat := [0x8000, 0, 0x8000, 0, 0, 1, 0xA000, 0, 0, 0, 4, 0, 0x6000, 0, 0x6000, 0] ++ List.replicate 16 0
def tTreeMem : Memory :=
  tMem ++ [
    (0x7003, 0x3f), (0x7007, 0x3f), (0x700a, 0x80), (0x700b, 0xbf), (0x7016, 0x80), (0x7017, 0x3f), (0x701e, 0x80), (0x701f, 0x7f), (0x7021, 0x80), (0x7029, 0x90),
    (0x7031, 0x60), (0x7101, 0x80), (0x7109, 0x80), (0x7114, 0x01), (0x7119, 0xa0), (0x7128, 0x04), (0x7131, 0x60), (0x7139, 0x60), (0x8000, 0x01), (0x8001, 0x01),
    (0x8002, 0x01), (0x8010, 0x7f), (0x8011, 0x7f), (0x8012, 0x7f), (0x8033, 0x01), (0x8034, 0x01), (0x8035, 0x01), (0x8060, 0x02), (0x8080, 0x03), (0x8081, 0x01),
    (0xb000, 0x01), (0xb039, 0x60), (0xb041, 0xc0)]
def tTree (s : State) : State :=
  { s with mem := tTreeMem, istore := List.replicate 16 (toBytes 4 0x80100000) }
def tRay : Ray := { id := 10, cluster := 0, launch := 1, record := tRayWords.flatMap fun w => toBytes 4 w }
def tWalk : PairWalk :=
  { id := 10, cluster := 0, launch := 1, desc := tPairWords.flatMap fun w => toBytes 4 w, addr := 0x7100, emitted := 0, seq := 0, spill := 0 }
def tCandidate : Cand := { leaf := 0x8080, entry := 0, prim := 0, tc := 0x7F800000, prog := 0, proc := true, leafId := 0 }
def tRayState (r : Ray) : State := { tTree (tAt tThread) with rays := [r] }
def tWalkState (w : PairWalk) : State := { tTree (tAt tThread) with walks := [w] }

/-- An intersection core at work on the ray's candidate. -/
def tProgram : Thread := { tThread with unit := .intersection, group := 10, budget := 100, alloc := 64 }
def tProgState (th : Thread) : State := { tTree (tAt th) with rays := [{ tRay with cand := some tCandidate, prog := some 3 }] }

/-- A service-processor thread held at ISLOAD. -/
def tIslState : State := tAt { tThread with unit := .service, sup := true, alloc := 256, hold := .isload 0xD000 256 false }

theorem all_some {o : Option Launch} {n : Nat} (h : (match o with | some l => l.waiting.all fun p => p.src != n | none => true) = true) :
    ∀ l, o = some l → ∀ p ∈ l.waiting, p.src ≠ n := by
  intro l e p hp
  subst e
  simpa using List.all_eq_true.1 h p hp

/-- A queue descriptor at 0xE000 and a launch record at 0xF000. -/
def tQdescWords : List Nat := [1] ++ List.replicate 12 0 ++ [4] ++ List.replicate 5 0 ++ [4, 0xF800, 0, 0x400, 0, 0x1000, 0, 0, 0, 0, 0, 0xFFFFFFFF, 0]
def tRecordWords : List Nat := [1, 0, 0x6000, 0, 0x10001, 1, 0x10101, 0, 0x10020, 1]
def tQueueOf (s : State) : State :=
  { tStore (tStore s 0xE000 tQdescWords) 0xF000 tRecordWords with img := { tImg with qdesc := 0xE000 :: List.replicate 63 0 } }
def tService : Thread := { tThread with unit := .service, sup := true, alloc := 256 }

/-- Every launch ID is in use. -/
def tFull (s : State) : State := { s with launches := (List.range 1023).map fun i => { tLaunch with id := i + 1 } }
theorem tFull_free (s : State) : (tFull s).freeLaunchId = none := by
  simp only [State.freeLaunchId, List.find?_eq_none, tFull]
  intro x hx
  obtain ⟨i, hi, rfl⟩ := List.mem_map.1 hx
  simpa using hi
theorem full_start {s : State} (h : s.freeLaunchId = none) (o : Owner) (q : Nat) (a : Dword) : s.startLaunch o q a = (s, .code 3) := by
  unfold State.startLaunch
  rw [h]

/-- A page of 4 KiB at 0x40000000 whose home is 0x12000, with its launch saved. -/
def tMove : State :=
  { tStore (tStore (tStore (tQueueOf (tState tThread)) 0x2008 [0x10001, 0]) 0x10000 [0x11001, 0]) 0x11000 [0x1206F, 0] with
    launches := [{ tLaunch with state := .saved, lr := { tLaunch.lr with hints := toBytes 8 0x40000000 ++ toBytes 8 0x1000 ++ toBytes 8 1 } }]
    groups := [], threads := [], arg := { va := 0x40000000, a := 0x13000 } }
theorem dram_read {s : State} {o : Owner} {va : Dword} {p : Place} {n pa c : Nat} (hp : p = .dram pa c)
    (ha : (s.askedIn o va n).isEmpty = true) (h : (linesOf pa n).any s.badLine = false) :
    s.readPlace o va p n = (s, .ok (s.readPhys pa n)) := by
  subst hp
  simp [State.readPlace, State.readNear, Place.far, ha, h]
theorem dram_write {s : State} {o : Owner} {va : Dword} {p : Place} {pa : Nat} {bs : List Byte} (hp : p = .dram pa 0)
    (ha : (s.askedIn o va bs.length).isEmpty = true) : s.writePlace o va p bs = (s.writePhys none pa bs, .ok ()) := by
  subst hp
  simp [State.writePlace, State.writeNear, Place.far, ha]

/-- Links up and one access-table entry for each class of master. -/
def tEntry (master : Nat) : List Byte := toBytes 4 0x87 ++ toBytes 8 0 ++ toBytes 4 master ++ toBytes 8 0 ++ toBytes 8 0xFFFFFFFFFFFFF
def tOut (acc : Bool) (arg : StepArgs) : State :=
  { tState tThread with
    img := { tImg with fabric := true, access := if acc then [tEntry 0x1000FFFF, tEntry 0x2000FFFF, tEntry 0x3000FFFF] else [] }
    ports := List.replicate 24 true, hostUp := [true, true], pcieUp := [true, true], arg := arg }

theorem precise_of_check {s : State} {th : Thread} (u : s.unacked = []) (f : s.far = [])
    (h : (∀ x ∈ s.threads, ∀ a ∈ x.ops, (a.pieces.any fun p => p.1.far) = false) ∧ th.unit ≠ .service
      ∧ (th.unit = .device → s.tvec th ≠ 0 ∧ s.tframe th ≠ 0 ∧ th.tstate.getLsbD 0 = false
        ∧ s.stackBad th.id (s.tframe th - s.img.stkBase).toNat 128 = false))
    (r : ∀ a n, th.region ≠ .opened a n) : s.TrapsPrecisely th := ⟨⟨u, f, h.1⟩, h.2.1, h.2.2, r⟩
theorem witness_decode_reads_back_encode_0 : ∃ i : Instr, i.wf = true ∧ i.legal = true ∧ i.isStep = false :=
  ⟨.bra96 (tDe 64 .zero .zero .zero .zero), by decide +kernel⟩

theorem witness_reserved_opcodes_raise_illegal_0 : ∃ (w0 : Word), ∃ (rest : List Word), reservedOp (w0.extractLsb' 2 8) = true ∧
    rest.length + 1 = lengthWords w0 :=
  ⟨0x3FC, [], by decide +kernel⟩

theorem witness_step_runs_decoded_instruction_0 : ∃ (s s1 : State), ∃ (dt : Nat), ∃ (ids : List Nat), ∃ (arg : StepArgs),
    ∃ (rest : List (Nat × Act)), ∃ (t : Nat), ∃ (th : Thread), ∃ (i : Instr), s.power ≠ .off ∧ s.booted = true ∧
    s.agenda = (dt, .issue ids arg) :: rest ∧
    let s0 : State := State.pass { s with agenda := rest } dt; let cand := s0.candidates th; ids.head? = some t ∧
    s0.thread? t = some th ∧ State.fetchTeam { s0 with arg := arg } cand = (s1, [(cand, .ok i)]) ∧
    (cand.filter (s0.readyFor i)).map (·.id) = ids ∧ ((ids.length = cand.length ∨ (s0.keySince th.key).isSome = true)) ∧
    s0.mayGo th ((s0.keySince th.key).getD s0.cycle) = true ∧ s0.quadFree th = true :=
  ⟨tNext, _, 0, [3], {}, [], 3, tThread, .nop ⟨false, .zero, .zero, .zero⟩, by decide +kernel, by decide +kernel, by decide +kernel,
    by decide +kernel, rfl, pair_of_snd (by decide +kernel), by decide +kernel⟩

theorem witness_fetch_reads_memory_at_pc_0 : ∃ (s s1 : State), ∃ (th : Thread), ∃ (fresh lv pa cache : Nat), ∃ (va e : Dword),
    ∃ (ws : List Word), th.unit = .device ∧ s.windowed va = false ∧ canonical (s.spaceOf th) va = true ∧
    s.translate (s.spaceOf th) va .fetch th.sup = (s1, .ok e lv) ∧ s1.physPlace e (leafPa e lv va) 4 false false = .dram pa cache ∧
    (∀ l ∈ linesOf pa 4, s1.badLine l = false) ∧ pa + 4 ≤ dramEnd ∧ pa = leafPa e lv va ∧
    (∀ w ∈ s1.code.take (s1.code.length - fresh), ¬(pa ≤ w.pa ∧ w.pa < pa + 4)) :=
  ⟨tNext, _, tThread, 0, 3, 0x3040, 0, 0x3040, 0x7F, [], by decide +kernel, by decide +kernel, by decide +kernel,
    pair_of_snd (by decide +kernel), by decide +kernel⟩

theorem witness_power_and_start_up_0 : ∃ s : State, s.power = .off ∧
    (∀ dt arg rest, s.agenda ≠ (dt, .event .powerStateRequest arg) :: rest) :=
  ⟨{ State.reset with power := .off }, by decide +kernel, by intro _ _ _ h; cases h⟩

theorem witness_power_and_start_up_1 : ∃ s : State, s.power ≠ .off ∧ s.booted = false :=
  ⟨State.reset, by decide +kernel⟩

theorem witness_stored_bytes_read_back_0 : ∃ (m : Memory), ∃ (a b : Nat), ∃ (bs : List Byte), m.wf = true :=
  ⟨[(5, 1)], 0, 0, [1], by decide +kernel⟩

theorem witness_step_keeps_memory_canonical_0 : ∃ s t : State, s.MemoryOk ∧ step s = .next t :=
  ⟨State.reset, _, by unfold State.MemoryOk; decide, rfl⟩

theorem witness_integers_wrap_or_clamp_0 : ∃ (ty : Ty), ∃ (e : Int), ty ∈ [Ty.b32, .i32, .n32, .b64, .i64, .n64, .i8, .n8, .i4] :=
  ⟨.i8, 300, by decide +kernel⟩

theorem witness_bitwise_results_0 : ∃ (x : Arith), ∃ (a b c i : Nat), i < x.ty.width :=
  ⟨tAr .b32 0 0 .zero .zero .zero .zero, 1, 2, 3, 31, by decide +kernel⟩

theorem witness_shift_and_field_results_0 : ∃ (x : Arith), ∃ (a n i : Nat), i < x.ty.width ∧ a < 2 ^ x.ty.width :=
  ⟨tAr .b32 0 0 .zero .zero .zero .zero, 5, 32, 0, by decide +kernel⟩

theorem witness_shift_and_field_results_1 : ∃ (x : Arith), ∃ (a b c i : Nat), i < x.ty.width ∧ a < 2 ^ x.ty.width ∧ c < 2 ^ x.ty.width :=
  ⟨tAr .b32 0 0 .zero .zero .zero .zero, 5, 0x0808, 3, 31, by decide +kernel⟩

theorem witness_moves_selections_and_predicates_0 : ∃ x s th, Alone (.pmov x) s th :=
  ⟨(tAr .b32 0x0 0 (.v 16) .zero .zero .zero), tState tThread, tThread, alone_of_check rfl rfl (by decide +kernel)⟩

theorem witness_emulable_instructions_raise_unimpl_0 : ∃ x : Arith, x.ty = .f64 :=
  ⟨tAr .f64 0 0 .zero .zero .zero .zero, by decide +kernel⟩

theorem witness_float_arithmetic_results_0 : ∃ x : Arith, x.ty ≠ .f64 :=
  ⟨tAr .f32 0 0 .zero .zero .zero .zero, by decide +kernel⟩

theorem witness_float_arithmetic_results_1 : ∃ x : Arith, x.ty ≠ .f64 :=
  ⟨tAr .f32 0 0 .zero .zero .zero .zero, by decide +kernel⟩

theorem witness_float_arithmetic_results_2 : ∃ (ty : Ty), ∃ (r : Rnd), ∃ (a b m1 m2 : Nat), ∃ (n1 n2 : Bool),
    ∃ (e1 e2 : Int), decodeF ty a = .fin n1 m1 e1 ∧ decodeF ty b = .fin n2 m2 e2 ∧
    let s (n : Bool) (m : Nat) (k e : Int) : Int := (if n then -1 else 1) * ((m * 2 ^ (k - e).toNat : Nat) : Int); ∃ (c m3 : Nat),
    ∃ (n3 : Bool), ∃ (e3 : Int), decodeF ty c = .fin n3 m3 e3 :=
  ⟨.f32, .rne, 0x3F800000, 0x3F800000, 8388608, 8388608, false, false, -23, -23, by decide +kernel, by decide +kernel,
    0x3F800000, 8388608, false, -23, by decide +kernel⟩

theorem witness_float_arithmetic_results_3 : ∃ (ty : Ty), ∃ (r : Rnd), ∃ (a b m1 m2 : Nat), ∃ (n1 n2 : Bool),
    ∃ (e1 e2 : Int), decodeF ty a = .fin n1 m1 e1 ∧ decodeF ty b = .fin n2 m2 e2 ∧
    let s (n : Bool) (m : Nat) (k e : Int) : Int := (if n then -1 else 1) * ((m * 2 ^ (k - e).toNat : Nat) : Int); m1 ≠ 0 ∧ m2 ≠ 0 :=
  ⟨.f32, .rne, 0x3F800000, 0x3F800000, 8388608, 8388608, false, false, -23, -23, by decide +kernel, by decide +kernel, by decide +kernel⟩

theorem witness_float_arithmetic_results_4 : ∃ (ty : Ty), ∃ (r : Rnd), ∃ (a b m1 m2 : Nat), ∃ (n1 n2 : Bool),
    ∃ (e1 e2 : Int), decodeF ty a = .fin n1 m1 e1 ∧ decodeF ty b = .fin n2 m2 e2 ∧
    let s (n : Bool) (m : Nat) (k e : Int) : Int := (if n then -1 else 1) * ((m * 2 ^ (k - e).toNat : Nat) : Int); n1 = false ∧ m1 ≠ 0 :=
  ⟨.f32, .rne, 0x3F800000, 0x3F800000, 8388608, 8388608, false, false, -23, -23, by decide +kernel, by decide +kernel, by decide +kernel⟩

theorem witness_float_arithmetic_results_5 : ∃ (ty : Ty), ∃ (r : Rnd), ∃ (sat n : Bool), ∃ (a m : Nat),
    ∃ (e : Int), ty ∈ [Ty.f32, .f64, .f16, .bf16] ∧ a < 2 ^ ty.width ∧ decodeF ty a = .fin n m e :=
  ⟨.f32, .rne, false, false, 0x3F800000, 8388608, -23, by decide +kernel⟩

theorem witness_special_function_results_0 : ∃ (a m : Nat), ∃ (n : Bool), ∃ (e : Int), decodeF .f32 a = .fin n m e ∧ m ≠ 0 :=
  ⟨0x3F800000, 8388608, false, -23, by decide +kernel⟩

theorem witness_special_function_results_1 : ∃ (a m : Nat), ∃ (e : Int), decodeF .f32 a = .fin false m e ∧ m ≠ 0 :=
  ⟨0x3F800000, 8388608, -23, by decide +kernel⟩

theorem witness_special_function_results_2 : ∃ i : Int, -149 ≤ i ∧ i < 128 :=
  ⟨0, by decide +kernel⟩

theorem witness_pair_executes_both_halves_0 : ∃ (x : Pair), ∃ (s : State), ∃ (th : Thread), Alone (.pair x) s th :=
  ⟨⟨⟨.f32, 7, .zero, .v 12, .v 8, .v 16, 0x01⟩, ⟨.b32, 7, .zero, .v 12, .v 8, .v 17, 0x44⟩, none⟩, tState tThread, tThread, alone_of_check rfl rfl (by decide +kernel)⟩

theorem witness_result_reaches_one_thread_0 : ∃ (s : State), ∃ (o : Out), ∃ (th : Thread), s.thread? th.id = some th ∧ o.w = 32 ∧
    let t := s.put th.id o; let low : Word := BitVec.ofNat 32 o.val; ∃ u, u ≠ th.id :=
  ⟨tState tThread, { d := .v 8, w := 32, val := 5 }, tThread, rfl, by decide +kernel, 4, by decide +kernel⟩

theorem witness_result_reaches_one_thread_1 : ∃ (s : State), ∃ (o : Out), ∃ (th : Thread), s.thread? th.id = some th ∧ o.w = 32 ∧
    let t := s.put th.id o; let low : Word := BitVec.ofNat 32 o.val; (∀ n, o.d ≠ .k n) :=
  ⟨tState tThread, { d := .v 8, w := 32, val := 5 }, tThread, rfl, by decide +kernel, by intro n h; cases h⟩

theorem witness_result_reaches_one_thread_2 : ∃ (s : State), ∃ (o : Out), ∃ (th : Thread), s.thread? th.id = some th ∧ o.w = 32 ∧
    let t := s.put th.id o; let low : Word := BitVec.ofNat 32 o.val; ∃ n g, o.d = .k n ∧ s.group? th.group = some g :=
  ⟨tState tThread, { d := .k 9, w := 32, val := 5 }, tThread, rfl, by decide +kernel, 9, tGroup, by decide +kernel, rfl⟩

theorem witness_nop_only_advances_0 : ∃ x, ∃ s th, Alone (.nop x) s th :=
  ⟨(tC3 false .zero .zero .zero), tState (tFor (.nop ((tC3 false .zero .zero .zero)))), tFor (.nop ((tC3 false .zero .zero .zero))), alone_of_check rfl rfl (by decide +kernel)⟩

theorem witness_nop_only_advances_1 : ∃ x, ∃ s th, Alone (.nop96 x) s th :=
  ⟨(tAr .b32 0x0 0 .zero .zero .zero .zero), tState (tFor (.nop96 ((tAr .b32 0x0 0 .zero .zero .zero .zero)))), tFor (.nop96 ((tAr .b32 0x0 0 .zero .zero .zero .zero))), alone_of_check rfl rfl (by decide +kernel)⟩

theorem witness_nop_only_advances_2 : ∃ (s : State), ∃ (i : Instr), ∃ (th : Thread), th.unit ≠ .intersection ∧ s.far = [] ∧
    th.relAt = none :=
  ⟨tState tThread, .nop ((tC3 false .zero .zero .zero)), tThread, by decide +kernel⟩

theorem witness_wait_and_exit_0 : ∃ x : Desc, ∃ s th, Alone (.wait x) s th ∧ (th.cnt.loads ≤ (x.fld 0 6).toNat ∧
    th.cnt.stores ≤ (x.fld 8 6).toNat ∧ th.cnt.copies ≤ (x.fld 16 6).toNat ∧ th.cnt.tiles ≤ (x.fld 24 6).toNat) :=
  ⟨(tDe 0x1020304 .zero .zero .zero .zero), tState (tFor (.wait ((tDe 0x1020304 .zero .zero .zero .zero)))), tFor (.wait ((tDe 0x1020304 .zero .zero .zero .zero))), alone_of_check rfl rfl (by decide +kernel), by decide +kernel⟩

theorem witness_wait_and_exit_1 : ∃ x : Desc, ∃ s th, Alone (.wait x) s th ∧
    ((x.fld 0 6).toNat < th.cnt.loads ∨ (x.fld 8 6).toNat < th.cnt.stores ∨ (x.fld 16 6).toNat < th.cnt.copies ∨ (x.fld 24 6).toNat < th.cnt.tiles) :=
  ⟨(tDe 0x1020304 .zero .zero .zero .zero), tState { tThread with cnt := { loads := 5 } }, { tThread with cnt := { loads := 5 } }, alone_of_check rfl rfl (by decide +kernel), by decide +kernel⟩

theorem witness_wait_and_exit_2 : ∃ (x : C3), ∃ (s : State), ∃ (th : Thread), Alone (.exit x) s th ∧ th.cnt.loads = 0 ∧
    th.cnt.stores = 0 ∧ s.released th 1 0 = true :=
  ⟨(tC3 false .zero .zero .zero), tState tThread, tThread, alone_of_check rfl rfl (by decide +kernel), by decide +kernel⟩

theorem witness_wait_and_exit_3 : ∃ (x : Arith), ∃ (s : State), ∃ (th : Thread), Alone (.exit96 x) s th ∧ th.cnt.loads = 0 ∧
    th.cnt.stores = 0 ∧ s.released th 1 0 = true :=
  ⟨(tAr .b32 0x0 0 .zero .zero .zero .zero), tState tThread, tThread, alone_of_check rfl rfl (by decide +kernel), by decide +kernel⟩

theorem witness_wait_and_exit_4 : ∃ x : C3, ∃ s th, Alone (.exit x) s th ∧
    (th.cnt.loads ≠ 0 ∨ th.cnt.stores ≠ 0 ∨ s.released th 1 0 = false) :=
  ⟨(tC3 false .zero .zero .zero), tState { tThread with cnt := { loads := 1 } }, { tThread with cnt := { loads := 1 } }, alone_of_check rfl rfl (by decide +kernel), by decide +kernel⟩

theorem witness_wait_and_exit_5 : ∃ x : Arith, ∃ s th, Alone (.exit96 x) s th ∧
    (th.cnt.loads ≠ 0 ∨ th.cnt.stores ≠ 0 ∨ s.released th 1 0 = false) :=
  ⟨(tAr .b32 0x0 0 .zero .zero .zero .zero), tState { tThread with cnt := { loads := 1 } }, { tThread with cnt := { loads := 1 } }, alone_of_check rfl rfl (by decide +kernel), by decide +kernel⟩

theorem witness_wait_and_exit_6 : ∃ (s : State), ∃ (th : Thread), s.thread? s.arg.t = some th ∧ th.hold = .exit_ ∧ th.cnt.loads = 0 ∧
    th.cnt.stores = 0 ∧ th.pend = [] ∧ s.released th 1 0 = true :=
  ⟨tAt { tThread with hold := .exit_ }, { tThread with hold := .exit_ }, rfl, by decide +kernel⟩

theorem witness_wait_and_exit_7 : ∃ (s : State), ∃ (th : Thread), s.thread? th.id = some th ∧
    ((th.unit = .device → (∃ x ∈ s.live th.group, x.id ≠ th.id) ∧ ∀ x ∈ s.live th.group, x.id ≠ th.id → holdSet x = none ∧
    x.halted = none)) :=
  ⟨{ tState tThread with threads := [tThread, { tThread with id := 4 }] }, tThread, rfl, by decide +kernel⟩

theorem witness_break_and_service_calls_0 : ∃ x s th, Alone (.brk x) s th :=
  ⟨(tAr .b32 0x7 0 .zero .zero .zero .zero), tState tThread, tThread, alone_of_check rfl rfl (by decide +kernel)⟩

theorem witness_break_and_service_calls_1 : ∃ x s th, Alone (.svc x) s th ∧ th.unit = .device ∧ x.imm.getLsbD 7 = true :=
  ⟨⟨0x80, .zero, .zero⟩, tState tThread, tThread, alone_of_check rfl rfl (by decide +kernel), by decide +kernel⟩

theorem witness_break_and_service_calls_2 : ∃ x s th, Alone (.svc96 x) s th ∧ th.unit = .device ∧ (x.fld 16 8).getLsbD 7 = true :=
  ⟨tAr .b32 0x80 0 .zero .zero .zero .zero, tState tThread, tThread, alone_of_check rfl rfl (by decide +kernel), by decide +kernel⟩

theorem witness_break_and_service_calls_3 : ∃ x s th l, Alone (.svc x) s th ∧ th.unit = .device ∧ x.imm.getLsbD 7 = false ∧
    s.released th 6 0 = true ∧ s.launchOf th = some l ∧ l.queue < s.queues.length :=
  ⟨⟨5, .zero, .zero⟩, tState tThread, tThread, tLaunch, alone_of_check rfl rfl (by decide +kernel), by decide +kernel,
    by decide +kernel, by decide +kernel, rfl, by decide +kernel⟩

theorem witness_break_and_service_calls_4 : ∃ x s th l, Alone (.svc96 x) s th ∧ th.unit = .device ∧ (x.fld 16 8).getLsbD 7 = false ∧
    s.released th 6 0 = true ∧ s.launchOf th = some l ∧ l.queue < s.queues.length :=
  ⟨tAr .b32 5 0 .zero .zero .zero .zero, tState tThread, tThread, tLaunch, alone_of_check rfl rfl (by decide +kernel),
    by decide +kernel, by decide +kernel, by decide +kernel, rfl, by decide +kernel⟩

theorem witness_trap_enters_the_handler_0 : ∃ (s : State), ∃ (th : Thread), ∃ (tr : Trap), s.thread? th.id = some th ∧
    th.unit = .device ∧ (∀ a n, th.region ≠ .opened a n) ∧ th.tstate.getLsbD 0 = false ∧ s.tframe th ≠ 0 ∧
    s.stackBad th.id (s.tframe th - s.img.stkBase).toNat 128 = false ∧
    let vec := if tr.cause = .svc then s.img.kvec else s.tvec th; vec ≠ 0 ∧ let t := s.trap th.id tr; ∃ u, u ≠ th.id :=
  ⟨tState tThread, tThread, { cause := .svc, pc := 0x3040 }, rfl, by decide +kernel, (by intro _ _ h; cases h), by decide +kernel,
    by decide +kernel, by decide +kernel, by decide +kernel, 4, by decide +kernel⟩

theorem witness_trap_enters_the_handler_1 : ∃ (th : Thread), ∃ (tr : Trap), let fr := th.frame tr; ∃ i : Nat, i < 5 :=
  ⟨tThread, { cause := .svc, pc := 0x3040, words := [5] }, 4, by decide +kernel⟩

theorem witness_trap_enters_the_handler_2 : ∃ (th : Thread), ∃ (tr : Trap), let fr := th.frame tr; ∃ i : Nat, i < 8 :=
  ⟨tThread, { cause := .svc, pc := 0x3040 }, 7, by decide +kernel⟩

theorem witness_trap_without_handler_halts_0 : ∃ (s : State), ∃ (th : Thread), ∃ (tr : Trap), s.thread? th.id = some th ∧
    th.unit ≠ .intersection ∧ (∀ a n, th.region ≠ .opened a n) ∧ th.tstate.getLsbD 0 = true :=
  ⟨tState { tThread with tstate := 1 }, { tThread with tstate := 1 }, { cause := .svc, pc := 0x3040 }, rfl, by decide +kernel,
    (by intro _ _ h; cases h), by decide +kernel⟩

theorem witness_trap_without_handler_halts_1 : ∃ (s : State), ∃ (th : Thread), ∃ (tr : Trap), s.thread? th.id = some th ∧
    th.unit ≠ .intersection ∧ (∀ a n, th.region ≠ .opened a n) ∧ th.tstate.getLsbD 0 = false ∧
    (((if tr.cause = .svc then s.img.kvec else s.tvec th) = 0 ∨ s.tframe th = 0)) :=
  ⟨{ tState tThread with groups := [{ tGroup with tvec := 0 }] }, tThread, { cause := .range, pc := 0x3040 }, rfl, by decide +kernel,
    (by intro _ _ h; cases h), by decide +kernel⟩

theorem witness_trap_without_handler_halts_2 : ∃ (s : State), ∃ (th : Thread), ∃ (tr : Trap),
    ∃ (nested : Bool), s.thread? th.id = some th ∧
    let s1 := s.modThread th.id fun x => { x with halted := some tr, nested := nested, haltAt := s.cycle, pend := [] }; th.unit = .device ∧ s1.settled th.group = false :=
  ⟨{ tState tThread with threads := [tThread, { tThread with id := 4 }] }, tThread, { cause := .range, pc := 0x3040 }, false, rfl,
    by decide +kernel⟩

theorem witness_trap_without_handler_halts_3 : ∃ (s : State), ∃ (th : Thread), ∃ (tr : Trap),
    ∃ (nested : Bool), s.thread? th.id = some th ∧
    let s1 := s.modThread th.id fun x => { x with halted := some tr, nested := nested, haltAt := s.cycle, pend := [] }; th.unit = .service :=
  ⟨tState { tThread with unit := .service, sup := true, alloc := 256 }, { tThread with unit := .service, sup := true, alloc := 256 }, { cause := .svc, pc := 0x3040 }, false, rfl, by decide +kernel⟩

theorem witness_trap_without_handler_halts_4 : ∃ (s : State), ∃ (th : Thread), ∃ (tr : Trap), s.thread? th.id = some th ∧
    th.unit = .intersection ∧ (∀ a n, th.region ≠ .opened a n) :=
  ⟨tProgState tProgram, tProgram, { cause := .range, pc := 0x3040 }, rfl, by decide +kernel, (by intro _ _ h; cases h)⟩

theorem witness_trap_without_handler_halts_5 : ∃ (s : State), ∃ (r : Ray), ∃ (th : Thread), ∃ (tr : Trap), r.prog = some th.id ∧
    s.thread? th.id = some th ∧ th.halted = some tr :=
  ⟨tProgState { tProgram with halted := some { cause := .range, pc := 0x3040 } }, { tRay with cand := some tCandidate, prog := some 3 }, { tProgram with halted := some { cause := .range, pc := 0x3040 } }, { cause := .range, pc := 0x3040 }, by decide +kernel, rfl, by decide +kernel⟩

theorem witness_trap_without_handler_halts_6 : ∃ (x : RayRun), ∃ (cluster reason : Nat), ∃ (c : Cand), ∃ (a : Dword),
    ∃ (vs : List Verdict), x.verdicts = .fault reason a :: vs :=
  ⟨{ rd := { s := tState tThread, owner := .module, launch := tLaunch, past := [], seen := [], left := none }, id := 10, ray := [], tc := 0, verdicts := [.fault 1 0x5000] }, 0, 1, tCandidate, 0x5000, [], by decide +kernel⟩

theorem witness_return_from_trap_restores_0 : ∃ (x : Desc), ∃ (s : State), ∃ (th : Thread), Alone (.rte x) s th ∧
    th.tstate.getLsbD 0 = false :=
  ⟨(tDe 0x1 .zero .zero .zero .zero), tState tThread, tThread, alone_of_check rfl rfl (by decide +kernel), by decide +kernel⟩

theorem witness_return_from_trap_restores_1 : ∃ (x : Desc), ∃ (s : State), ∃ (th : Thread), Alone (.rte x) s th ∧
    th.tstate.getLsbD 0 = true ∧ th.unit = .device ∧ th.busy (List.range 8) = false ∧ th.flagsDue = false ∧ th.writing = false ∧
    let base := (s.tframe th - s.img.stkBase).toNat; s.stackBad th.id base 128 = false ∧
    let fr := stackLoad th.id th.stk base 128; let s1 := (s.readStack th base 128).1; let target := if x.w2.getLsbD 0 && !(field fr 1 1).testBit 0 then dword fr 0x18 + BitVec.ofNat 64 (4 * lengthWords (word fr 0x28)) else dword fr 0x18; frameOk fr = false :=
  ⟨(tDe 0x1 .zero .zero .zero .zero), tState (tFramed (List.replicate 128 1)), tFramed (List.replicate 128 1), alone_of_check rfl rfl (by decide +kernel), by decide +kernel, by decide +kernel, by decide +kernel, by decide +kernel, by decide +kernel, by decide +kernel, by decide +kernel⟩

theorem witness_return_from_trap_restores_2 : ∃ (x : Desc), ∃ (s : State), ∃ (th : Thread), Alone (.rte x) s th ∧
    th.tstate.getLsbD 0 = true ∧ th.unit = .device ∧ th.busy (List.range 8) = false ∧ th.flagsDue = false ∧ th.writing = false ∧
    let base := (s.tframe th - s.img.stkBase).toNat; s.stackBad th.id base 128 = false ∧
    let fr := stackLoad th.id th.stk base 128; let s1 := (s.readStack th base 128).1; let target := if x.w2.getLsbD 0 && !(field fr 1 1).testBit 0 then dword fr 0x18 + BitVec.ofNat 64 (4 * lengthWords (word fr 0x28)) else dword fr 0x18; ∃ c, frameOk fr = true ∧ s.targetTrap th target = some c :=
  ⟨(tDe 0x1 .zero .zero .zero .zero), tState (tFramed (tFrame 0x3041)), tFramed (tFrame 0x3041), alone_of_check rfl rfl (by decide +kernel), both (by decide +kernel) <| both (by decide +kernel) <| both (by decide +kernel) <| ⟨.misalign, by decide +kernel⟩⟩

theorem witness_return_from_trap_restores_3 : ∃ (x : Desc), ∃ (s : State), ∃ (th : Thread), Alone (.rte x) s th ∧
    th.tstate.getLsbD 0 = true ∧ th.unit = .device ∧ th.busy (List.range 8) = false ∧ th.flagsDue = false ∧ th.writing = false ∧
    let base := (s.tframe th - s.img.stkBase).toNat; s.stackBad th.id base 128 = false ∧
    let fr := stackLoad th.id th.stk base 128; let s1 := (s.readStack th base 128).1; let target := if x.w2.getLsbD 0 && !(field fr 1 1).testBit 0 then dword fr 0x18 + BitVec.ofNat 64 (4 * lengthWords (word fr 0x28)) else dword fr 0x18; frameOk fr = true ∧ s.targetTrap th target = none :=
  ⟨(tDe 0x1 .zero .zero .zero .zero), tState (tFramed (tFrame 0x3080)), tFramed (tFrame 0x3080), alone_of_check rfl rfl (by decide +kernel), by decide +kernel, by decide +kernel, by decide +kernel, by decide +kernel, by decide +kernel, by decide +kernel, by decide +kernel⟩

theorem witness_indexed_operand_access_0 : ∃ (x : Desc), ∃ (o : Opnd), ∃ (w : Nat), ∃ s th, Alone (.movix x) s th ∧
    (x.w2.getLsbD 0 = false ∧ indexOperand (s.a32 th x) = some (o, w) ∧ indexRange o w th.alloc (s.uniforms th) = false ∧
    isLit o = false ∧ th.stalled [.src o w] = false) :=
  ⟨tDe 0 (.v 16) (.v 8) .zero .zero, .v 0, 32, tState (tFor (.movix (tDe 0 (.v 16) (.v 8) .zero .zero))), tFor (.movix (tDe 0 (.v 16) (.v 8) .zero .zero)), alone_of_check rfl rfl (by decide +kernel), by decide +kernel⟩

theorem witness_indexed_operand_access_1 : ∃ (x : Desc), ∃ (o : Opnd), ∃ (w off : Nat), ∃ s th, Alone (.movix x) s th ∧
    (x.w2.getLsbD 0 = true ∧ th.unit = .device ∧ th.tstate.getLsbD 0 = true ∧ indexOperand (s.a32 th x) = some (o, w) ∧
    indexRange o w th.alloc (s.uniforms th) = false ∧ isLit o = false ∧ frameAt o = some off ∧ th.writing = false ∧
    s.stackBad th.id ((s.tframe th - s.img.stkBase).toNat + off) (w / 8) = false) :=
  ⟨tDe 1 (.v 16) (.v 8) .zero .zero, .v 0, 32, 0x50, tState { tThread with tstate := 1 }, { tThread with tstate := 1 }, alone_of_check rfl rfl (by decide +kernel), by decide +kernel⟩

theorem witness_indexed_operand_access_2 : ∃ (x : Desc), ∃ (o : Opnd), ∃ (w : Nat), ∃ s th, Alone (.setix x) s th ∧
    (x.w2.getLsbD 0 = false ∧ indexOperand (s.a32 th x) = some (o, w) ∧ indexRange o w th.alloc (s.uniforms th) = false ∧
    isLit o = false ∧ (∀ b, o ≠ .imm b) ∧ o ≠ .y0 ∧ o ≠ .y1 ∧ th.stalled [.dst o w] = false) :=
  ⟨tDe 0 .zero (.v 8) (.v 10) .zero, .v 0, 32, tState (tFor (.setix (tDe 0 .zero (.v 8) (.v 10) .zero))), tFor (.setix (tDe 0 .zero (.v 8) (.v 10) .zero)), alone_of_check rfl rfl (by decide +kernel), by refine ⟨by decide +kernel, by decide +kernel, by decide +kernel, by decide +kernel, (by intro b h; cases h), by decide, by decide, by decide +kernel⟩⟩

theorem witness_indexed_operand_access_3 : ∃ (x : Desc), ∃ (o : Opnd), ∃ (w off : Nat), ∃ s th, Alone (.setix x) s th ∧
    (x.w2.getLsbD 0 = true ∧ th.unit = .device ∧ th.tstate.getLsbD 0 = true ∧ indexOperand (s.a32 th x) = some (o, w) ∧
    indexRange o w th.alloc (s.uniforms th) = false ∧ frameAt o = some off ∧
    s.stackDead th.id ((s.tframe th - s.img.stkBase).toNat + off) (if off < 0x70 then w / 8 else 8) = false) :=
  ⟨tDe 1 .zero (.v 8) (.v 10) .zero, .v 0, 32, 0x50, tState { tThread with tstate := 1 }, { tThread with tstate := 1 }, alone_of_check rfl rfl (by decide +kernel), by decide +kernel⟩

theorem witness_indexed_operand_access_4 : ∃ (s : State), ∃ (th : Thread), ∃ (o : Nat), ∃ (bs : List Byte), s.thread? th.id = some th :=
  ⟨tState tThread, tThread, 64, [1], rfl⟩

theorem witness_indexed_operand_access_5 : ∃ (x : Desc), ∃ (s : State), ∃ (th : Thread), Alone (.movix x) s th ∧
    x.w2.getLsbD 0 = false ∧ indexOperand (s.a32 th x) = none :=
  ⟨tDe 0 (.v 16) (.v 8) .zero .zero, tState (tPut 8 0x800 tThread), tPut 8 0x800 tThread, alone_of_check rfl rfl (by decide +kernel),
    by decide +kernel⟩

theorem witness_indexed_operand_access_6 : ∃ (x : Desc), ∃ (s : State), ∃ (th : Thread), Alone (.setix x) s th ∧
    indexOperand (s.a32 th x) = none :=
  ⟨tDe 0 .zero (.v 8) (.v 10) .zero, tState (tPut 8 0x800 tThread), tPut 8 0x800 tThread, alone_of_check rfl rfl (by decide +kernel),
    by decide +kernel⟩

theorem witness_indexed_operand_access_7 : ∃ (x : Desc), ∃ (o : Opnd), ∃ (w : Nat), ∃ s th, Alone (.movix x) s th ∧
    (x.w2.getLsbD 0 = true ∧ th.tstate.getLsbD 0 = true ∧ indexOperand (s.a32 th x) = some (o, w) ∧
    indexRange o w th.alloc (s.uniforms th) = false ∧ isLit o = false ∧ frameAt o = none ∧ th.stalled [.src o w] = false) :=
  ⟨tDe 1 (.v 16) (.v 8) .zero .zero, .v 16, 32, tState (tPut 8 16 { tThread with tstate := 1 }), (tPut 8 16 { tThread with tstate := 1 }), alone_of_check rfl rfl (by decide +kernel), by decide +kernel⟩

theorem witness_indexed_operand_access_8 : ∃ (x : Desc), ∃ (o : Opnd), ∃ (w : Nat), ∃ (s : State),
    ∃ (th : Thread), Alone (.movix x) s th ∧ x.w2.getLsbD 0 = true ∧ th.unit = .device ∧ th.tstate.getLsbD 0 = true ∧
    indexOperand (s.a32 th x) = some (o, w) ∧ isLit o = true ∧ th.writing = false ∧
    let at_ := (s.tframe th - s.img.stkBase).toNat + 0x28; s.stackBad th.id at_ 20 = false ∧
    let s1 := (s.readStack th at_ 20).1; ∃ l, frameLit (stackLoad th.id th.stk at_ 20) = some l :=
  ⟨tDe 1 (.v 16) (.v 8) .zero .zero, .litLo, 32, tState (tPut 8 0x210 (tFramed (List.replicate 40 0 ++ toBytes 4 3 ++ List.replicate 16 0 ++ List.replicate 68 0))), (tPut 8 0x210 (tFramed (List.replicate 40 0 ++ toBytes 4 3 ++ List.replicate 16 0 ++ List.replicate 68 0))), alone_of_check rfl rfl (by decide +kernel), both (by decide +kernel) <| both (by decide +kernel) <| both (by decide +kernel) <| ⟨by decide +kernel, 0, by decide +kernel⟩⟩

theorem witness_indexed_operand_access_9 : ∃ (x : Desc), ∃ (o : Opnd), ∃ (w : Nat), ∃ (s : State),
    ∃ (th : Thread), Alone (.movix x) s th ∧ x.w2.getLsbD 0 = true ∧ th.unit = .device ∧ th.tstate.getLsbD 0 = true ∧
    indexOperand (s.a32 th x) = some (o, w) ∧ isLit o = true ∧ th.writing = false ∧
    let at_ := (s.tframe th - s.img.stkBase).toNat + 0x28; s.stackBad th.id at_ 20 = false ∧
    let s1 := (s.readStack th at_ 20).1; frameLit (stackLoad th.id th.stk at_ 20) = none :=
  ⟨tDe 1 (.v 16) (.v 8) .zero .zero, .litLo, 32, tState (tPut 8 0x210 (tFramed (List.replicate 40 0 ++ List.replicate 20 0 ++ List.replicate 68 0))), (tPut 8 0x210 (tFramed (List.replicate 40 0 ++ List.replicate 20 0 ++ List.replicate 68 0))), alone_of_check rfl rfl (by decide +kernel), by decide +kernel, by decide +kernel, by decide +kernel, by decide +kernel, by decide +kernel, by decide +kernel, by decide +kernel, by decide +kernel⟩

theorem witness_indexed_operand_access_10 : ∃ (x : Desc), ∃ (o : Opnd), ∃ (w : Nat), ∃ (s : State),
    ∃ (th : Thread), Alone (.movix x) s th ∧ x.w2.getLsbD 0 = false ∧ indexOperand (s.a32 th x) = some (o, w) ∧ isLit o = true :=
  ⟨tDe 0 (.v 16) (.v 8) .zero .zero, .litLo, 32, tState (tPut 8 0x210 tThread), (tPut 8 0x210 tThread), alone_of_check rfl rfl (by decide +kernel), by decide +kernel⟩

theorem witness_indexed_operand_access_11 : ∃ (x : Desc), ∃ (o : Opnd), ∃ (w : Nat), ∃ s th, Alone (.setix x) s th ∧
    (x.w2.getLsbD 0 = true ∧ th.tstate.getLsbD 0 = true ∧ indexOperand (s.a32 th x) = some (o, w) ∧
    indexRange o w th.alloc (s.uniforms th) = false ∧ isLit o = false ∧ (∀ b, o ≠ .imm b) ∧ frameAt o = none ∧
    th.stalled [.dst o w] = false) :=
  ⟨tDe 1 .zero (.v 8) (.v 10) .zero, .v 16, 32, tState (tPut 8 16 { tThread with tstate := 1 }), (tPut 8 16 { tThread with tstate := 1 }), alone_of_check rfl rfl (by decide +kernel), ⟨by decide +kernel, by decide +kernel, by decide +kernel, by decide +kernel, by decide +kernel, (by intro b h; cases h), by decide, by decide +kernel⟩⟩

theorem witness_indexed_operand_access_12 : ∃ (x : Desc), ∃ (o : Opnd), ∃ (w : Nat), ∃ (s : State),
    ∃ (th : Thread), Alone (.setix x) s th ∧ indexOperand (s.a32 th x) = some (o, w) ∧
    ((isLit o = true ∨ (∃ b, o = .imm b) ∨ (x.w2.getLsbD 0 = false ∧ (o = .y0 ∨ o = .y1)))) :=
  ⟨tDe 0 .zero (.v 8) (.v 10) .zero, .litLo, 32, tState (tPut 8 0x210 tThread), (tPut 8 0x210 tThread), alone_of_check rfl rfl (by decide +kernel), by decide +kernel, .inl rfl⟩

theorem witness_indexed_operand_access_13 : ∃ (x : Desc), ∃ (s : State), ∃ (th : Thread), Alone (.movix x) s th ∧
    x.w2.getLsbD 0 = true ∧ th.tstate.getLsbD 0 = false :=
  ⟨tDe 1 (.v 16) (.v 8) .zero .zero, tState tThread, tThread, alone_of_check rfl rfl (by decide +kernel), by decide +kernel⟩

theorem witness_indexed_operand_access_14 : ∃ (x : Desc), ∃ (s : State), ∃ (th : Thread), Alone (.setix x) s th ∧
    x.w2.getLsbD 0 = true ∧ th.tstate.getLsbD 0 = false :=
  ⟨tDe 1 .zero (.v 8) (.v 10) .zero, tState tThread, tThread, alone_of_check rfl rfl (by decide +kernel), by decide +kernel⟩

theorem witness_system_register_access_0 : ∃ x : Desc, ∃ s th, Alone (.movs x) s th ∧ (s.sysRange th x (s.b32 th x).toNat = false) :=
  ⟨(tDe 0x20 (.v 16) .zero .zero .zero), tState (tFor (.movs ((tDe 0x20 (.v 16) .zero .zero .zero)))), tFor (.movs ((tDe 0x20 (.v 16) .zero .zero .zero))), alone_of_check rfl rfl (by decide +kernel), by decide +kernel⟩

theorem witness_system_register_access_1 : ∃ x : Desc, ∃ s th, Alone (.sets x) s th ∧ (s.sysRange th x (s.b32 th x).toNat = false) :=
  ⟨(tDe 0x31 .zero (.v 8) .zero .zero), tState (tFor (.sets ((tDe 0x31 .zero (.v 8) .zero .zero)))), tFor (.sets ((tDe 0x31 .zero (.v 8) .zero .zero))), alone_of_check rfl rfl (by decide +kernel), by decide +kernel⟩

theorem witness_system_register_access_2 : ∃ x : Desc, ∃ s th, Alone (.sxTimeWrite x) s th ∧ (th.sup = true) :=
  ⟨(tDe 0x8011 .zero (.v 8) .zero .zero), tState { tThread with sup := true }, { tThread with sup := true }, alone_of_check rfl rfl (by decide +kernel), by decide +kernel⟩

theorem witness_system_register_access_3 : ∃ x : Desc, ∃ s th, Alone (.sxTimeWrite x) s th ∧ (th.sup = false) :=
  ⟨(tDe 0x8011 .zero (.v 8) .zero .zero), tState (tFor (.sxTimeWrite ((tDe 0x8011 .zero (.v 8) .zero .zero)))), tFor (.sxTimeWrite ((tDe 0x8011 .zero (.v 8) .zero .zero))), alone_of_check rfl rfl (by decide +kernel), by decide +kernel⟩

theorem witness_system_register_access_4 : ∃ (s : State), ∃ (th : Thread), ∃ (v : Dword), s.thread? th.id = some th ∧
    th.unit = .device ∧ th.sup = false :=
  ⟨tState tThread, tThread, 0x5000, rfl, by decide +kernel⟩

theorem witness_system_register_access_5 : ∃ (s : State), ∃ (th : Thread), ∃ (v : Dword), s.thread? th.id = some th ∧
    th.unit = .device ∧ th.sup = true ∧ ∃ g, s.group? th.group = some g :=
  ⟨tState { tThread with sup := true }, { tThread with sup := true }, 0x5000, rfl, by decide +kernel, by decide +kernel, tGroup, rfl⟩

theorem witness_system_register_access_6 : ∃ (x : Desc), ∃ (s : State), ∃ (th : Thread), Alone (.movs x) s th ∧
    s.sysRange th x (s.b32 th x).toNat = true :=
  ⟨tDe 0x43 (.v 16) .zero (.imm 100) .zero, tState tThread, tThread, alone_of_check rfl rfl (by decide +kernel), by decide +kernel⟩

theorem witness_system_register_access_7 : ∃ (x : Desc), ∃ (s : State), ∃ (th : Thread), Alone (.sets x) s th ∧
    s.sysRange th x (s.b32 th x).toNat = true :=
  ⟨tDe 0x43 .zero .zero (.imm 100) .zero, tState tThread, tThread, alone_of_check rfl rfl (by decide +kernel), by decide +kernel⟩

theorem witness_regions_and_yields_0 : ∃ x : Desc, ∃ s th, Alone (.regionOpen x) s th :=
  ⟨(tDe 0x0 .zero .zero .zero .zero), tState (tFor (.regionOpen ((tDe 0x0 .zero .zero .zero .zero)))), tFor (.regionOpen ((tDe 0x0 .zero .zero .zero .zero))), alone_of_check rfl rfl (by decide +kernel)⟩

theorem witness_regions_and_yields_1 : ∃ x : Desc, ∃ s th, Alone (.regionClose x) s th :=
  ⟨(tDe 0x1 .zero .zero .zero .zero), tState (tFor (.regionClose ((tDe 0x1 .zero .zero .zero .zero)))), tFor (.regionClose ((tDe 0x1 .zero .zero .zero .zero))), alone_of_check rfl rfl (by decide +kernel)⟩

theorem witness_regions_and_yields_2 : ∃ x : Desc, ∃ s th, Alone (.yield x) s th ∧ (s.a32 th x = 0) :=
  ⟨(tDe 0x0 .zero (.v 8) .zero .zero), tState (tFor (.yield ((tDe 0x0 .zero (.v 8) .zero .zero)))), tFor (.yield ((tDe 0x0 .zero (.v 8) .zero .zero))), alone_of_check rfl rfl (by decide +kernel), by decide +kernel⟩

theorem witness_regions_and_yields_3 : ∃ x : Desc, ∃ s th, Alone (.yield x) s th ∧ (s.a32 th x ≠ 0) :=
  ⟨(tDe 0x0 .zero (.v 8) .zero .zero), tState (tPut 8 5 tThread), tPut 8 5 tThread, alone_of_check rfl rfl (by decide +kernel),
    by decide +kernel⟩

theorem witness_regions_and_yields_4 : ∃ (s : State), ∃ (th : Thread), ∃ (n : Nat), s.thread? s.arg.t = some th ∧ th.hold = .yield_ n ∧
    s.resident th = true ∧ th.holdAt + n ≤ s.cycle :=
  ⟨tAt { tThread with hold := .yield_ 0 }, { tThread with hold := .yield_ 0 }, 0, rfl, by decide +kernel⟩

theorem witness_low_bits_give_the_length_0 : ∃ i : Instr, i.wf = true ∧ i.isStep = false :=
  ⟨.bra96 (tDe 64 .zero .zero .zero .zero), by decide +kernel⟩

theorem witness_low_bits_give_the_length_1 : ∃ fr : List Byte, (field fr 1 1).testBit 0 = false :=
  ⟨[], by decide +kernel⟩

theorem witness_checks_come_before_the_effect_0 : ∃ (i : Instr), ∃ (s : State), ∃ (th : Thread), i.isStep = false ∧ instrOp i ≠ 0x72 ∧
    ((instrOp i < 0x90 ∨ 0x9F < instrOp i)) ∧ ((instrOp i < 0xD8 ∨ 0xDB < instrOp i)) ∧ s.team = [th.id] ∧ s.thread? th.id = some th ∧
    s.canIssue th = true ∧ th.pend = [] ∧ ∃ c, s.decodeTrap th i = some c :=
  ⟨.qwait ((tDe 0x0 (.v 16) (.v 8) .zero .zero)), tState tThread, tThread, by decide +kernel, by decide +kernel, by decide +kernel,
    by decide +kernel, by decide +kernel, rfl, by decide +kernel, by decide +kernel, .illegal, by decide +kernel⟩

theorem witness_checks_come_before_the_effect_1 : ∃ (i : Instr), ∃ (s : State), ∃ (th : Thread), i.isStep = false ∧ instrOp i ≠ 0x72 ∧
    ((instrOp i < 0x90 ∨ 0x9F < instrOp i)) ∧ ((instrOp i < 0xD8 ∨ 0xDB < instrOp i)) ∧ s.team = [th.id] ∧ s.thread? th.id = some th ∧
    s.canIssue th = true ∧ th.pend = [] ∧ s.decodeTrap th i = none ∧ th.guard i.guard = false :=
  ⟨.bra96 { tDe 64 .zero .zero .zero .zero with g := 0 }, tState tThread, tThread, by decide +kernel, by decide +kernel,
    by decide +kernel, by decide +kernel, by decide +kernel, rfl, by decide +kernel⟩

theorem witness_checks_come_before_the_effect_2 : ∃ (s : State), ∃ (th : Thread), ∃ (x : CI), th.unit ≠ .device :=
  ⟨tState tThread, { tThread with unit := .service, sup := true, alloc := 256 }, ⟨0, .v 8, .v 12⟩, by decide +kernel⟩

theorem witness_checks_come_before_the_effect_3 : ∃ (s : State), ∃ (th : Thread), ∃ (x : Desc), th.unit = .service ∧ th.sup = false :=
  ⟨tState tThread, { tThread with unit := .service }, (tDe 0x0 (.v 16) (.v 8) .zero .zero), by decide +kernel⟩

theorem witness_memory_instructions_issue_0 : ∃ x : CI, ∃ s th, Alone (.ld x) s th ∧ s.Homely ∧ (∀ a n, th.region ≠ .opened a n) ∧
    ∃ s1 p tail, Granted s th ((ldAsk (x.toMemf 0x90 none) (s.memAddr th (x.toMemf 0x90 none)))) s1 p tail :=
  ⟨⟨254, .v 8, .v 16⟩, tState (tFor (.ld (⟨254, .v 8, .v 16⟩))), tFor (.ld (⟨254, .v 8, .v 16⟩)), alone_of_check rfl rfl (by decide +kernel), ⟨rfl, by decide +kernel⟩, (by intro _ _ h; cases h), granted_of_check (by decide +kernel)⟩

theorem witness_memory_instructions_issue_1 : ∃ x : MForm, ∃ s th, Alone (.ld96 x) s th ∧ s.Homely ∧ (∀ a n, th.region ≠ .opened a n) ∧
    ∃ s1 p tail, Granted s th ((ldAsk (x.toMemf 0x90) (s.memAddr th (x.toMemf 0x90)))) s1 p tail :=
  ⟨(.wide (tMe .b32 0xffff8 4 2 1 0 (.v 16) (.v 8) .zero .zero)), tState (tFor (.ld96 ((.wide (tMe .b32 0xffff8 4 2 1 0 (.v 16) (.v 8) .zero .zero))))), tFor (.ld96 ((.wide (tMe .b32 0xffff8 4 2 1 0 (.v 16) (.v 8) .zero .zero)))), alone_of_check rfl rfl (by decide +kernel), ⟨rfl, by decide +kernel⟩, (by intro _ _ h; cases h), granted_of_check (by decide +kernel)⟩

theorem witness_memory_instructions_issue_2 : ∃ x : CI, ∃ s th, Alone (.st x) s th ∧ s.Homely ∧ (∀ a n, th.region ≠ .opened a n) ∧
    ∃ s1 p tail, Granted s th ((stAsk (x.toMemf 0x91 none) (s.memAddr th (x.toMemf 0x91 none)) (s.storeData th (x.toMemf 0x91 none)))) s1 p tail :=
  ⟨⟨254, .v 8, .v 16⟩, tState (tFor (.st (⟨254, .v 8, .v 16⟩))), tFor (.st (⟨254, .v 8, .v 16⟩)), alone_of_check rfl rfl (by decide +kernel), ⟨rfl, by decide +kernel⟩, (by intro _ _ h; cases h), granted_of_check (by decide +kernel)⟩

theorem witness_memory_instructions_issue_3 : ∃ x : MForm, ∃ s th, Alone (.st96 x) s th ∧ s.Homely ∧ (∀ a n, th.region ≠ .opened a n) ∧
    ∃ s1 p tail, Granted s th ((stAsk (x.toMemf 0x91) (s.memAddr th (x.toMemf 0x91)) (s.storeData th (x.toMemf 0x91)))) s1 p tail :=
  ⟨(.wide (tMe .b32 0xffff8 4 2 2 0 .zero (.v 8) (.v 12) .zero)), tState (tFor (.st96 ((.wide (tMe .b32 0xffff8 4 2 2 0 .zero (.v 8) (.v 12) .zero))))), tFor (.st96 ((.wide (tMe .b32 0xffff8 4 2 2 0 .zero (.v 8) (.v 12) .zero)))), alone_of_check rfl rfl (by decide +kernel), ⟨rfl, by decide +kernel⟩, (by intro _ _ h; cases h), granted_of_check (by decide +kernel)⟩

theorem witness_memory_instructions_issue_4 : ∃ x : Memf, ∃ s th, Alone (.ldmx x) s th ∧ s.Homely ∧ (∀ a n, th.region ≠ .opened a n) ∧
    ∃ s1 p tail, Granted s th ((ldmxAsk x (s.memAddr th x) (s.raw32 th x.toOps4 x.b))) s1 p tail :=
  ⟨(tMe .e4m3 0xffff8 4 2 1 0 (.v 16) (.v 8) (.v 12) .zero), tState (tFor (.ldmx ((tMe .e4m3 0xffff8 4 2 1 0 (.v 16) (.v 8) (.v 12) .zero)))), tFor (.ldmx ((tMe .e4m3 0xffff8 4 2 1 0 (.v 16) (.v 8) (.v 12) .zero))), alone_of_check rfl rfl (by decide +kernel), ⟨rfl, by decide +kernel⟩, (by intro _ _ h; cases h), granted_of_check (by decide +kernel)⟩

theorem witness_memory_instructions_issue_5 : ∃ x : Memf, ∃ s th, Alone (.atom x) s th ∧ s.Homely ∧ (∀ a n, th.region ≠ .opened a n) ∧
    ∃ s1 p tail, Granted s th ((atomAsk x (s.memAddr th x) (s.rmwArg th x x.b) (s.rmwArg th x x.c))) s1 p tail :=
  ⟨(tMe .i32 0xffff8 4 2 1 0 (.v 16) (.v 8) (.v 12) .zero), tState (tFor (.atom ((tMe .i32 0xffff8 4 2 1 0 (.v 16) (.v 8) (.v 12) .zero)))), tFor (.atom ((tMe .i32 0xffff8 4 2 1 0 (.v 16) (.v 8) (.v 12) .zero))), alone_of_check rfl rfl (by decide +kernel), ⟨rfl, by decide +kernel⟩, (by intro _ _ h; cases h), granted_of_check (by decide +kernel)⟩

theorem witness_memory_instructions_issue_6 : ∃ x : Memf, ∃ s th, Alone (.red x) s th ∧ (x.mod8.getLsbD 5 = false) ∧ s.Homely ∧
    (∀ a n, th.region ≠ .opened a n) ∧ ∃ s1 p tail, Granted s th ((redAsk x (s.memAddr th x) (s.rmwArg th x x.b) none)) s1 p tail :=
  ⟨(tMe .i32 0xffff8 4 2 2 0 .zero (.v 8) (.v 12) .zero), tState (tFor (.red ((tMe .i32 0xffff8 4 2 2 0 .zero (.v 8) (.v 12) .zero)))), tFor (.red ((tMe .i32 0xffff8 4 2 2 0 .zero (.v 8) (.v 12) .zero))), alone_of_check rfl rfl (by decide +kernel), by decide +kernel, ⟨rfl, by decide +kernel⟩, (by intro _ _ h; cases h), granted_of_check (by decide +kernel)⟩

theorem witness_memory_instructions_issue_7 : ∃ x : Memf, ∃ s th, Alone (.red x) s th ∧ (x.mod8.getLsbD 5 = true ∧
    (s.raw32 th x.toOps4 x.c).toNat < s.slotCount th) ∧ s.Homely ∧ (∀ a n, th.region ≠ .opened a n) ∧
    ∃ s1 p tail, Granted s th ((redAsk x (s.memAddr th x) (s.rmwArg th x x.b) (some (s.raw32 th x.toOps4 x.c).toNat))) s1 p tail :=
  ⟨tMe .i32 0 4 2 0 0x20 .zero (.v 8) (.v 12) (.imm 5), tState (tFor (.red (tMe .i32 0 4 2 0 0x20 .zero (.v 8) (.v 12) (.imm 5)))), tFor (.red (tMe .i32 0 4 2 0 0x20 .zero (.v 8) (.v 12) (.imm 5))), alone_of_check rfl rfl (by decide +kernel), by decide +kernel, ⟨rfl, by decide +kernel⟩, (by intro _ _ h; cases h), granted_of_check (by decide +kernel)⟩

theorem witness_address_traps_0 : ∃ (s : State), ∃ (th : Thread), ∃ (a : Dword), ∃ (n k : Nat), 0 < k ∧ a.toNat % k ≠ 0 :=
  ⟨tState tThread, tThread, 0x5001, 4, 4, by decide +kernel⟩

theorem witness_address_traps_1 : ∃ (s : State), ∃ (th : Thread), ∃ (a : Dword), ∃ (n k : Nat), 0 < k ∧ a.toNat % k = 0 ∧
    canonical (s.spaceOf th) a = false :=
  ⟨tState tThread, tThread, 0x8000000000000000, 4, 4, by decide +kernel⟩

theorem witness_address_traps_2 : ∃ (s : State), ∃ (th : Thread), ∃ (a : Dword), ∃ (n k : Nat), 0 < k ∧ a.toNat % k = 0 ∧
    canonical (s.spaceOf th) a = true ∧ th.unit ≠ .device :=
  ⟨tState { tThread with unit := .service, sup := true, alloc := 256 }, { tThread with unit := .service, sup := true, alloc := 256 }, 0x5000, 4, 4, by decide +kernel⟩

theorem witness_address_traps_3 : ∃ (s : State), ∃ (th : Thread), ∃ (a : Dword), ∃ (n k : Nat), 0 < k ∧ a.toNat % k = 0 ∧
    canonical (s.spaceOf th) a = true ∧ th.unit = .device ∧ inWindow s.img.spBase a = true ∧ s.scratch th < (a - s.img.spBase).toNat + n :=
  ⟨tState tThread, tThread, 0x7F0000000FFC, 8, 4, by decide +kernel⟩

theorem witness_address_traps_4 : ∃ (s : State), ∃ (th : Thread), ∃ (a : Dword), ∃ (n k : Nat), 0 < k ∧ a.toNat % k = 0 ∧
    canonical (s.spaceOf th) a = true ∧ th.unit = .device ∧ inWindow s.img.spBase a = false ∧ inWindow s.img.stkBase a = true :=
  ⟨tState tThread, tThread, 0x7E0000000000, 4, 4, by decide +kernel⟩

theorem witness_address_traps_5 : ∃ (s : State), ∃ (th : Thread), ∃ (a : Dword), ∃ (n k : Nat), 0 < k ∧ a.toNat % k = 0 ∧
    canonical (s.spaceOf th) a = true ∧ th.unit = .device ∧ inWindow s.img.spBase a = false ∧ inWindow s.img.stkBase a = false :=
  ⟨tState tThread, tThread, 0x5000, 4, 4, by decide +kernel⟩

theorem witness_address_traps_6 : ∃ x : CI, ∃ s th b, Alone (.ld x) s th ∧ s.TrapsPrecisely th ∧
    s.BadAddress th (ldAsk (x.toMemf 0x90 none) (s.memAddr th (x.toMemf 0x90 none))) b :=
  ⟨⟨254, .v 8, .v 16⟩, tState (tPut 8 1 tThread), (tPut 8 1 tThread), ⟨.misalign, 0xFFFFFFFFFFFFFFF9, 0⟩, alone_of_check rfl rfl (by decide +kernel), precise_of_check rfl rfl (by decide +kernel) (by intro _ _ h; cases h), error_of_check (by decide +kernel)⟩

theorem witness_address_traps_7 : ∃ x : MForm, ∃ s th b, Alone (.ld96 x) s th ∧ s.TrapsPrecisely th ∧
    s.BadAddress th (ldAsk (x.toMemf 0x90) (s.memAddr th (x.toMemf 0x90))) b :=
  ⟨(.wide (tMe .b32 0xffff8 4 2 1 0 (.v 16) (.v 8) .zero .zero)), tState (tPut 8 1 tThread), (tPut 8 1 tThread), ⟨.misalign, 0xFFFFFFFFFFFFFFF9, 0⟩, alone_of_check rfl rfl (by decide +kernel), precise_of_check rfl rfl (by decide +kernel) (by intro _ _ h; cases h), error_of_check (by decide +kernel)⟩

theorem witness_address_traps_8 : ∃ x : CI, ∃ s th b, Alone (.st x) s th ∧ s.TrapsPrecisely th ∧
    s.BadAddress th (stAsk (x.toMemf 0x91 none) (s.memAddr th (x.toMemf 0x91 none)) (s.storeData th (x.toMemf 0x91 none))) b :=
  ⟨⟨254, .v 8, .v 16⟩, tState (tPut 8 1 tThread), (tPut 8 1 tThread), ⟨.misalign, 0xFFFFFFFFFFFFFFF9, 0⟩, alone_of_check rfl rfl (by decide +kernel), precise_of_check rfl rfl (by decide +kernel) (by intro _ _ h; cases h), error_of_check (by decide +kernel)⟩

theorem witness_address_traps_9 : ∃ x : MForm, ∃ s th b, Alone (.st96 x) s th ∧ s.TrapsPrecisely th ∧
    s.BadAddress th (stAsk (x.toMemf 0x91) (s.memAddr th (x.toMemf 0x91)) (s.storeData th (x.toMemf 0x91))) b :=
  ⟨(.wide (tMe .b32 0xffff8 4 2 2 0 .zero (.v 8) (.v 12) .zero)), tState (tPut 8 1 tThread), (tPut 8 1 tThread), ⟨.misalign, 0xFFFFFFFFFFFFFFF9, 0⟩, alone_of_check rfl rfl (by decide +kernel), precise_of_check rfl rfl (by decide +kernel) (by intro _ _ h; cases h), error_of_check (by decide +kernel)⟩

theorem witness_address_traps_10 : ∃ x : Memf, ∃ s th b, Alone (.ldmx x) s th ∧ s.TrapsPrecisely th ∧
    s.BadAddress th (ldmxAsk x (s.memAddr th x) (s.raw32 th x.toOps4 x.b)) b :=
  ⟨(tMe .e4m3 0xffff8 4 2 1 0 (.v 16) (.v 8) (.v 12) .zero), tState (tPut 8 1 tThread), (tPut 8 1 tThread), ⟨.misalign, 0xFFFFFFFFFFFFFFF9, 0⟩, alone_of_check rfl rfl (by decide +kernel), precise_of_check rfl rfl (by decide +kernel) (by intro _ _ h; cases h), error_of_check (by decide +kernel)⟩

theorem witness_address_traps_11 : ∃ x : Memf, let q (s : State) (th : Thread) : Ask := atomAsk x (s.memAddr th x) (s.rmwArg th x x.b) (s.rmwArg th x x.c); ∃ s th b, Alone (.atom x) s th ∧ s.TrapsPrecisely th ∧ s.BadAddress th (q s th) b :=
  ⟨(tMe .i32 0xffff8 4 2 1 0 (.v 16) (.v 8) (.v 12) .zero), tState (tPut 8 1 tThread), (tPut 8 1 tThread), ⟨.misalign, 0xFFFFFFFFFFFFFFF9, 0⟩, alone_of_check rfl rfl (by decide +kernel), precise_of_check rfl rfl (by decide +kernel) (by intro _ _ h; cases h), error_of_check (by decide +kernel)⟩

theorem witness_address_traps_12 : ∃ x : Memf, let q (s : State) (th : Thread) : Ask := atomAsk x (s.memAddr th x) (s.rmwArg th x x.b) (s.rmwArg th x x.c); ∃ s th b, Alone (.atom x) s th ∧ s.TrapsPrecisely th ∧ s.NotOnStack th (q s th) b :=
  ⟨(tMe .i32 0xffff8 4 2 1 0 (.v 16) (.v 8) (.v 12) .zero), tState (tPut 8 0x7E0000000008 tThread), (tPut 8 0x7E0000000008 tThread), ⟨.prot, 0x7E0000000000, 0⟩, alone_of_check rfl rfl (by decide +kernel), precise_of_check rfl rfl (by decide +kernel) (by intro _ _ h; cases h), ⟨⟨0, ok_of_check (by decide +kernel)⟩, by decide +kernel, by decide +kernel⟩⟩

theorem witness_address_traps_13 : ∃ x : Memf, x.mod8.getLsbD 5 = false ∧
    let q (s : State) (th : Thread) : Ask := redAsk x (s.memAddr th x) (s.rmwArg th x x.b) none; ∃ s th b, Alone (.red x) s th ∧
    s.TrapsPrecisely th ∧ s.BadAddress th (q s th) b :=
  ⟨(tMe .i32 0xffff8 4 2 2 0 .zero (.v 8) (.v 12) .zero), by decide +kernel,
    tState (tPut 8 1 tThread), (tPut 8 1 tThread), ⟨.misalign, 0xFFFFFFFFFFFFFFF9, 0⟩, alone_of_check rfl rfl (by decide +kernel),
    precise_of_check rfl rfl (by decide +kernel) (by intro _ _ h; cases h), error_of_check (by decide +kernel)⟩

theorem witness_address_traps_14 : ∃ x : Memf, x.mod8.getLsbD 5 = false ∧
    let q (s : State) (th : Thread) : Ask := redAsk x (s.memAddr th x) (s.rmwArg th x x.b) none; ∃ s th b, Alone (.red x) s th ∧
    s.TrapsPrecisely th ∧ s.NotOnStack th (q s th) b :=
  ⟨(tMe .i32 0xffff8 4 2 2 0 .zero (.v 8) (.v 12) .zero), by decide +kernel,
    tState (tPut 8 0x7E0000000008 tThread), (tPut 8 0x7E0000000008 tThread), ⟨.prot, 0x7E0000000000, 0⟩, alone_of_check rfl rfl (by decide +kernel), precise_of_check rfl rfl (by decide +kernel) (by intro _ _ h; cases h), ⟨⟨0, ok_of_check (by decide +kernel)⟩, by decide +kernel, by decide +kernel⟩⟩

theorem witness_address_traps_15 : ∃ x : Memf, x.mod8.getLsbD 5 = true ∧
    let n (s : State) (th : Thread) : Nat := (s.raw32 th x.toOps4 x.c).toNat; let q (s : State) (th : Thread) : Ask := redAsk x (s.memAddr th x) (s.rmwArg th x x.b) (some (n s th)); ∃ s th b, Alone (.red x) s th ∧ s.TrapsPrecisely th ∧ n s th < s.slotCount th ∧ s.BadAddress th (q s th) b :=
  ⟨tMe .i32 0 4 2 0 0x20 .zero (.v 8) (.v 12) (.imm 5), by decide +kernel,
    tState (tPut 8 1 tThread), (tPut 8 1 tThread), ⟨.misalign, 1, 0⟩, alone_of_check rfl rfl (by decide +kernel),
    precise_of_check rfl rfl (by decide +kernel) (by intro _ _ h; cases h), ⟨by decide +kernel, error_of_check (by decide +kernel)⟩⟩

theorem witness_address_traps_16 : ∃ x : Memf, x.mod8.getLsbD 5 = true ∧
    let n (s : State) (th : Thread) : Nat := (s.raw32 th x.toOps4 x.c).toNat; let q (s : State) (th : Thread) : Ask := redAsk x (s.memAddr th x) (s.rmwArg th x x.b) (some (n s th)); ∃ s th b, Alone (.red x) s th ∧ s.TrapsPrecisely th ∧ n s th < s.slotCount th ∧ s.NotOnStack th (q s th) b :=
  ⟨tMe .i32 0 4 2 0 0x20 .zero (.v 8) (.v 12) (.imm 5), by decide +kernel,
    tState (tPut 8 0x7E0000000008 tThread), (tPut 8 0x7E0000000008 tThread), ⟨.prot, 0x7E0000000008, 0⟩, alone_of_check rfl rfl (by decide +kernel), precise_of_check rfl rfl (by decide +kernel) (by intro _ _ h; cases h), ⟨by decide +kernel, ⟨⟨8, ok_of_check (by decide +kernel)⟩, by decide +kernel, by decide +kernel⟩⟩⟩

theorem witness_loads_deliver_what_memory_holds_0 : ∃ (s : State), ∃ (th : Thread), ∃ (a : Access), ∃ (ty : Ty),
    ∃ (pa cache : Nat), s.access? s.arg.a = some (th, a) ∧ a.op = .ld ty ∧ a.fixed = false ∧ a.half = 0 ∧ a.place = .dram pa cache ∧
    a.tail = none ∧ pa < dramEnd ∧ s.mayRead th a = true ∧ s.arg.early = none ∧ (∀ l ∈ linesOf pa a.size, s.badLine l = false) ∧
    s.unperformed th a = [] :=
  ⟨tAt (tOps [tAcc (.ld .b32) (.dram 0x5000 0)]), tOps [tAcc (.ld .b32) (.dram 0x5000 0)], tAcc (.ld .b32) (.dram 0x5000 0), .b32, 0x5000, 0, rfl, by decide +kernel⟩

theorem witness_loads_deliver_what_memory_holds_1 : ∃ (s : State), ∃ (th : Thread), ∃ (a : Access), ∃ (ty : Ty),
    ∃ (pa cache : Nat), s.access? s.arg.a = some (th, a) ∧ a.op = .ld ty ∧ a.fixed = false ∧ a.half = 0 ∧ a.place = .dram pa cache ∧
    a.tail = none ∧ pa < dramEnd ∧ s.mayRead th a = true ∧ s.arg.early = none ∧ (∀ l ∈ linesOf pa a.size, s.badLine l = false) ∧
    ∃ b d c2, s.unperformed th a = [b] ∧ b ∈ th.ops ∧ b.op = .st d ∧ b.place = .dram pa c2 ∧ d.length = a.size :=
  ⟨{ tAt (tOps [tAcc (.st [1, 2, 3, 4]) (.dram 0x5000 0), { tAcc (.ld .b32) (.dram 0x5000 0) with id := 11 }]) with arg := { a := 11 } }, tOps [tAcc (.st [1, 2, 3, 4]) (.dram 0x5000 0), { tAcc (.ld .b32) (.dram 0x5000 0) with id := 11 }], { tAcc (.ld .b32) (.dram 0x5000 0) with id := 11 }, .b32, 0x5000, 0, rfl, both (by decide +kernel) <| both (by decide +kernel) <| both (by decide +kernel) <| both (by decide +kernel) <| ⟨by decide +kernel, tAcc (.st [1, 2, 3, 4]) (.dram 0x5000 0), [1, 2, 3, 4], 0, by decide +kernel⟩⟩

theorem witness_loads_deliver_what_memory_holds_2 : ∃ (s : State), ∃ (th : Thread), ∃ (a : Access), ∃ (ty : Ty), ∃ (o : Nat),
    ∃ (g : Group), s.access? s.arg.a = some (th, a) ∧ a.op = .ld ty ∧ a.fixed = false ∧ a.half = 0 ∧ a.place = .spad o ∧
    a.tail = none ∧ s.mayRead th a = true ∧ s.arg.early = none ∧ s.merged th a = [a] ∧ s.unperformed th a = [] ∧
    s.group? th.group = some g :=
  ⟨tAt (tOps [{ tAcc (.ld .b32) (.spad 16) with queued := 5 }]), tOps [{ tAcc (.ld .b32) (.spad 16) with queued := 5 }], { tAcc (.ld .b32) (.spad 16) with queued := 5 }, .b32, 16, tGroup, rfl, both (by decide +kernel) <| both (by decide +kernel) <| both (by decide +kernel) <| both (by decide +kernel) <| ⟨by decide +kernel, rfl⟩⟩

theorem witness_loads_deliver_what_memory_holds_3 : ∃ (s : State), ∃ (th : Thread), ∃ (a : Access), ∃ (ty : Ty), ∃ (v : Nat),
    ∃ (n : BitVec 8), s.Homely ∧ s.thread? th.id = some th ∧ a.op = .ld ty ∧ a.dst = .v n :=
  ⟨tAt (tOps [tAcc (.ld .b32) (.dram 0x5000 0)]), tOps [tAcc (.ld .b32) (.dram 0x5000 0)], tAcc (.ld .b32) (.dram 0x5000 0), .b32, 5, 8, ⟨rfl, by decide +kernel⟩, rfl, by decide +kernel⟩

theorem witness_loads_deliver_what_memory_holds_4 : ∃ (s : State), ∃ (th : Thread), ∃ (a b c : Access), ∃ (ty : Ty), ∃ (o : Nat),
    ∃ (ms : List Access), s.access? s.arg.a = some (th, a) ∧ a.op = .ld ty ∧ a.fixed = false ∧ a.half = 0 ∧ a.place = .spad o ∧
    s.mayRead th a = true ∧ s.merged th a = b :: c :: ms ∧ ∃ (s1 : State), ∃ (th1 : Thread),
    ∃ (a1 : Access), s.fixLoads (b :: c :: ms) = some s1 ∧ s1.access? a.id = some (th1, a1) :=
  ⟨tAt (tOps [{ tAcc (.ld .b32) (.spad 16) with queued := 5 }, { tAcc (.ld .b32) (.spad 16) with id := 11, queued := 5 }]), tOps [{ tAcc (.ld .b32) (.spad 16) with queued := 5 }, { tAcc (.ld .b32) (.spad 16) with id := 11, queued := 5 }], { tAcc (.ld .b32) (.spad 16) with queued := 5 }, { tAcc (.ld .b32) (.spad 16) with queued := 5 }, { tAcc (.ld .b32) (.spad 16) with id := 11, queued := 5 }, .b32, 16, [], rfl, both (by decide +kernel) <| both (by decide +kernel) <| both (by decide +kernel) <| ⟨_, _, _, Option.eq_some_of_isSome (by decide +kernel), Option.eq_some_of_isSome (by decide +kernel)⟩⟩

theorem witness_loads_deliver_what_memory_holds_5 : ∃ (s : State), ∃ (th : Thread), ∃ (a b c : Access), ∃ (ty : Ty), ∃ (o : Nat),
    ∃ (ms : List Access), s.access? s.arg.a = some (th, a) ∧ a.op = .ld ty ∧ a.fixed = false ∧ a.half = 0 ∧ a.place = .spad o ∧
    s.mayRead th a = true ∧ s.merged th a = b :: c :: ms ∧ ∃ (x : Thread), ∃ (e : Access), s.access? b.id = some (x, e) ∧
    s.mayRead x e = false :=
  ⟨{ tState tThread with threads := [tOps [{ tAcc (.ld .b32) (.spad 16) with id := 11, queued := 5 }], { tOps [{ tAcc (.st [1, 2, 3, 4]) (.spad 16) with id := 5, issue := 5, queued := 3 }, { tAcc (.ld .b32) (.spad 16) with queued := 5 }] with id := 4, lane := 40 }], arg := { a := 11 } }, tOps [{ tAcc (.ld .b32) (.spad 16) with id := 11, queued := 5 }], { tAcc (.ld .b32) (.spad 16) with id := 11, queued := 5 }, { tAcc (.ld .b32) (.spad 16) with queued := 5 }, { tAcc (.ld .b32) (.spad 16) with id := 11, queued := 5 }, .b32, 16, [], rfl, both (by decide +kernel) <| both (by decide +kernel) <| both (by decide +kernel) <| ⟨{ tOps [{ tAcc (.st [1, 2, 3, 4]) (.spad 16) with id := 5, issue := 5, queued := 3 }, { tAcc (.ld .b32) (.spad 16) with queued := 5 }] with id := 4, lane := 40 }, { tAcc (.ld .b32) (.spad 16) with queued := 5 }, rfl, by decide +kernel⟩⟩

theorem witness_writes_perform_at_their_bytes_0 : ∃ (s : State), ∃ (th : Thread), ∃ (a : Access), ∃ (d : List Byte),
    ∃ (pa cache : Nat), s.access? s.arg.a = some (th, a) ∧ a.op = .st d ∧ a.place = .dram pa cache ∧ a.tail = none ∧ pa < dramEnd ∧
    a.buffered = false ∧ a.half = 0 ∧ s.mayWrite th a = true ∧ s.linkFail a.place a.size = none ∧ s.Homely ∧ s.mem.wf = true :=
  ⟨tAt (tOps [tAcc (.st [1, 2, 3, 4]) (.dram 0x5000 0)]), tOps [tAcc (.st [1, 2, 3, 4]) (.dram 0x5000 0)], tAcc (.st [1, 2, 3, 4]) (.dram 0x5000 0), [1, 2, 3, 4], 0x5000, 0, rfl, both (by decide +kernel) <| both (by decide +kernel) <| both (by decide +kernel) <| both (by decide +kernel) <| ⟨⟨rfl, by decide +kernel⟩, by decide +kernel⟩⟩

theorem witness_writes_perform_at_their_bytes_1 : ∃ (s : State), ∃ (th : Thread), ∃ (a : Access), ∃ (d : List Byte), ∃ (o : Nat),
    ∃ (g : Group), s.access? s.arg.a = some (th, a) ∧ a.op = .st d ∧ a.place = .spad o ∧ a.tail = none ∧ a.buffered = false ∧
    a.half = 0 ∧ s.mayWrite th a = true ∧ s.merged th a = [a] ∧ s.Homely ∧ s.group? th.group = some g ∧ g.spad.wf = true :=
  ⟨tAt (tOps [{ tAcc (.st [1, 2, 3, 4]) (.spad 16) with queued := 5 }]), tOps [{ tAcc (.st [1, 2, 3, 4]) (.spad 16) with queued := 5 }], { tAcc (.st [1, 2, 3, 4]) (.spad 16) with queued := 5 }, [1, 2, 3, 4], 16, tGroup, rfl, both (by decide +kernel) <| both (by decide +kernel) <| both (by decide +kernel) <| ⟨by decide +kernel, ⟨rfl, by decide +kernel⟩, rfl, by decide +kernel⟩⟩

theorem witness_writes_perform_at_their_bytes_2 : ∃ (s : State), ∃ (th : Thread), ∃ (a : Access),
    ∃ (d : List Byte), s.access? s.arg.a = some (th, a) ∧ s.thread? th.id = some th ∧ a.op = .st d ∧ a.counted = true ∧
    a.fixed = true ∧ s.Homely :=
  ⟨tAt (tOps [{ tAcc (.st [1, 2, 3, 4]) (.dram 0x5000 0) with fixed := true }]), tOps [{ tAcc (.st [1, 2, 3, 4]) (.dram 0x5000 0) with fixed := true }], { tAcc (.st [1, 2, 3, 4]) (.dram 0x5000 0) with fixed := true }, [1, 2, 3, 4], rfl, rfl, by decide +kernel, by decide +kernel, by decide +kernel, ⟨rfl, by decide +kernel⟩⟩

theorem witness_writes_perform_at_their_bytes_3 : ∃ (s : State), ∃ (th : Thread), ∃ (a : Access), ∃ (ty : Ty), ∃ (op n : Nat),
    ∃ (b : Dword), s.access? s.arg.a = some (th, a) ∧ a.op = .red ty op b (some n) ∧ a.counted = true ∧ a.fixed = true :=
  ⟨tAt (tOps [{ tAcc (.red .i32 0 5 (some 5)) (.dram 0x5000 0) with fixed := true }]), tOps [{ tAcc (.red .i32 0 5 (some 5)) (.dram 0x5000 0) with fixed := true }], { tAcc (.red .i32 0 5 (some 5)) (.dram 0x5000 0) with fixed := true }, .i32, 0, 5, 5, rfl, by decide +kernel⟩

theorem witness_writes_perform_at_their_bytes_4 : ∃ (s t : State), ∃ (th : Thread), ∃ (a : Access), ∃ (d : List Byte),
    ∃ (o : Nat), s.access? s.arg.a = some (th, a) ∧ a.op = .st d ∧ a.place = .spad o ∧ a.tail = none ∧ a.buffered = false ∧
    s.mayWrite th a = true ∧ s.storeAll (s.merged th a) = some t :=
  ⟨tAt (tOps [{ tAcc (.st [1, 2, 3, 4]) (.spad 16) with queued := 5 }]), _, tOps [{ tAcc (.st [1, 2, 3, 4]) (.spad 16) with queued := 5 }], { tAcc (.st [1, 2, 3, 4]) (.spad 16) with queued := 5 }, [1, 2, 3, 4], 16, rfl, by decide +kernel, by decide +kernel, by decide +kernel, by decide +kernel, by decide +kernel, Option.eq_some_of_isSome (by decide +kernel)⟩

theorem witness_atomics_read_modify_write_0 : ∃ (s : State), ∃ (th : Thread), ∃ (a : Access), ∃ (ty : Ty), ∃ (op : Nat),
    ∃ (b c : Dword), ∃ (pa cache : Nat), s.access? s.arg.a = some (th, a) ∧ a.op = .atom ty op b c ∧ a.fixed = false ∧
    a.place = .dram pa cache ∧ a.tail = none ∧ pa < dramEnd ∧ (∀ l ∈ linesOf pa a.size, s.badLine l = false) ∧ s.mayWrite th a = true ∧
    s.mem.wf = true :=
  ⟨tAt (tOps [tAcc (.atom .i32 0 5 0) (.dram 0x5000 0)]), tOps [tAcc (.atom .i32 0 5 0) (.dram 0x5000 0)], tAcc (.atom .i32 0 5 0) (.dram 0x5000 0), .i32, 0, 5, 0, 0x5000, 0, rfl, by decide +kernel⟩

theorem witness_atomics_read_modify_write_1 : ∃ (s : State), ∃ (th : Thread), ∃ (a : Access), ∃ (ty : Ty), ∃ (op : Nat),
    ∃ (b : Dword), ∃ (slot : Option Nat), ∃ (pa cache : Nat), s.access? s.arg.a = some (th, a) ∧ a.op = .red ty op b slot ∧
    a.order.rel = false ∧ a.buffered = false ∧ a.place = .dram pa cache ∧ a.tail = none ∧ pa < dramEnd ∧
    (∀ l ∈ linesOf pa a.size, s.badLine l = false) ∧ s.linkFail a.place a.size = none ∧ s.mayWrite th a = true ∧ s.mem.wf = true ∧
    s.Homely :=
  ⟨tAt (tOps [tAcc (.red .i32 0 5 none) (.dram 0x5000 0)]), tOps [tAcc (.red .i32 0 5 none) (.dram 0x5000 0)], tAcc (.red .i32 0 5 none) (.dram 0x5000 0), .i32, 0, 5, none, 0x5000, 0, rfl, both (by decide +kernel) <| both (by decide +kernel) <| both (by decide +kernel) <| both (by decide +kernel) <| both (by decide +kernel) <| ⟨rfl, by decide +kernel⟩⟩

theorem witness_atomics_read_modify_write_2 : ∃ (ty : Ty),
    ∃ (x b c : Nat), (ty = .b32 ∨ ty = .i32 ∨ ty = .n32 ∨ ty = .b64 ∨ ty = .i64 ∨ ty = .n64) :=
  ⟨.i32, 1, 2, 3, by decide +kernel⟩

theorem witness_atomics_read_modify_write_3 : ∃ (s : State), ∃ (th : Thread), ∃ (a : Access), ∃ (ty : Ty), ∃ (b c : Dword),
    ∃ (pa cache : Nat), s.access? s.arg.a = some (th, a) ∧ a.op = .atom ty 7 b c ∧ a.fixed = false ∧ a.place = .dram pa cache ∧
    a.tail = none ∧ pa < dramEnd ∧ (∀ l ∈ linesOf pa a.size, s.badLine l = false) ∧ s.inTurn th a = true ∧ s.mayWrite th a = false ∧
    ofBytes (s.mem.load pa a.size) ≠ c.toNat :=
  ⟨tAt (tOps [{ tAcc (.st [1, 2, 3, 4]) (.dram 0x6000 0) with id := 9, issue := 9 }, { tAcc (.atom .b32 7 1 5) (.dram 0x5000 0) with waits := [9], order := { rel := true, agent := 1 } }]), tOps [{ tAcc (.st [1, 2, 3, 4]) (.dram 0x6000 0) with id := 9, issue := 9 }, { tAcc (.atom .b32 7 1 5) (.dram 0x5000 0) with waits := [9], order := { rel := true, agent := 1 } }], { tAcc (.atom .b32 7 1 5) (.dram 0x5000 0) with waits := [9], order := { rel := true, agent := 1 } }, .b32, 1, 5, 0x5000, 0, rfl, by decide +kernel⟩

theorem witness_fences_and_line_operations_0 : ∃ x : Memf, ∃ s th, Alone (.fence x) s th ∧ (x.agent = 0#3) :=
  ⟨tMe .b32 0 0 2 1 0 .zero .zero .zero .zero, tState (tFor (.fence (tMe .b32 0 0 2 1 0 .zero .zero .zero .zero))), tFor (.fence (tMe .b32 0 0 2 1 0 .zero .zero .zero .zero)), alone_of_check rfl rfl (by decide +kernel), by decide +kernel⟩

theorem witness_fences_and_line_operations_1 : ∃ (x : Memf), ∃ (s : State), ∃ (th : Thread), Alone (.fence x) s th ∧ s.Homely ∧
    x.agent ≠ 0#3 ∧ ((x.ord.getLsbD 1 = true → parkedBy th (memOrder x) = false)) :=
  ⟨tMe .b32 0 4 2 3 0 .zero .zero .zero .zero, tState tThread, tThread, alone_of_check rfl rfl (by decide +kernel),
    ⟨rfl, by decide +kernel⟩, by decide +kernel⟩

theorem witness_fences_and_line_operations_2 : ∃ x : Memf, ∃ s th, Alone (.fence x) s th ∧ (x.agent ≠ 0#3 ∧ x.ord.getLsbD 1 = true ∧
    parkedBy th (memOrder x) = true) :=
  ⟨tMe .b32 0 4 2 3 0 .zero .zero .zero .zero, tState (tOps [tAcc (.ld .b32) (.failed { cause := .prot } 0x5000)]), tOps [tAcc (.ld .b32) (.failed { cause := .prot } 0x5000)], alone_of_check rfl rfl (by decide +kernel), by decide +kernel⟩

theorem witness_fences_and_line_operations_3 : ∃ x : Arith, ∃ s th, Alone (.ifence x) s th ∧ (th.cnt.stores = 0 ∧ th.writing = false ∧
    th.acqs = [] ∧ ∀ i ∈ th.saw, s.ended i = true) :=
  ⟨(tAr .b32 0x0 0 .zero .zero .zero .zero), tState (tFor (.ifence ((tAr .b32 0x0 0 .zero .zero .zero .zero)))), tFor (.ifence ((tAr .b32 0x0 0 .zero .zero .zero .zero))), alone_of_check rfl rfl (by decide +kernel), by decide +kernel⟩

theorem witness_fences_and_line_operations_4 : ∃ x : Arith, ∃ s th, Alone (.ifence x) s th ∧
    (th.cnt.stores ≠ 0 ∨ th.writing = true ∨ th.acqs ≠ [] ∨ ∃ i ∈ th.saw, s.ended i = false) :=
  ⟨(tAr .b32 0x0 0 .zero .zero .zero .zero), tState (tOps []), (tOps []), alone_of_check rfl rfl (by decide +kernel), by decide +kernel⟩

theorem witness_fences_and_line_operations_5 : ∃ (x : Memf), ∃ (s s1 : State), ∃ (th : Thread), ∃ (p : Place), Alone (.cwb x) s th ∧
    s.Homely ∧ (∀ a n, th.region ≠ .opened a n) ∧ th.cnt.stores < 63 ∧ acqHolds th p = false ∧ p.far = false ∧
    ((s.classify th (s.memAddr th x) 1 1 = .ok .global ∧
    s.newId.2.linePlace th (s.memAddr th x) = (s1, p) ∨ (∃ o, s.classify th (s.memAddr th x) 1 1 = .ok (.spad o)) ∧ p = .nowhere ∧
    s1 = s ∨ (∃ b, s.classify th (s.memAddr th x) 1 1 = .error b ∧ b.cause = .owner) ∧ p = .nowhere ∧
    s1 = s ∨ (∃ o, s.classify th (s.memAddr th x) 1 1 = .ok (.stack o) ∧ p = s.newId.2.lineAt th.id (s.memAddr th x) (.stack o)) ∧
    s1 = s)) :=
  ⟨(tMe .b32 0xffff8 0 0 0 0 .zero (.v 8) .zero .zero), tState (tPut 8 0x7F0000000010 tThread), tState (tPut 8 0x7F0000000010 tThread), (tPut 8 0x7F0000000010 tThread), .nowhere, alone_of_check rfl rfl (by decide +kernel), ⟨rfl, by decide +kernel⟩, (by intro _ _ h; cases h), by decide +kernel, by decide +kernel, by decide +kernel, .inr (.inl ⟨⟨8, ok_of_check (by decide +kernel)⟩, rfl, rfl⟩)⟩

theorem witness_fences_and_line_operations_6 : ∃ (x : Memf), ∃ (s s1 : State), ∃ (th : Thread), ∃ (p : Place), Alone (.cinval x) s th ∧
    s.Homely ∧ (∀ a n, th.region ≠ .opened a n) ∧ th.cnt.stores < 63 ∧ acqHolds th p = false ∧ p.far = false ∧
    ((s.classify th (s.memAddr th x) 1 1 = .ok .global ∧
    s.newId.2.linePlace th (s.memAddr th x) = (s1, p) ∨ (∃ o, s.classify th (s.memAddr th x) 1 1 = .ok (.spad o)) ∧ p = .nowhere ∧
    s1 = s ∨ (∃ b, s.classify th (s.memAddr th x) 1 1 = .error b ∧ b.cause = .owner) ∧ p = .nowhere ∧
    s1 = s ∨ (∃ o, s.classify th (s.memAddr th x) 1 1 = .ok (.stack o) ∧ p = s.newId.2.lineAt th.id (s.memAddr th x) (.stack o)) ∧
    s1 = s)) :=
  ⟨(tMe .b32 0xffff8 0 0 0 0 .zero (.v 8) .zero .zero), tState (tPut 8 0x5008 tThread), _, (tPut 8 0x5008 tThread), .dram 0x5000 0, alone_of_check rfl rfl (by decide +kernel), ⟨rfl, by decide +kernel⟩, (by intro _ _ h; cases h), by decide +kernel, by decide +kernel, by decide +kernel, .inl ⟨ok_of_check (by decide +kernel), pair_of_snd (by decide +kernel)⟩⟩

theorem witness_fences_and_line_operations_7 : ∃ (s : State), ∃ (th : Thread), ∃ (a : Access),
    ∃ (pa c core : Nat), a.place = .dram pa c ∧ s.cacheCore th = some core ∧ a.op = .cwb 1 :=
  ⟨{ tState (tOps [tAcc (.cwb 1) (.dram 0x5000 0)]) with caches := { l0 := [(0, 9)], l1 := [(0, 9)], dirty := [⟨9, []⟩] } }, tOps [tAcc (.cwb 1) (.dram 0x5000 0)], tAcc (.cwb 1) (.dram 0x5000 0), 0x5000, 0, 0, by decide +kernel⟩

theorem witness_fences_and_line_operations_8 : ∃ (s : State), ∃ (th : Thread), ∃ (a : Access),
    ∃ (pa c core : Nat), a.place = .dram pa c ∧ s.cacheCore th = some core ∧ a.op = .cinval 0 :=
  ⟨{ tState (tOps [tAcc (.cinval 0) (.dram 0x5000 0)]) with caches := { l0 := [(0, 9)], l1 := [(0, 9)], dirty := [⟨9, []⟩] } }, tOps [tAcc (.cinval 0) (.dram 0x5000 0)], tAcc (.cinval 0) (.dram 0x5000 0), 0x5000, 0, 0, by decide +kernel⟩

theorem witness_fences_and_line_operations_9 : ∃ (s : State), ∃ (th : Thread), ∃ (a : Access),
    ∃ (pa c core : Nat), a.place = .dram pa c ∧ s.cacheCore th = some core ∧ a.op = .cinval 1 ∧
    ∃ e ∈ (s.lineEffect th a).caches.l0, e.1 / 32 = core / 32 :=
  ⟨{ tState (tOps [tAcc (.cinval 1) (.dram 0x5000 0)]) with caches := { l0 := [(0, 9)], l1 := [(0, 9)], dirty := [⟨9, []⟩] } }, tOps [tAcc (.cinval 1) (.dram 0x5000 0)], tAcc (.cinval 1) (.dram 0x5000 0), 0x5000, 0, 0, by decide +kernel, by decide +kernel, by decide +kernel, (0, 9), by decide +kernel⟩

theorem witness_fences_and_line_operations_10 : ∃ (s : State), ∃ (th : Thread), ∃ (a : Access),
    ∃ (pa c core : Nat), a.place = .dram pa c ∧ s.cacheCore th = some core ∧ a.op = .cinval 2 ∧
    ∃ e ∈ (s.lineEffect th a).caches.l0, e.1 < 512 :=
  ⟨{ tState (tOps [tAcc (.cinval 2) (.dram 0x5000 0)]) with caches := { l0 := [(0, 9)], l1 := [(0, 9)], dirty := [⟨9, []⟩] } }, tOps [tAcc (.cinval 2) (.dram 0x5000 0)], tAcc (.cinval 2) (.dram 0x5000 0), 0x5000, 0, 0, by decide +kernel, by decide +kernel, by decide +kernel, (0, 9), by decide +kernel⟩

theorem witness_fences_and_line_operations_11 : ∃ (s : State), ∃ (th : Thread), ∃ (a : Access),
    ∃ (pa c core : Nat), a.place = .dram pa c ∧ s.cacheCore th = some core ∧ a.op = .cinval 2 ∧
    ∃ e ∈ (s.lineEffect th a).caches.l1, e.1 < 16 :=
  ⟨{ tState (tOps [tAcc (.cinval 2) (.dram 0x5000 0)]) with caches := { l0 := [(0, 9)], l1 := [(0, 9)], dirty := [⟨9, []⟩] } }, tOps [tAcc (.cinval 2) (.dram 0x5000 0)], tAcc (.cinval 2) (.dram 0x5000 0), 0x5000, 0, 0, by decide +kernel, by decide +kernel, by decide +kernel, (0, 9), by decide +kernel⟩

theorem witness_fences_and_line_operations_12 : ∃ (x : Memf), ∃ (s : State), ∃ (th : Thread), Alone (.pref x) s th :=
  ⟨(tMe .b32 0xffff8 0 0 0 0 .zero (.v 8) .zero .zero), tState tThread, tThread, alone_of_check rfl rfl (by decide +kernel)⟩

theorem witness_fences_and_line_operations_13 : ∃ (s : State), ∃ (th : Thread), ∃ (a : Access), ∃ (pa c : Nat), a.place = .dram pa c ∧
    s.cacheCore th = none ∧ a.op = .cwb 1 :=
  ⟨{ tState { tThread with unit := .service, sup := true } with caches := { l0 := [(0, 9)], l1 := [(0, 9)], dirty := [⟨9, []⟩] } }, { tThread with unit := .service, sup := true }, tAcc (.cwb 1) (.dram 0x5000 0), 0x5000, 0, by decide +kernel⟩

theorem witness_fences_and_line_operations_14 : ∃ (s : State), ∃ (th : Thread), ∃ (a : Access), ∃ (pa c : Nat), a.place = .dram pa c ∧
    s.cacheCore th = none ∧ a.op = .cinval 2 ∧ ∃ e ∈ (s.lineEffect th a).caches.l0, e.1 < 512 :=
  ⟨{ tState { tThread with unit := .service, sup := true } with caches := { l0 := [(0, 9)], l1 := [(0, 9)], dirty := [⟨9, []⟩] } }, { tThread with unit := .service, sup := true }, tAcc (.cinval 2) (.dram 0x5000 0), 0x5000, 0, by decide +kernel, by decide +kernel, by decide +kernel, (0, 9), by decide +kernel⟩

theorem witness_fences_and_line_operations_15 : ∃ (s : State), ∃ (th : Thread), ∃ (a : Access), ∃ (pa c : Nat), a.place = .dram pa c ∧
    s.cacheCore th = none ∧ a.op = .cinval 2 ∧ ∃ e ∈ (s.lineEffect th a).caches.l1, e.1 < 16 :=
  ⟨{ tState { tThread with unit := .service, sup := true } with caches := { l0 := [(0, 9)], l1 := [(0, 9)], dirty := [⟨9, []⟩] } }, { tThread with unit := .service, sup := true }, tAcc (.cinval 2) (.dram 0x5000 0), 0x5000, 0, by decide +kernel, by decide +kernel, by decide +kernel, (0, 9), by decide +kernel⟩

theorem witness_fences_and_line_operations_16 : ∃ (s : State), ∃ (th : Thread), ∃ (a : Access), ∃ (pa c : Nat), a.place = .dram pa c ∧
    s.cacheCore th = none ∧ (a.op = .cwb 0 ∨ a.op = .cinval 0 ∨ a.op = .cinval 1) :=
  ⟨{ tState { tThread with unit := .service, sup := true } with caches := { l0 := [(0, 9)], l1 := [(0, 9)], dirty := [⟨9, []⟩] } }, { tThread with unit := .service, sup := true }, tAcc (.cinval 0) (.dram 0x5000 0), 0x5000, 0, by decide +kernel, by decide +kernel, .inr (.inl rfl)⟩

theorem witness_failed_accesses_trap_later_0 : ∃ (s : State), ∃ (th : Thread), ∃ (a : Access), ∃ (f : Fail),
    ∃ (at_ : Dword), s.access? s.arg.a = some (th, a) ∧ s.thread? th.id = some th ∧ a.place = .failed f at_ ∧ th.exited = false ∧
    th.halted = none ∧ s.Homely ∧ ((f.cause ≠ .fabric ∨ a.op.redSlot = none)) :=
  ⟨tAt (tOps [tAcc (.ld .b32) (.failed { cause := .prot } 0x5000)]), tOps [tAcc (.ld .b32) (.failed { cause := .prot } 0x5000)], tAcc (.ld .b32) (.failed { cause := .prot } 0x5000), { cause := .prot }, 0x5000, rfl, rfl, by decide +kernel, by decide +kernel, by decide +kernel, ⟨rfl, by decide +kernel⟩, by decide +kernel⟩

theorem witness_failed_accesses_trap_later_1 : ∃ (s : State), ∃ (th : Thread), ∃ (a : Access), ∃ (f : Fail), ∃ (at_ : Dword),
    ∃ (n : Nat), s.access? s.arg.a = some (th, a) ∧ a.place = .failed f at_ ∧ f.cause = .fabric ∧ a.op.redSlot = some n :=
  ⟨tAt (tOps [{ tAcc (.red .i32 0 5 (some 0)) (.failed { cause := .fabric } 0x5000) with dst := .zero }]), tOps [{ tAcc (.red .i32 0 5 (some 0)) (.failed { cause := .fabric } 0x5000) with dst := .zero }], { tAcc (.red .i32 0 5 (some 0)) (.failed { cause := .fabric } 0x5000) with dst := .zero }, { cause := .fabric }, 0x5000, 0, rfl, by decide +kernel⟩

theorem witness_failed_accesses_trap_later_2 : ∃ (s : State), ∃ (th : Thread), s.thread? s.arg.t = some th ∧ s.canIssue th = true ∧
    th.pend ≠ [] :=
  ⟨tAt { tThread with pend := [{ cause := .prot, pc := 0x3040 }] }, { tThread with pend := [{ cause := .prot, pc := 0x3040 }] }, rfl,
    by decide +kernel⟩

theorem witness_failed_accesses_trap_later_3 : ∃ (s s1 : State), ∃ (th : Thread), ∃ (f : Fail), ∃ (va : Dword),
    ∃ (ws : List Word), s.team = [th.id] ∧ s.thread? th.id = some th ∧ s.canIssue th = true ∧ th.pend = [] ∧
    s.fetch th th.fresh = (s1, .fault f va ws) :=
  ⟨tState { tThread with pc := 0x7F0000000000 }, _, { tThread with pc := 0x7F0000000000 }, { cause := .prot }, 0x7F0000000000, [], by decide +kernel, rfl, by decide +kernel, by decide +kernel, pair_of_snd (by decide +kernel)⟩

theorem witness_failed_accesses_trap_later_4 : ∃ (s s1 : State), ∃ (l : Launch), ∃ (f : FFlags), ∃ (rest : List FFlags),
    ∃ (e : Dword), ∃ (lv pa c : Nat), s.launch? s.arg.l = some l ∧ l.flagOrs = f :: rest ∧
    s.translate l.space (l.lr.flagWord &&& ~~~3#64) .write false = (s1, .ok e lv) ∧
    s1.physPlace e (leafPa e lv (l.lr.flagWord &&& ~~~3#64)) 4 true false = .dram pa c ∧ c ≠ 2 ∧ pa < dramEnd ∧
    (∀ l ∈ linesOf pa 4, s1.badLine l = false) ∧ s1.mem.wf = true :=
  ⟨{ tState tThread with launches := [{ tLaunch with lr := { tLaunch.lr with flagWord := 0x5000 }, flagOrs := [1] }], arg := { l := 1 } }, _, { tLaunch with lr := { tLaunch.lr with flagWord := 0x5000 }, flagOrs := [1] }, 1, [], 0x7F, 3, 0x5000, 0, rfl, by decide +kernel, pair_of_snd (by decide +kernel), by decide +kernel⟩

theorem witness_failed_accesses_trap_later_5 : ∃ (s : State), ∃ (th : Thread), s.thread? s.arg.t = some th ∧ th.unit = .device ∧
    th.recorded = false ∧ th.halted.isSome = true ∧ th.haltAt + 65536 ≤ s.cycle :=
  ⟨{ tAt { tThread with halted := some { cause := .prot, pc := 0x3040 } } with cycle := 70000 }, { tThread with halted := some { cause := .prot, pc := 0x3040 } }, rfl, by decide +kernel⟩

theorem witness_failed_accesses_trap_later_6 : ∃ (s : State), ∃ (th : Thread), s.thread? s.arg.t = some th ∧ th.unit = .device ∧
    th.recorded = false ∧ s.cycle < th.haltAt + 65536 :=
  ⟨tAt { tThread with halted := some { cause := .prot, pc := 0x3040 } }, { tThread with halted := some { cause := .prot, pc := 0x3040 } }, rfl, by decide +kernel⟩

theorem witness_failed_accesses_trap_later_7 : ∃ (s : State), ∃ (th : Thread), ∃ (tr : Trap), s.thread? s.arg.t = some th ∧
    th.hold = .trap tr :=
  ⟨tAt { tThread with hold := .trap { cause := .prot, pc := 0x3040 } }, { tThread with hold := .trap { cause := .prot, pc := 0x3040 } }, { cause := .prot, pc := 0x3040 }, rfl, by decide +kernel⟩

theorem witness_fabric_answers_and_losses_0 : ∃ (s : State), ∃ (th : Thread), ∃ (a : Access), s.access? s.arg.a = some (th, a) ∧
    a.place.far = true ∧ a.tail = none ∧ a.sent = true ∧ a.fixed = false ∧ a.half = 0 ∧ s.arg.n = 0 ∧
    let s1 : State := { s with unacked := s.unacked.filter fun u => u.2.1 != a.id }; let bs := (s.arg.data ++ List.replicate a.size 0).take a.size; s.cycle < a.born + 14000000 ∧ ∃ ty, s.arg.detail = none ∧ a.op = .ld ty ∧ a.bufs = [] :=
  ⟨tAt (tOps [{ tAcc (.ld .b32) (.remote 1 0x5000 0) with sent := true }]), tOps [{ tAcc (.ld .b32) (.remote 1 0x5000 0) with sent := true }], { tAcc (.ld .b32) (.remote 1 0x5000 0) with sent := true }, rfl, both (by decide +kernel) <| both (by decide +kernel) <| both (by decide +kernel) <| ⟨by decide +kernel, .b32, by decide +kernel⟩⟩

theorem witness_fabric_answers_and_losses_1 : ∃ (s : State), ∃ (th : Thread), ∃ (a : Access), s.access? s.arg.a = some (th, a) ∧
    a.place.far = true ∧ a.tail = none ∧ a.sent = true ∧ a.fixed = false ∧ a.half = 0 ∧ s.arg.n = 0 ∧
    let s1 : State := { s with unacked := s.unacked.filter fun u => u.2.1 != a.id }; let bs := (s.arg.data ++ List.replicate a.size 0).take a.size; s.cycle < a.born + 14000000 ∧ ∃ d, s.arg.detail = none ∧ a.op = .st d :=
  ⟨tAt (tOps [{ tAcc (.st [1, 2, 3, 4]) (.remote 1 0x5000 0) with sent := true }]), tOps [{ tAcc (.st [1, 2, 3, 4]) (.remote 1 0x5000 0) with sent := true }], { tAcc (.st [1, 2, 3, 4]) (.remote 1 0x5000 0) with sent := true }, rfl, both (by decide +kernel) <| both (by decide +kernel) <| both (by decide +kernel) <| ⟨by decide +kernel, [1, 2, 3, 4], by decide +kernel⟩⟩

theorem witness_fabric_answers_and_losses_2 : ∃ (s : State), ∃ (th : Thread), ∃ (a : Access), s.access? s.arg.a = some (th, a) ∧
    a.place.far = true ∧ a.tail = none ∧ a.sent = true ∧ a.fixed = false ∧ a.half = 0 ∧ s.arg.n = 0 ∧
    let s1 : State := { s with unacked := s.unacked.filter fun u => u.2.1 != a.id }; let bs := (s.arg.data ++ List.replicate a.size 0).take a.size; s.cycle < a.born + 14000000 ∧ ∃ ty op b c, s.arg.detail = none ∧ a.op = .atom ty op b c :=
  ⟨tAt (tOps [{ tAcc (.atom .i32 2 5 0) (.remote 1 0x5000 0) with sent := true }]), tOps [{ tAcc (.atom .i32 2 5 0) (.remote 1 0x5000 0) with sent := true }], { tAcc (.atom .i32 2 5 0) (.remote 1 0x5000 0) with sent := true }, rfl, both (by decide +kernel) <| both (by decide +kernel) <| both (by decide +kernel) <| ⟨by decide +kernel, .i32, 2, 5, 0, by decide +kernel⟩⟩

theorem witness_fabric_answers_and_losses_3 : ∃ (s : State), ∃ (th : Thread), ∃ (a : Access), s.access? s.arg.a = some (th, a) ∧
    a.place.far = true ∧ a.tail = none ∧ a.sent = true ∧ a.fixed = false ∧ a.half = 0 ∧ s.arg.n = 0 ∧
    let s1 : State := { s with unacked := s.unacked.filter fun u => u.2.1 != a.id }; let bs := (s.arg.data ++ List.replicate a.size 0).take a.size; s.cycle < a.born + 14000000 ∧ ∃ ty op b slot, s.arg.detail = none ∧ a.op = .red ty op b slot :=
  ⟨tAt (tOps [{ tAcc (.red .i32 2 5 none) (.remote 1 0x5000 0) with sent := true }]), tOps [{ tAcc (.red .i32 2 5 none) (.remote 1 0x5000 0) with sent := true }], { tAcc (.red .i32 2 5 none) (.remote 1 0x5000 0) with sent := true }, rfl, both (by decide +kernel) <| both (by decide +kernel) <| both (by decide +kernel) <| ⟨by decide +kernel, .i32, 2, 5, none, by decide +kernel⟩⟩

theorem witness_fabric_answers_and_losses_4 : ∃ (s : State), ∃ (th : Thread), ∃ (a : Access), s.access? s.arg.a = some (th, a) ∧
    a.place.far = true ∧ a.tail = none ∧ a.sent = true ∧ a.fixed = false ∧ a.half = 0 ∧ s.arg.n = 0 ∧
    let s1 : State := { s with unacked := s.unacked.filter fun u => u.2.1 != a.id }; let bs := (s.arg.data ++ List.replicate a.size 0).take a.size; s.cycle < a.born + 14000000 ∧ ∃ c, s.arg.detail = some c :=
  ⟨{ tAt (tOps [{ tAcc (.ld .b32) (.remote 1 0x5000 0) with sent := true }]) with arg := { a := 10, detail := some 2 } }, tOps [{ tAcc (.ld .b32) (.remote 1 0x5000 0) with sent := true }], { tAcc (.ld .b32) (.remote 1 0x5000 0) with sent := true }, rfl, both (by decide +kernel) <| both (by decide +kernel) <| both (by decide +kernel) <| ⟨by decide +kernel, 2, by decide +kernel⟩⟩

theorem witness_fabric_answers_and_losses_5 : ∃ (s : State), ∃ (th : Thread), ∃ (a : Access), s.access? s.arg.a = some (th, a) ∧
    a.place.far = true ∧ a.tail = none ∧ a.sent = true ∧ a.fixed = false ∧ a.half = 0 ∧ s.arg.n = 0 ∧
    let s1 : State := { s with unacked := s.unacked.filter fun u => u.2.1 != a.id }; let bs := (s.arg.data ++ List.replicate a.size 0).take a.size; a.born + 14000000 ≤ s.cycle :=
  ⟨{ tAt (tOps [{ tAcc (.ld .b32) (.remote 1 0x5000 0) with sent := true }]) with cycle := 14000000 }, tOps [{ tAcc (.ld .b32) (.remote 1 0x5000 0) with sent := true }], { tAcc (.ld .b32) (.remote 1 0x5000 0) with sent := true }, rfl, by decide +kernel, by decide +kernel, by decide +kernel, by decide +kernel, by decide +kernel, by decide +kernel, by decide +kernel⟩

theorem witness_fabric_answers_and_losses_6 : ∃ (s : State), ∃ (x : FarReq), s.access? s.arg.a = none ∧
    s.far.find? (fun x => x.id == s.arg.a) = some x ∧ x.place.far = true ∧ x.sent = true ∧ x.answer = .none ∧
    s.cycle < x.born + 14000000 ∧ s.arg.detail = none :=
  ⟨{ tAt tThread with far := [{ id := 10, owner := .module, place := .remote 1 0x5000 0, req := .read 0x5000 4, size := 4, sent := true }] }, { id := 10, owner := .module, place := .remote 1 0x5000 0, req := .read 0x5000 4, size := 4, sent := true }, by decide +kernel, rfl, by decide +kernel⟩

theorem witness_fabric_answers_and_losses_7 : ∃ (s : State), ∃ (x : FarReq), s.access? s.arg.a = none ∧
    s.far.find? (fun x => x.id == s.arg.a) = some x ∧ x.place.far = true ∧ x.sent = true ∧ x.answer = .none ∧
    s.cycle < x.born + 14000000 ∧ ∃ c, s.arg.detail = some c :=
  ⟨{ { tAt tThread with far := [{ id := 10, owner := .module, place := .remote 1 0x5000 0, req := .read 0x5000 4, size := 4, sent := true }] } with arg := { a := 10, detail := some 4 } }, { id := 10, owner := .module, place := .remote 1 0x5000 0, req := .read 0x5000 4, size := 4, sent := true }, by decide +kernel, rfl, by decide +kernel, by decide +kernel, by decide +kernel, by decide +kernel, 4, by decide +kernel⟩

theorem witness_fabric_answers_and_losses_8 : ∃ (s : State), ∃ (x : FarReq), s.access? s.arg.a = none ∧
    s.far.find? (fun x => x.id == s.arg.a) = some x ∧ x.place.far = true ∧ x.sent = true ∧ x.answer = .none ∧ x.born + 14000000 ≤ s.cycle :=
  ⟨{ { tAt tThread with far := [{ id := 10, owner := .module, place := .remote 1 0x5000 0, req := .read 0x5000 4, size := 4, sent := true }] } with cycle := 14000000 }, { id := 10, owner := .module, place := .remote 1 0x5000 0, req := .read 0x5000 4, size := 4, sent := true }, by decide +kernel, rfl, by decide +kernel⟩

theorem witness_fabric_answers_and_losses_9 : ∃ s : State, (∀ x ∈ s.threads, ∀ a ∈ x.ops, ∀ p ∈ a.pieces, remoteDev p.1 ≠ some s.arg.n) ∧ (∀ x ∈ s.far, remoteDev x.place ≠ some s.arg.n) ∧ s.arg.n ∉ s.lostPaths :=
  ⟨tState tThread, by decide +kernel⟩

theorem witness_fabric_answers_and_losses_10 : ∃ (s : State), ∃ (leaf : Dword), ∃ (pa n : Nat),
    ∃ (wr svc : Bool), leaf.getLsbD 62 = true ∧ (leaf.extractLsb' 54 8).toNat ≠ s.img.devId ∧
    s.img.members.contains (leaf.extractLsb' 54 8).toNat = true ∧ s.lostPaths.contains (leaf.extractLsb' 54 8).toNat = true :=
  ⟨{ tState tThread with img := { tImg with members := [1] }, lostPaths := [1] }, 0x4040000000000000, 0x5000, 4, false, false, by decide +kernel⟩

theorem witness_fabric_answers_and_losses_11 : ∃ (s : State), ∃ (th : Thread), ∃ (a : Access), ∃ (ty : Ty),
    ∃ (site pa c : Nat), s.access? s.arg.a = some (th, a) ∧ a.op = .ld ty ∧ a.place = .host site pa c ∧ a.tail = none ∧
    a.fixed = false ∧ s.mayRead th a = true :=
  ⟨tAt (tOps [tAcc (.ld .b32) (.host 0 0x4000000005000 0)]), tOps [tAcc (.ld .b32) (.host 0 0x4000000005000 0)], tAcc (.ld .b32) (.host 0 0x4000000005000 0), .b32, 0, 0x4000000005000, 0, rfl, by decide +kernel⟩

theorem witness_fabric_answers_and_losses_12 : ∃ (s : State), ∃ (th : Thread), ∃ (a : Access), ∃ (f : Fail),
    ∃ (ty : Ty), s.thread? th.id = some th ∧ a ∈ th.ops ∧ a.op = .ld ty :=
  ⟨tAt (tOps [{ tAcc (.ld .b32) (.remote 1 0x5000 0) with sent := true }]), tOps [{ tAcc (.ld .b32) (.remote 1 0x5000 0) with sent := true }], { tAcc (.ld .b32) (.remote 1 0x5000 0) with sent := true }, { cause := .fabric }, .b32, rfl, by decide +kernel⟩

theorem witness_joins_barriers_and_spawns_0 : ∃ (x : Arith), ∃ (s : State), ∃ (th : Thread), Alone (.join x) s th ∧
    let set := joinSet x (s.raw32 th x.toOps4 x.a); ((∀ m, set = .mask m → m.getLsbD (th.lane % 32) = true ∧
    (s.setMembers th .stage).length ≤ 128)) :=
  ⟨tAr .b32 0 0 .zero (.v 8) .zero .zero, tState tThread, tThread, alone_of_check rfl rfl (by decide +kernel),
    (by intro _ m h; have h2 : JoinSet.stage = .mask m := h; cases h2)⟩

theorem witness_joins_barriers_and_spawns_1 : ∃ (x : Arith), ∃ (s : State), ∃ (th : Thread), ∃ (m : Word), Alone (.join x) s th ∧
    joinSet x (s.raw32 th x.toOps4 x.a) = .mask m ∧ m.getLsbD (th.lane % 32) = false :=
  ⟨tAr .b32 2 0 .zero (.v 8) .zero .zero, tState tThread, tThread, 0, alone_of_check rfl rfl (by decide +kernel), by decide +kernel⟩

theorem witness_joins_barriers_and_spawns_2 : ∃ (x : Arith), ∃ (s : State), ∃ (th : Thread), Alone (.bar x) s th ∧
    s.released th 1 0 = true :=
  ⟨(tAr .b32 0x0 0 .zero .zero .zero .zero), tState tThread, tThread, alone_of_check rfl rfl (by decide +kernel), by decide +kernel⟩

theorem witness_joins_barriers_and_spawns_3 : ∃ (s : State), ∃ (th : Thread), (s.threads.map Thread.id).Nodup ∧
    s.thread? th.id = some th ∧ th.unit = .device ∧ th.exited = false ∧ s.due th = false :=
  ⟨{ tState tThread with threads := [{ tThread with hold := .join .group }, { tThread with id := 4 }] }, { tThread with hold := .join .group }, by decide +kernel, rfl, by decide +kernel⟩

theorem witness_joins_barriers_and_spawns_4 : ∃ (s : State), ∃ (th : Thread), (s.threads.map Thread.id).Nodup ∧
    s.thread? th.id = some th ∧ th.unit = .device ∧ th.exited = false ∧ s.due th = true :=
  ⟨tState { tThread with hold := .join .group }, { tThread with hold := .join .group }, by decide +kernel, rfl, by decide +kernel⟩

theorem witness_joins_barriers_and_spawns_5 : ∃ (x : Arith), ∃ (s s1 : State), ∃ (th : Thread),
    ∃ (h : List Byte), Alone (.spawn x) s th ∧ s.newId.2.released th 4 0 = true ∧
    s.newId.2.spawnCheck th (s.raw64 th x.toOps4 x.a) = (s1, .ok h) :=
  ⟨(tAr .b32 0x0 0 .zero (.v 8) (.v 12) .zero), tState (tRegs 0x6000 0x6000 0), _, (tRegs 0x6000 0x6000 0), ((tState (tRegs 0x6000 0x6000 0)).readPhys 0x6000 64), alone_of_check rfl rfl (by decide +kernel), by decide +kernel, pair_of_snd (by decide +kernel)⟩

theorem witness_joins_barriers_and_spawns_6 : ∃ (s : State), ∃ (th : Thread), ∃ (l : Launch), ∃ (n : Nat),
    ∃ (e a : Dword), (s.threads.map Thread.id).Nodup ∧ s.thread? th.id = some th ∧ th.hold = .spawn n e a ∧ th.exited = false ∧
    ((∀ y ∈ s.threads, y.id ≠ th.id → ∀ e a, y.hold ≠ .spawn n e a)) ∧ s.launchOf th = some l ∧ s.arg.t = th.id :=
  ⟨tAt { tThread with hold := .spawn 5 0x6000 1 }, { tThread with hold := .spawn 5 0x6000 1 }, tLaunch, 5, 0x6000, 1, by decide +kernel, rfl, by decide +kernel, by decide +kernel, (by intro y hy h; exact absurd (by simpa [tAt, tState] using congrArg Thread.id (List.mem_singleton.1 hy)) h), rfl, by decide +kernel⟩

theorem witness_joins_barriers_and_spawns_7 : ∃ (s : State), ∃ (th : Thread), ∃ (c : Nat), s.thread? s.arg.t = some th ∧
    th.unit = .device ∧ s.keyEntry th.key = none ∧ s.keyDue th.key = some c :=
  ⟨{ tAt { tThread with ready := some 0 } with cycle := 600 }, { tThread with ready := some 0 }, 512, rfl, by decide +kernel⟩

theorem witness_joins_barriers_and_spawns_8 : ∃ (s : State), ∃ (th : Thread), ∃ (c : Nat), s.thread? s.arg.t = some th ∧
    th.unit = .device ∧ s.keyEntry th.key = none ∧ s.keyDue th.key = none :=
  ⟨tAt tThread, tThread, 0, rfl, by decide +kernel⟩

theorem witness_joins_barriers_and_spawns_9 : ∃ (s : State), ∃ (th : Thread), ∃ (r : Nat), th ∈ s.threads ∧ th.unit = .device ∧
    th.ready = some r ∧ r + 512 ≤ s.cycle :=
  ⟨{ tAt { tThread with ready := some 0 } with cycle := 600 }, { tThread with ready := some 0 }, 0, by decide +kernel⟩

theorem witness_joins_barriers_and_spawns_10 : ∃ (s : State),
    ∃ (k : Nat × Dword × Nat), ((∀ x ∈ s.threads, x.unit = .device → x.key = k → ∀ r, x.ready = some r → s.cycle < r + 512)) :=
  ⟨tState tThread, (2, 0x3040, 0), (by intro x hx _ _ r h; simp only [tState, List.mem_singleton] at hx; subst hx; cases h)⟩

theorem witness_joins_barriers_and_spawns_11 : ∃ (s : State), ∃ (th : Thread), s.thread? s.arg.t = some th ∧ th.unit = .device ∧
    th.exited = false :=
  ⟨tAt tThread, tThread, rfl, by decide +kernel⟩

theorem witness_joins_barriers_and_spawns_12 : ∃ (s : State), ∃ (th : Thread), ∃ (since : Nat), ∃ e g h, e ∈ s.keys ∧
    (e.1, e.2.1, e.2.2.1) ≠ th.key ∧ e.2.2.1 = th.lane / 32 ∧ s.group? e.1 = some g ∧ s.group? th.group = some h ∧ g.core = h.core ∧
    e.2.2.2 + 4096 < s.cycle ∧ s.cycle ≤ since + 4096 :=
  ⟨{ tState tThread with keys := [(2, 0x3000, 0, 0)], cycle := 5000 }, tThread, 4000, (2, 0x3000, 0, 0), tGroup, tGroup, by decide +kernel, by decide +kernel, by decide +kernel, rfl, rfl, by decide +kernel⟩

theorem witness_joins_barriers_and_spawns_13 : ∃ (s : State), ∃ (th : Thread), ∃ (since : Nat), (∀ e ∈ s.keys, s.cycle ≤ e.2.2.2 + 4096) :=
  ⟨tState tThread, tThread, 0, by decide +kernel⟩

theorem witness_copies_move_their_bytes_0 : ∃ x : Desc, ∃ s th, Alone (.cpy x) s th ∧ (s.slotBad th (s.slotOperand th x) = none ∧
    1 ≤ (s.raw32 th x.toOps4 x.c).toNat ∧ (s.raw32 th x.toOps4 x.c).toNat ≤ 2 ^ 26 ∧
    s.engineRange th (s.a64 th x) (s.raw32 th x.toOps4 x.c).toNat = none ∧
    s.engineRange th (s.b64 th x) (s.raw32 th x.toOps4 x.c).toNat = none ∧ th.cnt.copies < 63) :=
  ⟨tDe 0 .zero (.v 8) (.v 10) (.v 12), tIn (tRegs 0x7F0000000000 0x5000 64) { tGroup with engine := [0] }, (tRegs 0x7F0000000000 0x5000 64), alone_of_check rfl rfl (by decide +kernel), by decide +kernel⟩

theorem witness_copies_move_their_bytes_1 : ∃ (x : Desc), ∃ (s s2 : State), ∃ (th : Thread), ∃ (r : List Byte), Alone (.cpyt x) s th ∧
    s.slotBad th (s.slotOperand th x) = none ∧
    let a := s.a64 th x; let o := (a - s.img.spBase).toNat; let c := th.spanRegs x.c 5; a.toNat % 16 = 0 ∧
    canonical (s.spaceOf th) a = true ∧ inWindow s.img.spBase a = true ∧ (s.b64 th x).toNat % 64 = 0 ∧
    inWindow s.img.stkBase (s.b64 th x) = false ∧ s.ownRead th (s.b64 th x) 64 64 true = (s2, .ok r) ∧ shapeOk r = true ∧
    ((8 ≤ (boxTy r).width ∨ coord c 0 % 32 = 0)) ∧ ((boxOutside r c = false ∨ field r 0x0A 1 ≠ 0)) ∧ s2.img = s.img ∧
    o + boxBytes r ≤ s2.scratch th ∧ s2.ownerTrap th o (boxBytes r) true = none ∧ th.cnt.copies < 63 :=
  ⟨tDe 0 .zero (.v 8) (.v 10) (.v 12), (tStore (tIn (tRegs 0x7F0000000000 0x5000 0) { tGroup with engine := [0] }) 0x5000 [0, 0, 0x1F00010C, 0, 32, 1, 1, 1, 1]), _, (tRegs 0x7F0000000000 0x5000 0), ((tStore (tIn (tRegs 0x7F0000000000 0x5000 0) { tGroup with engine := [0] }) 0x5000 [0, 0, 0x1F00010C, 0, 32, 1, 1, 1, 1]).readPhys 0x5000 64), alone_of_check rfl rfl (by decide +kernel), both (by decide +kernel) <| both (by decide +kernel) <| both (by decide +kernel) <| ⟨pair_of_snd (by decide +kernel), by decide +kernel⟩⟩

theorem witness_copies_move_their_bytes_2 : ∃ (s s1 s2 : State), ∃ (g : Group), ∃ (c : Cmd), ∃ (dst src : Dword), ∃ (k o n : Nat),
    ∃ (r : Run), ∃ (bs : List Byte), s.cmd? s.arg.a = some (g, c) ∧ c.kind = .copy dst src k ∧ c.fault = none ∧ c.tag = none ∧
    s.beforeDone c = true ∧ s.nextPiece c = some (o, n, r) ∧ s.conflicts g c (pieceTouches r) = false ∧ s.aliased g c r.src n = false ∧
    s.aliased g c r.dst n = false ∧ s.pieceRead g c.id r.src n = (s1, .ok bs) ∧ s1.pieceWrite g c.id r.dst bs = (s2, .ok ()) :=
  ⟨tIn tThread { tGroup with cmds := [tCmd (.copy 0x7F0000000000 0x5000 64) [(0, 64)]] }, _, _, { tGroup with cmds := [tCmd (.copy 0x7F0000000000 0x5000 64) [(0, 64)]] }, tCmd (.copy 0x7F0000000000 0x5000 64) [(0, 64)], 0x7F0000000000, 0x5000, 64, 0, 64, { off := 0, len := 64, dst := .spad 0, src := .glob 0x5000 }, List.replicate 64 0, rfl, both (by decide +kernel) <| both (by decide +kernel) <| both (by decide +kernel) <| both (by decide +kernel) <| ⟨pair_of_snd (by decide +kernel), pair_of_snd (by decide +kernel)⟩⟩

theorem witness_copies_move_their_bytes_3 : ∃ (s : State), ∃ (g : Group), ∃ (k o : Nat), ∃ (bs : List Byte), s.group? g.id = some g ∧
    g.spad.wf = true :=
  ⟨tState tThread, tGroup, 10, 0, [1], rfl, by decide +kernel⟩

theorem witness_copies_move_their_bytes_4 : ∃ (s : State), ∃ (g : Group), ∃ (c : Cmd), ∃ (dst src : Dword),
    ∃ (k : Nat), s.cmd? s.arg.a = some (g, c) ∧ c.kind = .copy dst src k ∧ c.left = [] ∧ c.fault = none :=
  ⟨tIn tThread { tGroup with cmds := [tCmd (.copy 0x7F0000000000 0x5000 64) []] }, { tGroup with cmds := [tCmd (.copy 0x7F0000000000 0x5000 64) []] }, tCmd (.copy 0x7F0000000000 0x5000 64) [], 0x7F0000000000, 0x5000, 64, rfl, by decide +kernel⟩

theorem witness_copies_move_their_bytes_5 : ∃ (s : State), ∃ (g : Group), ∃ (c : Cmd), ∃ (dst src : Dword),
    ∃ (k : Nat), s.cmd? s.arg.a = some (g, c) ∧ c.kind = .copy dst src k ∧ c.left ≠ [] :=
  ⟨tIn tThread { tGroup with cmds := [tCmd (.copy 0x7F0000000000 0x5000 64) [(0, 64)]] }, { tGroup with cmds := [tCmd (.copy 0x7F0000000000 0x5000 64) [(0, 64)]] }, tCmd (.copy 0x7F0000000000 0x5000 64) [(0, 64)], 0x7F0000000000, 0x5000, 64, rfl, by decide +kernel⟩

theorem witness_copies_move_their_bytes_6 : ∃ (s : State), ∃ (g : Group), ∃ (c : Cmd), ∃ (dst src : Dword),
    ∃ (k : Nat), s.cmd? s.arg.a = some (g, c) ∧ c.kind = .copy dst src k ∧ ∃ f a, c.fault = some (f, a) :=
  ⟨tIn tThread { tGroup with cmds := [{ tCmd (.copy 0x7F0000000000 0x5000 64) [(0, 64)] with fault := some ({ cause := .prot }, 0x5000) }] }, { tGroup with cmds := [{ tCmd (.copy 0x7F0000000000 0x5000 64) [(0, 64)] with fault := some ({ cause := .prot }, 0x5000) }] }, { tCmd (.copy 0x7F0000000000 0x5000 64) [(0, 64)] with fault := some ({ cause := .prot }, 0x5000) }, 0x7F0000000000, 0x5000, 64, rfl, by decide +kernel, { cause := .prot }, 0x5000, by decide +kernel⟩

theorem witness_copies_move_their_bytes_7 : ∃ (s : State), ∃ (g : Group), ∃ (c : Cmd), ∃ (th : Thread), s.thread? c.thread = some th :=
  ⟨tState tThread, tGroup, tCmd (.copy 0x7F0000000000 0x5000 64) [(0, 64)], tThread, rfl⟩

theorem witness_slots_complete_and_release_0 : ∃ (s : State), ∃ (gid n : Nat), ∃ (g : Group), ∃ (x : Slot),
    ∃ (by_ : Option Issuer), s.group? gid = some g ∧ g.slots[n]? = some x ∧ x.armed = true ∧ x.ready = false ∧ x.fault = false ∧
    x.pending = 0 ∧ x.cont = none ∧ (∀ th ∈ s.live gid, ∀ m, (∀ all pd d, th.hold ≠ .swait m all pd d) ∧
    ∀ k pd, th.hold ≠ .sacq k pd) ∧ x.remain = 1 :=
  ⟨tIn tThread (tSlotted { armed := true, target := 1, remain := 1 }), 2, 0, tSlotted { armed := true, target := 1, remain := 1 }, { armed := true, target := 1, remain := 1 }, none, rfl, both (by decide +kernel) <| both (by decide +kernel) <| both (by decide +kernel) <| ⟨(by intro th h m; have := List.mem_filter.1 h; simp only [tIn, tState, List.mem_singleton] at this; rw [this.1]; exact ⟨fun _ _ _ h => (by cases h), fun _ _ h => (by cases h)⟩), by decide +kernel⟩⟩

theorem witness_slots_complete_and_release_1 : ∃ (s : State), ∃ (gid n : Nat), ∃ (g : Group), ∃ (x : Slot),
    ∃ (by_ : Option Issuer), s.group? gid = some g ∧ g.slots[n]? = some x ∧ x.armed = true ∧ x.ready = false ∧ x.fault = false ∧
    x.pending = 0 ∧ x.cont = none ∧ (∀ th ∈ s.live gid, ∀ m, (∀ all pd d, th.hold ≠ .swait m all pd d) ∧
    ∀ k pd, th.hold ≠ .sacq k pd) ∧ 1 < x.remain.toNat :=
  ⟨tIn tThread (tSlotted { armed := true, target := 2, remain := 2 }), 2, 0, tSlotted { armed := true, target := 2, remain := 2 }, { armed := true, target := 2, remain := 2 }, none, rfl, both (by decide +kernel) <| both (by decide +kernel) <| both (by decide +kernel) <| ⟨(by intro th h m; have := List.mem_filter.1 h; simp only [tIn, tState, List.mem_singleton] at this; rw [this.1]; exact ⟨fun _ _ _ h => (by cases h), fun _ _ h => (by cases h)⟩), by decide +kernel⟩⟩

theorem witness_slots_complete_and_release_2 : ∃ (s : State), ∃ (gid n : Nat), ∃ (g : Group), ∃ (x : Slot),
    ∃ (by_ : Option Issuer), s.group? gid = some g ∧ g.slots[n]? = some x ∧ x.armed = true ∧ x.ready = false ∧ x.fault = false ∧
    x.pending = 0 ∧ x.cont = none ∧ (∀ th ∈ s.live gid, ∀ m, (∀ all pd d, th.hold ≠ .swait m all pd d) ∧
    ∀ k pd, th.hold ≠ .sacq k pd) ∧ x.remain = 0 :=
  ⟨tIn tThread (tSlotted { armed := true, target := 1, remain := 0 }), 2, 0, tSlotted { armed := true, target := 1, remain := 0 }, { armed := true, target := 1, remain := 0 }, none, rfl, both (by decide +kernel) <| both (by decide +kernel) <| both (by decide +kernel) <| ⟨(by intro th h m; have := List.mem_filter.1 h; simp only [tIn, tState, List.mem_singleton] at this; rw [this.1]; exact ⟨fun _ _ _ h => (by cases h), fun _ _ h => (by cases h)⟩), by decide +kernel⟩⟩

theorem witness_slots_complete_and_release_3 : ∃ x : Desc, ∃ s th, Alone (.slotarm x) s th ∧ (s.slotOk th (s.dst32 th x) = true ∧
    1 ≤ (s.a32 th x).toNat ∧ (s.a32 th x).toNat ≤ 65535 ∧ (s.b32 th x).toNat < 2 ^ 27 ∧
    (s.slotAt th (s.dst32 th x).toNat).armed = false ∧ th.owesArrival (s.dst32 th x).toNat = false ∧
    s.released th (s.slotAt th (s.dst32 th x).toNat).scope 0 = true) :=
  ⟨tDe 0 (.v 14) (.v 8) (.v 10) (.v 12), tState (tRegs 1 0 0), (tRegs 1 0 0), alone_of_check rfl rfl (by decide +kernel), by decide +kernel⟩

theorem witness_slots_complete_and_release_4 : ∃ x : Desc, ∃ s th, Alone (.sarrive x) s th ∧ (s.slotOk th (s.dst32 th x) = true ∧
    (s.a32 th x).toNat < 2 ^ 27 ∧ th.owesArrival (s.dst32 th x).toNat = false ∧
    s.released th (s.slotAt th (s.dst32 th x).toNat).scope 0 = true) :=
  ⟨tDe 0 (.v 14) (.v 8) (.v 10) (.v 12), tState tThread, tThread, alone_of_check rfl rfl (by decide +kernel), by decide +kernel⟩

theorem witness_slots_complete_and_release_5 : ∃ x : Desc, ∃ s th, Alone (.sacq x) s th ∧ (s.slotOk th (s.dst32 th x) = true ∧
    th.owesArrival (s.dst32 th x).toNat = false ∧ (s.slotAt th (s.dst32 th x).toNat).fault = true) :=
  ⟨tDe 0 (.v 14) (.v 8) (.v 10) (.v 12), tIn tThread (tSlotted { armed := true, fault := true }), tThread, alone_of_check rfl rfl (by decide +kernel), by decide +kernel⟩

theorem witness_slots_complete_and_release_6 : ∃ x : Desc, ∃ s th, Alone (.sacq x) s th ∧ (s.slotOk th (s.dst32 th x) = true ∧
    th.owesArrival (s.dst32 th x).toNat = true) :=
  ⟨tDe 0 (.v 14) (.v 8) (.v 10) (.v 12), tState ({ tRegs 1 0 0 with ops := [tAcc (.red .i32 0 5 (some 0)) (.dram 0x5000 0)] }), ({ tRegs 1 0 0 with ops := [tAcc (.red .i32 0 5 (some 0)) (.dram 0x5000 0)] }), alone_of_check rfl rfl (by decide +kernel), by decide +kernel⟩

theorem witness_slots_complete_and_release_7 : ∃ x : Desc, ∃ s th, Alone (.sacq x) s th ∧ (s.slotOk th (s.dst32 th x) = true ∧
    th.owesArrival (s.dst32 th x).toNat = false ∧ (s.slotAt th (s.dst32 th x).toNat).fault = false ∧
    (s.slotAt th (s.dst32 th x).toNat).ready = true ∧ s.firstSacq th.group (s.dst32 th x).toNat = none) :=
  ⟨tDe 0 (.v 14) (.v 8) (.v 10) (.v 12), tIn tThread (tSlotted { armed := true, ready := true }), tThread, alone_of_check rfl rfl (by decide +kernel), by decide +kernel⟩

theorem witness_slots_complete_and_release_8 : ∃ x : Desc, ∃ s th, Alone (.sacq x) s th ∧ (s.slotOk th (s.dst32 th x) = true ∧
    th.owesArrival (s.dst32 th x).toNat = false ∧ (s.slotAt th (s.dst32 th x).toNat).fault = false ∧
    ((s.slotAt th (s.dst32 th x).toNat).ready = false ∨ (s.firstSacq th.group (s.dst32 th x).toNat).isSome = true)) :=
  ⟨tDe 0 (.v 14) (.v 8) (.v 10) (.v 12), tIn tThread (tSlotted { armed := true }), tThread, alone_of_check rfl rfl (by decide +kernel),
    by decide +kernel⟩

theorem witness_slots_complete_and_release_9 : ∃ x : Desc, ∃ s th, Alone (.swait x) s th ∧
    (maskBad (s.slotCount th) (s.a64 th x) = none ∧
    (s.a64 th x &&& s.slotMask th (·.fault) ≠ 0 ∨ (if x.w2.getLsbD 3 then s.a64 th x &&& s.slotMask th (·.ready) ≠ 0 else s.a64 th x &&& s.slotMask th (·.ready) = s.a64 th x))) :=
  ⟨tDe 0 (.v 14) (.v 8) (.v 10) (.v 12), tIn (tRegs 1 0 0) (tSlotted { armed := true, ready := true }), (tRegs 1 0 0), alone_of_check rfl rfl (by decide +kernel), by decide +kernel⟩

theorem witness_slots_complete_and_release_10 : ∃ x : Desc, ∃ s th, Alone (.swait x) s th ∧
    (maskBad (s.slotCount th) (s.a64 th x) = none ∧ s.a64 th x &&& s.slotMask th (·.fault) = 0 ∧
    (if x.w2.getLsbD 3 then s.a64 th x &&& s.slotMask th (·.ready) = 0 else s.a64 th x &&& s.slotMask th (·.ready) ≠ s.a64 th x)) :=
  ⟨tDe 0 (.v 14) (.v 8) (.v 10) (.v 12), tIn (tRegs 1 0 0) (tSlotted { armed := true }), (tRegs 1 0 0), alone_of_check rfl rfl (by decide +kernel), by decide +kernel⟩

theorem witness_slots_complete_and_release_11 : ∃ x : Desc, ∃ s th, Alone (.sfirst x) s th ∧
    (maskBad (s.slotCount th) (s.a64 th x) = none) :=
  ⟨tDe 0 (.v 14) (.v 8) (.v 10) (.v 12), tIn (tRegs 1 0 0) (tSlotted { armed := true, ready := true }), (tRegs 1 0 0), alone_of_check rfl rfl (by decide +kernel), by decide +kernel⟩

theorem witness_slots_complete_and_release_12 : ∃ x : Desc, ∃ s th, Alone (.sreset x) s th ∧ (s.slotOk th (s.dst32 th x) = true ∧
    s.slotNamed th.group (s.dst32 th x).toNat = false) :=
  ⟨tDe 0 (.v 14) (.v 8) (.v 10) (.v 12), tIn tThread (tGroup), tThread, alone_of_check rfl rfl (by decide +kernel), by decide +kernel⟩

theorem witness_slots_complete_and_release_13 : ∃ x : Desc, ∃ s th, Alone (.sreset x) s th ∧ (s.slotOk th (s.dst32 th x) = true ∧
    s.slotNamed th.group (s.dst32 th x).toNat = true) :=
  ⟨tDe 0 (.v 14) (.v 8) (.v 10) (.v 12), tIn tThread ({ tGroup with cmds := [{ tCmd (.copy 0x7F0000000000 0x5000 64) [(0, 64)] with slot := some 0 }] }), tThread, alone_of_check rfl rfl (by decide +kernel), by decide +kernel⟩

theorem witness_slots_complete_and_release_14 : ∃ (s : State), ∃ (th : Thread), ∃ (n : Nat), s.thread? s.arg.t = some th ∧
    th.hold = .sreset n ∧ s.slotNamed th.group n = false :=
  ⟨tAt { tThread with hold := .sreset 0 }, { tThread with hold := .sreset 0 }, 0, rfl, by decide +kernel⟩

theorem witness_slots_complete_and_release_15 : ∃ (s : State), ∃ (gid n : Nat), ∃ (g : Group), s.group? gid = some g ∧
    n < g.slots.length ∧ s.live gid = [] :=
  ⟨tState { tThread with group := 7 }, 2, 0, tGroup, rfl, by decide +kernel⟩

theorem witness_slots_complete_and_release_16 : ∃ (x : Desc), ∃ (s s2 : State), ∃ (th : Thread),
    ∃ (h : List Byte), Alone (.ondone x) s th ∧ s.slotOk th (s.dst32 th x) = true ∧ s.spawnCheck th (s.a64 th x) = (s2, .ok h) ∧
    th.owesArrival (s.dst32 th x).toNat = true :=
  ⟨tDe 0 (.v 14) (.v 8) (.v 10) (.v 12), tState ({ tRegs 0x6000 0x6000 0 with ops := [{ tAcc (.red .i32 0 5 (some 0)) (.dram 0x5000 0) with fixed := true }] }), _, ({ tRegs 0x6000 0x6000 0 with ops := [{ tAcc (.red .i32 0 5 (some 0)) (.dram 0x5000 0) with fixed := true }] }), ((tState ({ tRegs 0x6000 0x6000 0 with ops := [{ tAcc (.red .i32 0 5 (some 0)) (.dram 0x5000 0) with fixed := true }] })).readPhys 0x6000 64), alone_of_check rfl rfl (by decide +kernel), by decide +kernel, pair_of_snd (by decide +kernel), by decide +kernel⟩

theorem witness_slots_complete_and_release_17 : ∃ (x : Desc), ∃ (s s2 : State), ∃ (th : Thread),
    ∃ (h : List Byte), Alone (.ondone x) s th ∧ s.slotOk th (s.dst32 th x) = true ∧ s.spawnCheck th (s.a64 th x) = (s2, .ok h) ∧
    th.owesArrival (s.dst32 th x).toNat = false ∧ (s2.slotAt th (s.dst32 th x).toNat).cont = none ∧
    (s2.slotAt th (s.dst32 th x).toNat).fault = false ∧ (((s2.slotAt th (s.dst32 th x).toNat).ready = true → s2.released th 4 0 = true)) :=
  ⟨tDe 0 (.v 14) (.v 8) (.v 10) (.v 12), tState (tRegs 0x6000 0x6000 0), _, (tRegs 0x6000 0x6000 0), ((tState (tRegs 0x6000 0x6000 0)).readPhys 0x6000 64), alone_of_check rfl rfl (by decide +kernel), by decide +kernel, pair_of_snd (by decide +kernel), by decide +kernel⟩

theorem witness_slots_complete_and_release_18 : ∃ (x : Desc), ∃ (s : State), ∃ (th : Thread), Alone (.sarrive x) s th ∧
    s.slotOk th (s.dst32 th x) = false :=
  ⟨tDe 0 (.v 14) (.v 8) (.v 10) (.v 12), tState (tPut 14 8 tThread), (tPut 14 8 tThread), alone_of_check rfl rfl (by decide +kernel),
    by decide +kernel⟩

theorem witness_slots_complete_and_release_19 : ∃ x : Desc, ∃ s th, Alone (.sarrive x) s th ∧ (s.slotOk th (s.dst32 th x) = true ∧
    (s.a32 th x).toNat < 2 ^ 27 ∧ (th.owesArrival (s.dst32 th x).toNat = true ∨ s.released th (s.slotAt th (s.dst32 th x).toNat).scope 0 = false)) :=
  ⟨tDe 0 (.v 14) (.v 8) (.v 10) (.v 12), tState ({ tRegs 1 0 0 with ops := [tAcc (.red .i32 0 5 (some 0)) (.dram 0x5000 0)] }), ({ tRegs 1 0 0 with ops := [tAcc (.red .i32 0 5 (some 0)) (.dram 0x5000 0)] }), alone_of_check rfl rfl (by decide +kernel), ⟨by decide +kernel, by decide +kernel, .inl (by decide +kernel)⟩⟩

theorem witness_blocks_and_tile_queues_0 : ∃ (x : Desc), ∃ (bs : List Nat), ∃ s th, Alone (.give x) s th ∧
    (s.blocksAt th (s.a64 th x) (s.b32 th x) = .ok bs ∧ s.released th 1 1 = true) :=
  ⟨tDe 0 .zero (.v 8) (.v 10) (.v 12), [0], tState (tRegs 0x7F0000000000 1 0), (tRegs 0x7F0000000000 1 0), alone_of_check rfl rfl (by decide +kernel), ⟨ok_of_check (by decide +kernel), by decide +kernel⟩⟩

theorem witness_blocks_and_tile_queues_1 : ∃ (x : Desc), ∃ (bs : List Nat), ∃ (g : Group), ∃ s th, Alone (.take x) s th ∧
    (x.w2.getLsbD 0 = false ∧ s.blocksAt th (s.a64 th x) (s.b32 th x) = .ok bs ∧ s.group? th.group = some g ∧
    s.cmdsWhere th.group (Cmd.inBlocks s.img.spBase (bs.filter g.engine.contains)) = [] ∧
    s.otherTakes th.group ((bs.filter g.engine.contains).filter g.taking.contains) = []) :=
  ⟨tDe 0 .zero (.v 8) (.v 10) (.v 12), [0], tGroup, tState (tRegs 0x7F0000000000 1 0), (tRegs 0x7F0000000000 1 0), alone_of_check rfl rfl (by decide +kernel), ⟨by decide +kernel, ok_of_check (by decide +kernel), rfl, by decide +kernel, by decide +kernel⟩⟩

theorem witness_blocks_and_tile_queues_2 : ∃ (x : Desc), ∃ (bs : List Nat), ∃ (g : Group), ∃ s th, Alone (.take x) s th ∧
    (x.w2.getLsbD 0 = false ∧ s.blocksAt th (s.a64 th x) (s.b32 th x) = .ok bs ∧ s.group? th.group = some g ∧
    (s.cmdsWhere th.group (Cmd.inBlocks s.img.spBase (bs.filter g.engine.contains)) ≠ [] ∨ s.otherTakes th.group ((bs.filter g.engine.contains).filter g.taking.contains) ≠ [])) :=
  ⟨tDe 0 .zero (.v 8) (.v 10) (.v 12), [0], { tGroup with engine := [0], cmds := [tCmd (.copy 0x7F0000000000 0x5000 64) [(0, 64)]] }, tIn (tRegs 0x7F0000000000 1 0) { tGroup with engine := [0], cmds := [tCmd (.copy 0x7F0000000000 0x5000 64) [(0, 64)]] }, (tRegs 0x7F0000000000 1 0), alone_of_check rfl rfl (by decide +kernel), ⟨by decide +kernel, ok_of_check (by decide +kernel), rfl, by decide +kernel⟩⟩

theorem witness_blocks_and_tile_queues_3 : ∃ x : Desc, ∃ s th, Alone (.take x) s th ∧ (x.w2.getLsbD 0 = true ∧
    s.cmdsWhere th.group Cmd.window = []) :=
  ⟨tDe 1 .zero (.v 8) (.v 10) (.v 12), tState (tRegs 0x7F0000000000 1 0), (tRegs 0x7F0000000000 1 0), alone_of_check rfl rfl (by decide +kernel), by decide +kernel⟩

theorem witness_blocks_and_tile_queues_4 : ∃ x : Desc, ∃ s th, Alone (.take x) s th ∧ (x.w2.getLsbD 0 = true ∧
    s.cmdsWhere th.group Cmd.window ≠ []) :=
  ⟨tDe 1 .zero (.v 8) (.v 10) (.v 12), tIn (tRegs 0x7F0000000000 1 0) ({ tGroup with cmds := [tCmd (.accz 0 1) []] }), (tRegs 0x7F0000000000 1 0), alone_of_check rfl rfl (by decide +kernel), by decide +kernel⟩

theorem witness_blocks_and_tile_queues_5 : ∃ (s : State), ∃ (gid : Nat), ∃ (g : Group), ∃ (c : Cmd),
    ∃ (p : Cmd → Bool), s.group? gid = some g ∧ c ∈ g.cmds ∧ p c = true :=
  ⟨tIn tThread { tGroup with engine := [0], cmds := [tCmd (.copy 0x7F0000000000 0x5000 64) [(0, 64)]] }, 2, { tGroup with engine := [0], cmds := [tCmd (.copy 0x7F0000000000 0x5000 64) [(0, 64)]] }, tCmd (.copy 0x7F0000000000 0x5000 64) [(0, 64)], fun _ => true, rfl, by decide +kernel⟩

theorem witness_blocks_and_tile_queues_6 : ∃ (s : State), ∃ (gid : Nat), ∃ (g : Group), ∃ (bs : List Nat), s.group? gid = some g :=
  ⟨tState tThread, 2, tGroup, [0], rfl⟩

theorem witness_blocks_and_tile_queues_7 : ∃ (s : State), ∃ (th : Thread), ∃ (g : Group),
    ∃ (bs cmds : List Nat), s.thread? s.arg.t = some th ∧ th.hold = .take bs cmds ∧ (s.threads.map Thread.id).Nodup ∧
    th ∈ s.live th.group ∧ s.group? th.group = some g ∧ s.retired th.group cmds = false :=
  ⟨tIn { tThread with hold := .take [0] [10] } { tGroup with engine := [0], cmds := [tCmd (.copy 0x7F0000000000 0x5000 64) [(0, 64)]] }, { tThread with hold := .take [0] [10] }, { tGroup with engine := [0], cmds := [tCmd (.copy 0x7F0000000000 0x5000 64) [(0, 64)]] }, [0], [10], rfl, by decide +kernel, by decide +kernel, by decide +kernel, rfl, by decide +kernel⟩

theorem witness_blocks_and_tile_queues_8 : ∃ (s : State), ∃ (th : Thread), ∃ (g : Group),
    ∃ (bs cmds : List Nat), s.thread? s.arg.t = some th ∧ th.hold = .take bs cmds ∧ (s.threads.map Thread.id).Nodup ∧
    th ∈ s.live th.group ∧ s.group? th.group = some g ∧ s.retired th.group cmds = true :=
  ⟨tAt { tThread with hold := .take [0] [10] }, { tThread with hold := .take [0] [10] }, tGroup, [0], [10], rfl, by decide +kernel,
    by decide +kernel, by decide +kernel, rfl, by decide +kernel⟩

theorem witness_blocks_and_tile_queues_9 : ∃ x : Desc, ∃ s th, Alone (.qinit x) s th ∧ ((s.a64 th x).toNat % 8 = 0 ∧
    canonical (s.spaceOf th) (s.a64 th x) = true ∧ inWindow s.img.spBase (s.a64 th x) = true ∧ 1 ≤ (s.b32 th x).toNat ∧
    (s.b32 th x).toNat ≤ 4096 ∧ (s.a64 th x - s.img.spBase).toNat + 8 * (s.b32 th x).toNat ≤ s.scratch th ∧
    s.ownerTrap th (s.a64 th x - s.img.spBase).toNat (8 * (s.b32 th x).toNat) false = none) :=
  ⟨tDe 0 .zero (.v 8) (.v 10) (.v 12), tState (tRegs 0x7F0000000000 4 0), (tRegs 0x7F0000000000 4 0), alone_of_check rfl rfl (by decide +kernel), by decide +kernel⟩

theorem witness_blocks_and_tile_queues_10 : ∃ (x : Desc), ∃ (s s2 : State), ∃ (th : Thread), Alone (.qpush x) s th ∧
    (s.queueAt th.group (descQueue x)).init = true ∧ s.released th 1 0 = true ∧ s.ringHeld th true = false ∧
    s.pushWaits th.group (descQueue x) = false ∧ s.pushNow th (descQueue x) (s.a64 th x) = (s2, none) :=
  ⟨(tDe 0x3 .zero (.v 8) .zero .zero), tIn tThread (tQueued 1), _, tThread, alone_of_check rfl rfl (by decide +kernel),
    by decide +kernel, by decide +kernel, by decide +kernel, by decide +kernel, pair_of_snd (by decide +kernel)⟩

theorem witness_blocks_and_tile_queues_11 : ∃ (x : Desc), ∃ (s s2 : State), ∃ (th : Thread), Alone (.qpush x) s th ∧
    (s.queueAt th.group (descQueue x)).init = true ∧ s.released th 1 0 = true ∧ s.ringHeld th true = false ∧
    s.pushWaits th.group (descQueue x) = true :=
  ⟨(tDe 0x3 .zero (.v 8) .zero .zero), tIn tThread (tQueued 4), tIn tThread (tQueued 4), tThread, alone_of_check rfl rfl (by decide +kernel), by decide +kernel⟩

theorem witness_blocks_and_tile_queues_12 : ∃ (x : Desc), ∃ (s s2 : State), ∃ (th : Thread), Alone (.qtryPush x) s th ∧
    (s.queueAt th.group (descQueue x)).init = true ∧ s.pushWaits th.group (descQueue x) = false ∧ s.ringHeld th true = false ∧
    s.released th 1 0 = true ∧ s.pushNow th (descQueue x) (s.a64 th x) = (s2, none) :=
  ⟨(tDe 0x1 .zero (.v 8) .zero .zero), tIn tThread (tQueued 1), _, tThread, alone_of_check rfl rfl (by decide +kernel),
    by decide +kernel, by decide +kernel, by decide +kernel, by decide +kernel, pair_of_snd (by decide +kernel)⟩

theorem witness_blocks_and_tile_queues_13 : ∃ (x : Desc), ∃ (s s2 : State), ∃ (th : Thread), Alone (.qtryPush x) s th ∧
    (s.queueAt th.group (descQueue x)).init = true ∧ s.pushWaits th.group (descQueue x) = true :=
  ⟨(tDe 0x1 .zero (.v 8) .zero .zero), tIn tThread (tQueued 4), tIn tThread (tQueued 4), tThread, alone_of_check rfl rfl (by decide +kernel), by decide +kernel⟩

theorem witness_blocks_and_tile_queues_14 : ∃ (x : Desc), ∃ (s s2 : State), ∃ (th : Thread), Alone (.qpop x) s th ∧
    (s.queueAt th.group (descQueue x)).init = true ∧ th.writing = false ∧ s.ringHeld th false = false ∧
    s.popWaits th.group (descQueue x) = false ∧ s.popNow th (descQueue x) x.d = (s2, none) :=
  ⟨(tDe 0x3 (.v 16) .zero .zero .zero), tIn tThread (tQueued 1), _, tThread, alone_of_check rfl rfl (by decide +kernel),
    by decide +kernel, by decide +kernel, by decide +kernel, by decide +kernel, pair_of_snd (by decide +kernel)⟩

theorem witness_blocks_and_tile_queues_15 : ∃ (x : Desc), ∃ (s s2 : State), ∃ (th : Thread), Alone (.qpop x) s th ∧
    (s.queueAt th.group (descQueue x)).init = true ∧ th.writing = false ∧ s.ringHeld th false = false ∧
    s.popWaits th.group (descQueue x) = true :=
  ⟨(tDe 0x3 (.v 16) .zero .zero .zero), tIn tThread (tQueued 0), tIn tThread (tQueued 0), tThread, alone_of_check rfl rfl (by decide +kernel), by decide +kernel⟩

theorem witness_blocks_and_tile_queues_16 : ∃ (x : Desc), ∃ (s s2 : State), ∃ (th : Thread), Alone (.qtryPop x) s th ∧
    (s.queueAt th.group (descQueue x)).init = true ∧ th.writing = false ∧ s.ringHeld th false = false ∧
    s.popWaits th.group (descQueue x) = false ∧ s.popNow th (descQueue x) x.d = (s2, none) :=
  ⟨(tDe 0x9 (.v 16) .zero .zero .zero), tIn tThread (tQueued 1), _, tThread, alone_of_check rfl rfl (by decide +kernel),
    by decide +kernel, by decide +kernel, by decide +kernel, by decide +kernel, pair_of_snd (by decide +kernel)⟩

theorem witness_blocks_and_tile_queues_17 : ∃ (x : Desc), ∃ (s s2 : State), ∃ (th : Thread), Alone (.qtryPop x) s th ∧
    (s.queueAt th.group (descQueue x)).init = true ∧ th.writing = false ∧ s.ringHeld th false = false ∧
    s.popWaits th.group (descQueue x) = true :=
  ⟨(tDe 0x9 (.v 16) .zero .zero .zero), tIn tThread (tQueued 0), tIn tThread (tQueued 0), tThread, alone_of_check rfl rfl (by decide +kernel), by decide +kernel⟩

theorem witness_blocks_and_tile_queues_18 : ∃ (s : State), ∃ (th : Thread), ∃ (g : Group), ∃ (q : Nat), ∃ (t : TQueue),
    ∃ (v : Dword), ∃ (d : Opnd), s.group? th.group = some g ∧ g.queues[q]? = some t ∧ 0 < t.cap ∧ t.head < t.cap ∧ t.count = 0 ∧
    g.spad.wf = true ∧ s.ownerTrap th (t.ring + 8 * t.head) 8 false = none :=
  ⟨tIn tThread (tQueued 0), tThread, tQueued 0, 0, { init := true, cap := 4, count := 0, ring := 256 }, 7, .v 8, rfl, by decide +kernel⟩

theorem witness_blocks_and_tile_queues_19 : ∃ (s s2 : State), ∃ (th : Thread), s.nextServed s.arg.g s.arg.n = some th ∧
    ∃ n v, th.hold = .qpush n v ∧ s.pushNow th s.arg.n v = (s2, none) :=
  ⟨{ tIn { tThread with hold := .qpush 0 7 } (tQueued 1) with arg := { g := 2 } }, _, { tThread with hold := .qpush 0 7 }, by decide +kernel, 0, 7, by decide +kernel, pair_of_snd (by decide +kernel)⟩

theorem witness_blocks_and_tile_queues_20 : ∃ (s s2 : State), ∃ (th : Thread), s.nextServed s.arg.g s.arg.n = some th ∧
    ∃ n d, th.hold = .qpop n d ∧ s.popNow th s.arg.n d = (s2, none) :=
  ⟨{ tIn { tThread with hold := .qpop 0 (.v 8) } (tQueued 1) with arg := { g := 2 } }, _, { tThread with hold := .qpop 0 (.v 8) }, by decide +kernel, 0, .v 8, by decide +kernel, pair_of_snd (by decide +kernel)⟩

theorem witness_blocks_and_tile_queues_21 : ∃ (s : State), ∃ (g n : Nat), ∃ (a b : Thread), (s.queueAt g n).init = true ∧
    s.firstWaiter g n true = some a ∧ s.firstWaiter g n false = some b ∧ 0 < (s.queueAt g n).count ∧
    (s.queueAt g n).count < (s.queueAt g n).cap :=
  ⟨{ tIn { tThread with hold := .qpush 0 7 } (tQueued 1) with threads := [{ tThread with hold := .qpush 0 7 }, { tThread with id := 4, hold := .qpop 0 (.v 8) }] }, 2, 0, { tThread with hold := .qpush 0 7 }, { tThread with id := 4, hold := .qpop 0 (.v 8) }, by decide +kernel, rfl, rfl, by decide +kernel⟩

theorem witness_blocks_and_tile_queues_22 : ∃ (s : State), ∃ (g n : Nat), ∃ (a : Thread), (s.queueAt g n).init = true ∧
    s.firstWaiter g n true = some a ∧ (s.queueAt g n).count = 0 ∧ 0 < (s.queueAt g n).cap :=
  ⟨tIn { tThread with hold := .qpush 0 7 } (tQueued 0), 2, 0, { tThread with hold := .qpush 0 7 }, by decide +kernel, rfl,
    by decide +kernel⟩

theorem witness_blocks_and_tile_queues_23 : ∃ x : Desc, ∃ s th, Alone (.qpop x) s th ∧
    ((s.queueAt th.group (descQueue x)).init = true ∧ (th.writing = true ∨ s.ringHeld th false = true)) :=
  ⟨(tDe 0x3 (.v 16) .zero .zero .zero), tIn (tOps [tAcc (.st [1, 2, 3, 4]) (.dram 0x5000 0)]) (tQueued 1), (tOps [tAcc (.st [1, 2, 3, 4]) (.dram 0x5000 0)]), alone_of_check rfl rfl (by decide +kernel), ⟨by decide +kernel, .inl (by decide +kernel)⟩⟩

theorem witness_blocks_and_tile_queues_24 : ∃ x : Desc, ∃ s th, Alone (.qpush x) s th ∧
    ((s.queueAt th.group (descQueue x)).init = true ∧ (s.ringHeld th true = true ∨ s.released th 1 0 = false)) :=
  ⟨(tDe 0x3 .zero (.v 8) .zero .zero), tIn ({ tThread with acqs := [{ waits := [9], order := {}, all := true }] }) (tQueued 1), ({ tThread with acqs := [{ waits := [9], order := {}, all := true }] }), alone_of_check rfl rfl (by decide +kernel), ⟨by decide +kernel, .inl (by decide +kernel)⟩⟩

theorem witness_harness_hitches_and_loads_b_0 : ∃ (x : Desc), ∃ (s : State), ∃ (th : Thread), ∃ (g : Group), Alone (.hitch x) s th ∧
    s.group? th.group = some g ∧ let w := (x.fld 0 3).toNat; let dp := (x.fld 4 2).toNat; s.gangSize g = 2 ^ w * 2 ^ dp ∧
    g.hdr.accwin ≠ 0 ∧ g.hdr.awin ≠ 0 ∧ g.hitched = none ∧ s.hitchWaiter g.id = none ∧ s.gangBroken g = false ∧ s.released th 2 0 = true :=
  ⟨tDe 0 .zero .zero .zero .zero, tIn tThread { tHitched with hitched := none }, tThread, { tHitched with hitched := none }, alone_of_check rfl rfl (by decide +kernel), rfl, by decide +kernel⟩

theorem witness_harness_hitches_and_loads_b_1 : ∃ (x : Desc), ∃ (s : State), ∃ (th : Thread), ∃ (g : Group), Alone (.hitch x) s th ∧
    s.group? th.group = some g ∧ let w := (x.fld 0 3).toNat; let dp := (x.fld 4 2).toNat; (s.gangSize g ≠ 2 ^ w * 2 ^ dp ∨ g.hdr.accwin = 0 ∨ g.hdr.awin = 0 ∨ g.hitched ≠ none ∨ s.hitchWaiter g.id ≠ none ∨ s.gangBroken g = true) :=
  ⟨tDe 0 .zero .zero .zero .zero, tIn tThread tHitched, tThread, tHitched, alone_of_check rfl rfl (by decide +kernel), rfl,
    by decide +kernel⟩

theorem witness_harness_hitches_and_loads_b_2 : ∃ (s : State), ∃ (gang : Nat), (∃ g ∈ s.gangGroups gang, s.hitchWaiter g.id = none) :=
  ⟨tIn tThread { tHitched with hitched := none }, 9, by decide +kernel⟩

theorem witness_harness_hitches_and_loads_b_3 : ∃ (s : State), ∃ (g : Group), ∃ (th : Thread),
    ∃ (gang : Nat), s.gangGroups gang = [g] ∧ s.group? g.id = some g ∧ s.gangSize g = 1 ∧ s.hitchWaiter g.id = some th ∧
    th.hold = .hitch 0 0 ∧ s.thread? th.id = some th :=
  ⟨tIn { tThread with hold := .hitch 0 0 } { tHitched with hitched := none }, { tHitched with hitched := none }, { tThread with hold := .hitch 0 0 }, 9, rfl, rfl, by decide +kernel, by decide +kernel, by decide +kernel, rfl⟩

theorem witness_harness_hitches_and_loads_b_4 : ∃ (x : Desc), ∃ (g : Group), ∃ s th, Alone (.unhitch x) s th ∧
    (s.group? th.group = some g ∧ g.hitched ≠ none ∧ s.unhitchPending g.id = false) :=
  ⟨tDe 0 .zero .zero .zero .zero, tHitched, tIn tThread tHitched, tThread, alone_of_check rfl rfl (by decide +kernel),
    ⟨rfl, by decide +kernel, by decide +kernel⟩⟩

theorem witness_harness_hitches_and_loads_b_5 : ∃ (s : State), ∃ (g : Group), s.group? s.arg.g = some g ∧ g.hitched ≠ none ∧
    s.gangGroups g.gang = [g] ∧ s.unhitchPending g.id = true ∧ g.cmds = [] ∧ (∀ th ∈ s.live g.id, ∀ b q, th.hold ≠ .mma b q) :=
  ⟨tIn { tThread with hold := .unhitch } tHitched, tHitched, rfl, by decide +kernel, rfl, by decide +kernel, by decide +kernel,
    (by intro th h b q; have := List.mem_filter.1 h; simp only [tIn, tState, List.mem_singleton] at this; rw [this.1]; exact fun e => (by cases e))⟩

theorem witness_harness_hitches_and_loads_b_6 : ∃ x : Desc, let sp := x.w2.getLsbD 1; ∃ s th, Alone (.bload x) s th ∧
    (s.slotBad th (s.slotOperand th x) = none ∧ s.harnessed th = true ∧ (s.b32 th x).toNat ≤ 511 ∧
    (sp = true → (s.b32 th x).toNat % 2 = 0) ∧ (s.a64 th x).toNat % 256 = 0 ∧
    s.engineRange th (s.a64 th x) (if sp then 8192 else 4096) = none ∧ th.cnt.tiles < 63) :=
  ⟨tDe 0 .zero (.v 8) (.v 10) .zero, tIn (tRegs 0x5000 0 0) tHitched, (tRegs 0x5000 0 0), alone_of_check rfl rfl (by decide +kernel),
    by decide +kernel⟩

theorem witness_harness_hitches_and_loads_b_7 : ∃ x : Desc, ∃ s th, Alone (.bswap x) s th ∧ (s.harnessed th = true ∧
    1 ≤ (s.b32 th x).toNat ∧ (s.a32 th x).toNat + (s.b32 th x).toNat ≤ 512) :=
  ⟨tDe 0 .zero (.v 8) (.v 10) .zero, tIn (tRegs 0 1 0) tHitched, (tRegs 0 1 0), alone_of_check rfl rfl (by decide +kernel),
    by decide +kernel⟩

theorem witness_harness_hitches_and_loads_b_8 : ∃ (g : Group), ∃ (f : Nat), ∃ (y : Frame), f ≠ y.index :=
  ⟨tGroup, 1, { index := 0 }, by decide +kernel⟩

theorem witness_harness_hitches_and_loads_b_9 : ∃ (x : Desc), ∃ (s : State), ∃ (th : Thread), Alone (.bswap x) s th ∧
    s.harnessed th = false :=
  ⟨tDe 0 .zero (.v 8) (.v 10) .zero, tState tThread, tThread, alone_of_check rfl rfl (by decide +kernel), by decide +kernel⟩

theorem witness_harness_hitches_and_loads_b_10 : ∃ (x : Desc), ∃ (s : State), ∃ (th : Thread), Alone (.bload x) s th ∧
    s.slotBad th (s.slotOperand th x) = none ∧ s.harnessed th = false :=
  ⟨tDe 0 .zero (.v 8) (.v 10) .zero, tState tThread, tThread, alone_of_check rfl rfl (by decide +kernel), by decide +kernel⟩

theorem witness_harness_hitches_and_loads_b_11 : ∃ (s s1 : State), ∃ (g : Group), ∃ (c : Cmd), ∃ (f : Nat), ∃ (sp hold : Bool),
    ∃ (src : Dword), ∃ (ps : List Bool), ∃ (bs : List Byte), s.cmd? s.arg.a = some (g, c) ∧ c.kind = .bload f sp hold src false ps ∧
    engineRuns g = true ∧ c.fault = none ∧ c.tag = none ∧ s.beforeDone c = true ∧ s.copyBlocked g c = false ∧
    s.conflicts g c (c.touches s.img.spBase) = false ∧ c.slot = none ∧
    s.agentRead (.cmd c.id) (s.groupSpace g) false 1 false 4 src (if sp then 8192 else 4096) = (s1, .ok bs) :=
  let ⟨_, _, h⟩ := got_ok (p := State.agentRead (tIn tThread { tHitched with cmds := [tCmd (.bload 0 false false 0x5000 false [false]) []] }) (.cmd 10) tSpace false 1 false 4 0x5000 4096) (by decide +kernel); ⟨tIn tThread { tHitched with cmds := [tCmd (.bload 0 false false 0x5000 false [false]) []] }, _, { tHitched with cmds := [tCmd (.bload 0 false false 0x5000 false [false]) []] }, tCmd (.bload 0 false false 0x5000 false [false]) [], 0, false, false, 0x5000, [false], _, rfl, both (by decide +kernel) <| both (by decide +kernel) <| both (by decide +kernel) <| both (by decide +kernel) <| h⟩

theorem witness_harness_hitches_and_loads_b_12 : ∃ (s : State), ∃ (g : Group), ∃ (c : Cmd), ∃ (n : Nat), ∃ (sp hold spad : Bool),
    ∃ (src a : Dword), ∃ (ps : List Bool), ∃ (e : Fail), s.cmd? s.arg.a = some (g, c) ∧ c.kind = .bload n sp hold src spad ps ∧
    c.fault = some (e, a) :=
  ⟨tIn tThread { tHitched with cmds := [{ tCmd (.bload 0 false false 0x5000 false [false]) [] with fault := some ({ cause := .prot }, 0x5000) }] }, { tHitched with cmds := [{ tCmd (.bload 0 false false 0x5000 false [false]) [] with fault := some ({ cause := .prot }, 0x5000) }] }, { tCmd (.bload 0 false false 0x5000 false [false]) [] with fault := some ({ cause := .prot }, 0x5000) }, 0, false, false, false, 0x5000, 0x5000, [false], { cause := .prot }, rfl, by decide +kernel⟩

theorem witness_harness_hitches_and_loads_b_13 : ∃ (s : State), ∃ (g : Group), ∃ (o : GridOp), ∃ (c : Cmd), ∃ (m : Nat),
    ∃ (q : Nat × Bool), o ∈ s.grids ∧ o.fault = none ∧ (g.id, m) ∈ o.members ∧ (g.id, q) ∈ o.planes ∧ g.readsLoad c m q = true :=
  ⟨tGridState 0 none, { tHitched with cmds := [{ tCmd (.bload 0 false false 0x5000 false [false]) [] with id := 9 }, tGridCmd] }, tGridOp 0 none, { tCmd (.bload 0 false false 0x5000 false [false]) [] with id := 9 }, 10, (0, false), by decide +kernel⟩

theorem witness_harness_hitches_and_loads_b_14 : ∃ (s : State), ∃ (gid : Nat), ∃ (c : Cmd), ∃ (th : Thread), s.thread? c.thread = some th :=
  ⟨tState tThread, 2, tCmd (.bload 0 false false 0x5000 false [false]) [], tThread, rfl⟩

theorem witness_matrix_operations_run_and_retire_0 : ∃ (x : Desc), ∃ (s : State), ∃ (th : Thread), ∃ (g : Group), Alone (.mma x) s th ∧
    s.slotBad th (s.slotOperand th x) = none ∧ s.group? th.group = some g ∧ let b := s.blockAt th x.a; s.mmaBad th g b = none ∧
    th.cnt.tiles < 63 :=
  ⟨tDe 0 .zero (.k 0) .zero .zero, tIn tThread tHitched, tThread, tHitched, alone_of_check rfl rfl (by decide +kernel),
    by decide +kernel, rfl, by decide +kernel⟩

theorem witness_matrix_operations_run_and_retire_1 : ∃ (x : Desc), ∃ (s : State), ∃ (th : Thread), ∃ (g : Group), Alone (.mma x) s th ∧
    s.slotBad th (s.slotOperand th x) = none ∧ s.group? th.group = some g ∧ let b := s.blockAt th x.a; ∃ e, s.mmaBad th g b = some e :=
  ⟨tDe 0 .zero (.k 0) .zero .zero, tIn tThread { tHitched with engine := [] }, tThread, { tHitched with engine := [] }, alone_of_check rfl rfl (by decide +kernel), by decide +kernel, rfl, { cause := .owner, addr := 0x7F0000000000, detail := 0 }, by decide +kernel⟩

theorem witness_matrix_operations_run_and_retire_2 : ∃ (x : Desc), ∃ (s : State), ∃ (th : Thread), ∃ (g : Group), Alone (.mma x) s th ∧
    s.slotBad th (s.slotOperand th x) = none ∧ s.group? th.group = some g ∧ let b := s.blockAt th x.a; g.hitched = none :=
  ⟨tDe 0 .zero (.k 0) .zero .zero, tState tThread, tThread, tGroup, alone_of_check rfl rfl (by decide +kernel), by decide +kernel, rfl,
    by decide +kernel⟩

theorem witness_matrix_operations_run_and_retire_3 : ∃ (s : State), ∃ (g : Group), (∃ y ∈ s.gangGroups g.gang, s.mmaWaiter y.id = none) :=
  ⟨tIn tThread tHitched, tHitched, by decide +kernel⟩

theorem witness_matrix_operations_run_and_retire_4 : ∃ (s : State), ∃ (g : Group), ∃ (h : Hitched), ∃ (th : Thread),
    ∃ (b : List Byte), ∃ (slot : Option Nat), s.gangGroups g.gang = [g] ∧ s.group? g.id = some g ∧ g.hitched = some h ∧
    s.mmaWaiter g.id = some th ∧ th.hold = .mma b slot ∧ s.thread? th.id = some th ∧ copiesOk g (parseParams b) (2 ^ h.dp) = true :=
  ⟨tIn { tThread with hold := .mma tBlockBytes none } { tHitched with frames := [{ index := 0, plane0 := { st := .valid }, plane1 := { st := .valid } }] }, { tHitched with frames := [{ index := 0, plane0 := { st := .valid }, plane1 := { st := .valid } }] }, { w := 0, dp := 0 }, { tThread with hold := .mma tBlockBytes none }, tBlockBytes, none, rfl, rfl, by decide +kernel, by decide +kernel, by decide +kernel, rfl, by decide +kernel⟩

theorem witness_matrix_operations_run_and_retire_5 : ∃ (s : State), ∃ (g : Group), ∃ (h : Hitched), ∃ (th : Thread),
    ∃ (b : List Byte), ∃ (slot : Option Nat), s.gangGroups g.gang = [g] ∧ s.group? g.id = some g ∧ g.hitched = some h ∧
    s.mmaWaiter g.id = some th ∧ th.hold = .mma b slot ∧ s.thread? th.id = some th ∧ copiesOk g (parseParams b) (2 ^ h.dp) = false :=
  ⟨tIn { tThread with hold := .mma tBlockBytes none } tHitched, tHitched, { w := 0, dp := 0 }, { tThread with hold := .mma tBlockBytes none }, tBlockBytes, none, rfl, rfl, by decide +kernel, by decide +kernel, by decide +kernel, rfl, by decide +kernel⟩

theorem witness_matrix_operations_run_and_retire_6 : ∃ (s s1 : State), ∃ (o : GridOp), ∃ (b0 : Nat × List Byte),
    ∃ (bs0 : List (Nat × List Byte)), ∃ (m0 : Group × Cmd), ∃ (ms0 : List (Group × Cmd)), ∃ (h : Hitched),
    ∃ (l : List (List Byte)), s.grids.find? (fun q => q.id == s.arg.a) = some o ∧ o.blocks = b0 :: bs0 ∧ s.opMembers o = m0 :: ms0 ∧
    m0.1.hitched = some h ∧ let p := parseParams b0.2; let w := 2 ^ h.w; let dp := 2 ^ h.dp; let r1 := if s.arg.n = 0 then p.m else min p.m (o.rows + 8 * s.arg.n); let rd := s.rowReads o p w dp o.rows r1; o.fault = none ∧ o.pass < p.passes dp ∧ s.halting m0.1 = false ∧ (m0 :: ms0).all (s.memberReady o p o.rows r1) = true ∧ s.handleReads o.id (rd.1 ++ rd.2.1 ++ rd.2.2) = (s1, .ok l) :=
  ⟨tGridState 0 none, _, tGridOp 0 none, (2, tBlockBytes), [], ({ tHitched with cmds := [tGridCmd] }, tGridCmd), [], { w := 0, dp := 0 }, [List.replicate 256 0], rfl, by decide +kernel, rfl, by decide +kernel, by decide +kernel, by decide +kernel, by decide +kernel, by decide +kernel, pair_of_snd (ok_of_check (by decide +kernel))⟩

theorem witness_matrix_operations_run_and_retire_7 : ∃ (s : State), ∃ (o : GridOp), ∃ (p q : Params), ∃ (dp x m c : Nat),
    ∃ (sa : List Byte), ∃ (cols : List (List (Option Nat) × List Byte)), ∃ (g : Group), s.cellGroup o x (dp - 1) = some (g, q) ∧
    s.group? g.id = some g ∧ g.acc.wf = true ∧ c < 16 :=
  ⟨tGridState 0 none, tGridOp 0 none, parseParams tBlockBytes, parseParams tBlockBytes, 1, 0, 0, 15, [], [], { tHitched with cmds := [tGridCmd] }, by decide +kernel, rfl, by decide +kernel⟩

theorem witness_matrix_operations_run_and_retire_8 : ∃ (p : Params), ∃ (sa sb : List Byte), ∃ (old : Nat),
    ∃ (xs ys : List Nat), p.acci = true ∧ xs.length = p.l ∧ ys.length = p.l :=
  ⟨parseParams tBlockBytes, [], [], 0, List.replicate 32 1, List.replicate 32 1, by decide +kernel⟩

theorem witness_matrix_operations_run_and_retire_9 : ∃ (s : State), ∃ (op m r1 : Nat), ∃ (o : GridOp), s.grids = [o] ∧ o.id = op :=
  ⟨tGridState 0 none, 10, 1, 1, tGridOp 0 none, by decide +kernel⟩

theorem witness_matrix_operations_run_and_retire_10 : ∃ (s : State),
    ∃ (o : GridOp), s.grids.find? (fun q => q.id == s.arg.a) = some o ∧ o.fault = none ∧ (∀ m ∈ s.opMembers o, engineRuns m.1 = true) ∧
    (∃ m ∈ s.opMembers o, ∃ op b dp x z, m.2.kind = .grid op b dp x z ∧ (parseParams b).passes dp ≤ o.pass) :=
  ⟨tGridState 1 none, tGridOp 1 none, rfl, by decide +kernel, by decide +kernel,
    ⟨({ tHitched with cmds := [tGridCmd] }, tGridCmd), (by decide +kernel), 10, tBlockBytes, 1, 0, 0, rfl, by decide +kernel⟩⟩

theorem witness_matrix_operations_run_and_retire_11 : ∃ (s : State),
    ∃ (o : GridOp), s.grids.find? (fun q => q.id == s.arg.a) = some o ∧ o.fault = none ∧ (∀ m ∈ s.opMembers o, engineRuns m.1 = true) ∧
    ((∀ m ∈ s.opMembers o, ∀ op b dp x z, m.2.kind = .grid op b dp x z → o.pass < (parseParams b).passes dp)) :=
  ⟨tGridState 0 none, tGridOp 0 none, rfl, by decide +kernel, by decide +kernel,
    (by intro m hm op b dp x z e; rw [show (tGridState 0 none).opMembers (tGridOp 0 none) = [({ tHitched with cmds := [tGridCmd] }, tGridCmd)] from by decide +kernel, List.mem_singleton] at hm; subst hm; cases e; decide +kernel)⟩

theorem witness_matrix_operations_run_and_retire_12 : ∃ (s : State), ∃ (o : GridOp), ∃ (f : Fail),
    ∃ (a : Dword), s.grids.find? (fun q => q.id == s.arg.a) = some o ∧ o.fault = some (f, a) ∧
    (∀ m ∈ s.opMembers o, engineRuns m.1 = true) :=
  ⟨tGridState 0 (some ({ cause := .prot }, 0x5000)), tGridOp 0 (some ({ cause := .prot }, 0x5000)), { cause := .prot }, 0x5000, rfl,
    by decide +kernel⟩

theorem witness_matrix_operations_run_and_retire_13 : ∃ (s : State),
    ∃ (o : GridOp), s.grids.find? (fun q => q.id == s.arg.a) = some o ∧ o.fault = none ∧ (∀ m ∈ s.opMembers o, m.2.fault = none) :=
  ⟨tGridState 0 none, tGridOp 0 none, rfl, by decide +kernel⟩

theorem witness_matrix_operations_run_and_retire_14 : ∃ (s : State), ∃ (o : GridOp), ∃ (g : Group), (∃ m, (g.id, m) ∈ o.members) ∧
    s.group? g.id = some g :=
  ⟨tGridState 1 none, tGridOp 1 none, { tHitched with cmds := [tGridCmd] }, ⟨10, by decide⟩, rfl⟩

theorem witness_accumulator_zero_and_load_0 : ∃ (g : Group), ∃ (r0 n row c : Nat), g.acc.wf = true ∧ c < 16 :=
  ⟨tGroup, 0, 2, 1, 15, by decide +kernel⟩

theorem witness_accumulator_zero_and_load_1 : ∃ (g : Group), ∃ (a r0 n row c : Nat), g.acc.wf = true ∧ c < 16 :=
  ⟨tGroup, 0, 0, 2, 1, 15, by decide +kernel⟩

theorem witness_accumulator_zero_and_load_2 : ∃ (s : State), ∃ (g : Group), ∃ (c : Cmd),
    ∃ (a r0 n k : Nat), s.cmd? s.arg.a = some (g, c) ∧ c.kind = .accld a r0 n ∧ c.slot = some k ∧ c.fault = none ∧
    engineRuns g = true ∧ s.beforeDone c = true ∧ s.conflicts g c (c.touches s.img.spBase) = false :=
  ⟨tIn tThread { tHitched with cmds := [{ tCmd (.accld 0 0 2) [] with slot := some 3 }] }, { tHitched with cmds := [{ tCmd (.accld 0 0 2) [] with slot := some 3 }] }, { tCmd (.accld 0 0 2) [] with slot := some 3 }, 0, 0, 2, 3, rfl, by decide +kernel⟩

theorem witness_accumulator_commands_issue_and_retire_0 : ∃ x : Desc, ∃ s th, Alone (.accz x) s th ∧
    (s.accBad th none (s.b32 th x).toNat (s.rowCount th x) false none = none ∧ th.cnt.tiles < 63) :=
  ⟨tDe 0 .zero (.v 8) (.v 10) (.v 12), tIn (tRegs 0x7F0000000000 0 1) tHitched, (tRegs 0x7F0000000000 0 1), alone_of_check rfl rfl (by decide +kernel), by decide +kernel⟩

theorem witness_accumulator_commands_issue_and_retire_1 : ∃ x : Desc, ∃ s th, Alone (.accld x) s th ∧
    (s.accBad th (s.slotOperand th x) (s.b32 th x).toNat (s.rowCount th x) false (some (s.a64 th x, 64 * s.rowCount th x)) = none ∧
    th.cnt.tiles < 63) :=
  ⟨tDe 0 .zero (.v 8) (.v 10) (.v 12), tIn (tRegs 0x7F0000000000 0 1) tHitched, (tRegs 0x7F0000000000 0 1), alone_of_check rfl rfl (by decide +kernel), by decide +kernel⟩

theorem witness_accumulator_commands_issue_and_retire_2 : ∃ x : Desc, ∃ s th, Alone (.accst x) s th ∧
    (s.accBad th (s.slotOperand th x) (s.b32 th x).toNat (s.rowCount th x) (accstUneven (s.rowCount th x) x.w2) (some (s.a64 th x, accstLen (s.rowCount th x) x.w2)) = none ∧ th.cnt.tiles < 63) :=
  ⟨tDe 0 .zero (.v 8) (.v 10) (.v 12), tIn (tRegs 0x7F0000000000 0 1) tHitched, (tRegs 0x7F0000000000 0 1), alone_of_check rfl rfl (by decide +kernel), by decide +kernel⟩

theorem witness_accumulator_commands_issue_and_retire_3 : ∃ (s : State), ∃ (g : Group), ∃ (c : Cmd), s.cmd? s.arg.a = some (g, c) ∧
    ((∃ r0 n, c.kind = .accz r0 n) ∨ (∃ a r0 n, c.kind = .accld a r0 n) ∨ (∃ a r0 n w2, c.kind = .accst a r0 n w2)) ∧
    engineRuns g = true ∧ s.beforeDone c = true ∧ s.conflicts g c (c.touches s.img.spBase) = false ∧ ∃ f a, c.fault = some (f, a) :=
  ⟨tIn tThread { tHitched with cmds := [{ tCmd (.accz 0 2) [] with fault := some ({ cause := .machine }, 0) }] }, { tHitched with cmds := [{ tCmd (.accz 0 2) [] with fault := some ({ cause := .machine }, 0) }] }, { tCmd (.accz 0 2) [] with fault := some ({ cause := .machine }, 0) }, rfl, Or.inl ⟨0, 2, rfl⟩, by decide +kernel, by decide +kernel, by decide +kernel, { cause := .machine }, 0, by decide +kernel⟩

theorem witness_accumulator_commands_issue_and_retire_4 : ∃ (s : State), ∃ (g : Group), ∃ (c : Cmd), s.cmd? s.arg.a = some (g, c) ∧
    ((∃ r0 n, c.kind = .accz r0 n) ∨ (∃ a r0 n, c.kind = .accld a r0 n) ∨ (∃ a r0 n w2, c.kind = .accst a r0 n w2)) ∧
    engineRuns g = true ∧ s.beforeDone c = true ∧ s.conflicts g c (c.touches s.img.spBase) = false ∧ c.fault = none ∧ c.slot = none :=
  ⟨tIn tThread { tHitched with cmds := [tCmd (.accz 0 2) []] }, { tHitched with cmds := [tCmd (.accz 0 2) []] }, tCmd (.accz 0 2) [], rfl, Or.inl ⟨0, 2, rfl⟩, by decide +kernel⟩

theorem witness_accumulator_commands_issue_and_retire_5 : ∃ (g : Group), ∃ (a r0 n row c : Nat), ∃ (w2 : Word), accstDt w2 = .b32 ∧
    w2.getLsbD 1 = false ∧ accstPitch w2 = 64 ∧ g.spad.wf = true ∧ row < n ∧ c < 16 :=
  ⟨tGroup, 0, 0, 2, 1, 15, 0, by decide +kernel⟩

theorem witness_traversal_issues_and_ends_0 : ∃ (x : Desc), ∃ (s s1 : State), ∃ (th : Thread),
    ∃ (rec : List Byte), Alone (.trace x) s th ∧ s.released th 4 0 = true ∧ s.ownRead th (s.a64 th x) 64 64 false = (s1, .ok rec) ∧
    s1.badRayRecord rec = true :=
  ⟨tDe 0 .zero (.v 8) .zero .zero, tTree (tState (tPut 8 0x7040 tThread)), _, (tPut 8 0x7040 tThread), ((tTree (tState (tPut 8 0x7040 tThread))).readPhys 0x7040 64), alone_of_check rfl rfl (by decide +kernel), by decide +kernel, pair_of_snd (by decide +kernel), by decide +kernel⟩

theorem witness_traversal_issues_and_ends_1 : ∃ (x : Desc), ∃ (s s1 : State), ∃ (th : Thread),
    ∃ (rec : List Byte), Alone (.trace x) s th ∧ s.released th 4 0 = true ∧ s.ownRead th (s.a64 th x) 64 64 false = (s1, .ok rec) ∧
    ∃ s2 h, s1.badRayRecord rec = false ∧ s1.spawnCheck th (dword rec 0x30) = (s2, .ok h) :=
  ⟨tDe 0 .zero (.v 8) .zero .zero, tTree (tState (tPut 8 0x7000 tThread)), _, (tPut 8 0x7000 tThread), ((tTree (tState (tPut 8 0x7000 tThread))).readPhys 0x7000 64), alone_of_check rfl rfl (by decide +kernel), by decide +kernel, pair_of_snd (by decide +kernel), _, ((tTree (tState (tPut 8 0x7000 tThread))).readPhys 0x6000 64), by decide +kernel, pair_of_snd (by decide +kernel)⟩

theorem witness_traversal_issues_and_ends_2 : ∃ (x : Desc), ∃ (s s1 : State), ∃ (th : Thread),
    ∃ (d : List Byte), Alone (.pairs x) s th ∧ s.released th 4 0 = true ∧ s.ownRead th (s.a64 th x) 128 128 false = (s1, .ok d) ∧
    s1.badPairDesc d = true :=
  ⟨tDe 0 .zero (.v 8) .zero .zero, tTree (tState (tPut 8 0x7180 tThread)), _, (tPut 8 0x7180 tThread), ((tTree (tState (tPut 8 0x7180 tThread))).readPhys 0x7180 128), alone_of_check rfl rfl (by decide +kernel), by decide +kernel, pair_of_snd (by decide +kernel), by decide +kernel⟩

theorem witness_traversal_issues_and_ends_3 : ∃ (x : Desc), ∃ (s s1 : State), ∃ (th : Thread),
    ∃ (d : List Byte), Alone (.pairs x) s th ∧ s.released th 4 0 = true ∧ s.ownRead th (s.a64 th x) 128 128 false = (s1, .ok d) ∧
    ∃ s2 s3 h h2, s1.badPairDesc d = false ∧ s1.spawnCheck th (dword d 0x30) = (s2, .ok h) ∧
    s2.spawnCheck th (dword d 0x38) = (s3, .ok h2) :=
  ⟨tDe 0 .zero (.v 8) .zero .zero, tTree (tState (tPut 8 0x7100 tThread)), _, (tPut 8 0x7100 tThread), ((tTree (tState (tPut 8 0x7100 tThread))).readPhys 0x7100 128), alone_of_check rfl rfl (by decide +kernel), by decide +kernel, pair_of_snd (by decide +kernel), _, _, ((tTree (tState (tPut 8 0x7100 tThread))).readPhys 0x6000 64), ((tTree (tState (tPut 8 0x7100 tThread))).readPhys 0x6000 64), by decide +kernel, pair_of_snd (by decide +kernel), pair_of_snd (by decide +kernel)⟩

theorem witness_traversal_issues_and_ends_4 : ∃ (s : State), ∃ (th : Thread), ∃ (l : Launch), ∃ (rec : List Byte), s.launchOf th = some l :=
  ⟨tState tThread, tThread, tLaunch, [], rfl⟩

theorem witness_traversal_issues_and_ends_5 : ∃ (s : State), ∃ (th : Thread), ∃ (rec : List Byte),
    ∃ (a : Dword), s.thread? s.arg.t = some th ∧ th.hold = .trace rec a :=
  ⟨tAt { tThread with hold := .trace [] 5 }, { tThread with hold := .trace [] 5 }, [], 5, rfl, by decide +kernel⟩

theorem witness_traversal_issues_and_ends_6 : ∃ (s : State), ∃ (th : Thread), ∃ (d : List Byte),
    ∃ (a : Dword), s.thread? s.arg.t = some th ∧ th.hold = .pairs d a :=
  ⟨tAt { tThread with hold := .pairs [] 5 }, { tThread with hold := .pairs [] 5 }, [], 5, rfl, by decide +kernel⟩

theorem witness_traversal_issues_and_ends_7 : ∃ (s : State), ∃ (r : Ray), ∃ (l : Launch), ∃ (c : Cand), s.ray? s.arg.a = some r ∧
    s.launch? r.launch = some l ∧ r.ended = false ∧ r.tag = none ∧ r.prog = none ∧ s.programs r.cluster < 8 ∧ s.isloadWaits = false ∧
    let x := s.runRay l r s.arg.n; x.stop = some (.need c) :=
  ⟨tRayState tRay, tRay, tLaunch, tCandidate, rfl, rfl, by decide +kernel, by decide +kernel, by decide +kernel, by decide +kernel,
    by decide +kernel, by decide +kernel⟩

theorem witness_traversal_issues_and_ends_8 : ∃ (s : State), ∃ (th : Thread), s.thread? s.arg.t = some th ∧ th.unit = .intersection ∧
    th.halted = none :=
  ⟨tProgState tProgram, tProgram, rfl, by decide +kernel⟩

theorem witness_traversal_issues_and_ends_9 : ∃ (s s1 : State), ∃ (r : Ray), ∃ (l : Launch), ∃ (status reason : Nat),
    ∃ (addr : Dword), s.ray? s.arg.a = some r ∧ s.launch? r.launch = some l ∧ r.ended = false ∧ r.tag = none ∧ r.prog = none ∧
    r.deny = none ∧ let x := s.runRay l r s.arg.n; rayStatus x = some (status, reason, addr) ∧
    (∀ c path, x.stop ≠ some (.deferred c path)) ∧
    x.rd.s.writePieces (.walk r.id) l none (dword r.record 0x28) (resultPieces r.id r.record status reason addr x.best none) = (s1, .ok ()) :=
  ⟨{ tRayState { tRay with record := List.replicate 64 0 } with tlb := [{ asid := 0, page := 0, entry := 0x400000000007F, level := 3 }], hostUp := [true, true], oracle := List.replicate 8 1 }, _, { tRay with record := List.replicate 64 0 }, tLaunch, 3, 0, Config.rayField 10 4, rfl, rfl, by decide +kernel, by decide +kernel, by decide +kernel, by decide +kernel, rfl, (by intro c p h; have h2 : some RayStop.badRay = some (.deferred c p) := h; cases h2), pair_of_snd (by decide +kernel)⟩

theorem witness_traversal_issues_and_ends_10 : ∃ (s : State), ∃ (w : PairWalk), ∃ (l : Launch), ∃ (x : PairRun),
    ∃ (e : Emit), s.walks.find? (fun w => w.id == s.arg.a) = some w ∧ s.launch? w.launch = some l ∧ s.walking w = true ∧
    w.stop = none ∧ s.runPairs l w s.arg.n = some x ∧ x.stop = some (.pair e) :=
  let ⟨_, h, h2⟩ := some_of_check (o := (tWalkState tWalk).runPairs tLaunch tWalk 0) (fun x => decide (x.stop = some (.pair { x := 0x8080, y := 0x8080, self := true, idx := 0, idy := 0, path := [0] }))) (by decide +kernel); ⟨tWalkState tWalk, tWalk, tLaunch, _, { x := 0x8080, y := 0x8080, self := true, idx := 0, idy := 0, path := [0] }, rfl, rfl, by decide +kernel, by decide +kernel, h, (of_decide_eq_true h2)⟩

theorem witness_traversal_issues_and_ends_11 : ∃ (s s1 s2 : State), ∃ (w : PairWalk), ∃ (l : Launch), ∃ (e : Emit),
    ∃ (cs : List Byte), w.deny = none ∧ s.walkRead (.walk w.id) l (w.addr + 0x48) 4 = (s1, .ok cs) ∧
    (w.emitted - word cs 0).toNat < field w.desc 0x28 4 ∧
    let at_ : Dword := dword w.desc 0x18 + BitVec.ofNat 64 (32 * (w.emitted.toNat % field w.desc 0x28 4)); s1.writePieces (.walk w.id) l none at_ [(0, pairBytes e w.seq)] = (s2, .ok ()) :=
  ⟨tWalkState tWalk, _, _, tWalk, tLaunch, { x := 0x8080, y := 0x8080, self := true, idx := 0, idy := 0, path := [0] }, [0, 0, 0, 0], by decide +kernel, pair_of_snd (by decide +kernel), by decide +kernel, pair_of_snd (by decide +kernel)⟩

theorem witness_traversal_issues_and_ends_12 : ∃ (s : State), ∃ (w : PairWalk), ∃ (l : Launch),
    ∃ (p : PairStop), s.walks.find? (fun w => w.id == s.arg.a) = some w ∧ s.launch? w.launch = some l ∧ s.walking w = true ∧
    w.stop = some p :=
  ⟨tWalkState { tWalk with stop := some { status := 1 } }, { tWalk with stop := some { status := 1 } }, tLaunch, { status := 1 }, rfl,
    rfl, by decide +kernel⟩

theorem witness_intersection_programs_report_0 : ∃ (x : Desc), ∃ (r : Ray), ∃ (c : Cand), ∃ s th, Alone (.isray x) s th ∧
    (s.candOf th = some (r, c)) :=
  ⟨(tDe 0x0 (.v 16) .zero .zero .zero), { tRay with cand := some tCandidate, prog := some 3 }, tCandidate, tProgState tProgram, tProgram, alone_of_check rfl rfl (by decide +kernel), by decide +kernel⟩

theorem witness_intersection_programs_report_1 : ∃ (x : Desc), ∃ (r : Ray), ∃ (c : Cand), ∃ s th, Alone (.iscand x) s th ∧
    (s.candOf th = some (r, c)) :=
  ⟨(tDe 0x0 (.v 16) .zero .zero .zero), { tRay with cand := some tCandidate, prog := some 3 }, tCandidate, tProgState tProgram, tProgram, alone_of_check rfl rfl (by decide +kernel), by decide +kernel⟩

theorem witness_intersection_programs_report_2 : ∃ (s : State), ∃ (th : Thread), ∃ (b : BitVec 8),
    ∃ (ws : List Word), s.thread? th.id = some th ∧ b.toNat + ws.length ≤ 255 :=
  ⟨tState tThread, tThread, 8, [1, 2], rfl, by decide +kernel⟩

theorem witness_intersection_programs_report_3 : ∃ (x : Desc), ∃ (s : State), ∃ (th : Thread), Alone (.isacc x) s th :=
  ⟨(tDe 0x0 .zero (.v 8) (.v 12) .zero), tProgState tProgram, tProgram, alone_of_check rfl rfl (by decide +kernel)⟩

theorem witness_intersection_programs_report_4 : ∃ (x : Desc), ∃ (s : State), ∃ (th : Thread), Alone (.isend x) s th :=
  ⟨(tDe 0x0 .zero (.v 8) (.v 12) .zero), tProgState tProgram, tProgram, alone_of_check rfl rfl (by decide +kernel)⟩

theorem witness_intersection_programs_report_5 : ∃ (x : Desc), ∃ (s : State), ∃ (th : Thread), Alone (.isrej x) s th :=
  ⟨(tDe 0x0 .zero .zero .zero .zero), tProgState tProgram, tProgram, alone_of_check rfl rfl (by decide +kernel)⟩

theorem witness_intersection_programs_report_6 : ∃ (s : State), ∃ (th : Thread), ∃ (r : Ray),
    ∃ (v : Verdict), s.ray? th.group = some r ∧ r.prog = some th.id :=
  ⟨tProgState tProgram, tProgram, { tRay with cand := some tCandidate, prog := some 3 }, .rej, rfl, by decide +kernel⟩

theorem witness_intersection_programs_report_7 : ∃ x : Desc, ∃ s th, Alone (.isload x) s th ∧ ((s.a64 th x).toNat % 256 = 0 ∧
    256 ≤ (s.b32 th x).toNat ∧ (s.b32 th x).toNat ≤ 16384 ∧ (s.b32 th x).toNat % 4 = 0 ∧ s.islock = false) :=
  ⟨tDe 0 .zero (.v 8) (.v 10) .zero, tState (tPut 8 0xD000 (tPut 10 256 { tThread with unit := .service, sup := true, alloc := 256 })), (tPut 8 0xD000 (tPut 10 256 { tThread with unit := .service, sup := true, alloc := 256 })), alone_of_check rfl rfl (by decide +kernel), by decide +kernel⟩

theorem witness_intersection_programs_report_8 : ∃ (x : Desc), ∃ (s : State), ∃ (th : Thread), Alone (.isload x) s th ∧
    (s.a64 th x).toNat % 256 = 0 ∧ 256 ≤ (s.b32 th x).toNat ∧ (s.b32 th x).toNat ≤ 16384 ∧ (s.b32 th x).toNat % 4 = 0 ∧ s.islock = true :=
  ⟨tDe 0 .zero (.v 8) (.v 10) .zero, { tState (tPut 8 0xD000 (tPut 10 256 { tThread with unit := .service, sup := true, alloc := 256 })) with islock := true }, (tPut 8 0xD000 (tPut 10 256 { tThread with unit := .service, sup := true, alloc := 256 })), alone_of_check rfl rfl (by decide +kernel), by decide +kernel⟩

theorem witness_intersection_programs_report_9 : ∃ (s s1 : State), ∃ (th : Thread), ∃ (a : Dword), ∃ (n : Nat), ∃ (lock : Bool),
    ∃ (bs : List Byte), s.thread? s.arg.t = some th ∧ th.hold = .isload a n lock ∧ (∀ y ∈ s.threads, y.unit ≠ .intersection) ∧
    s.islock = false ∧ s.ownRead th a n 256 true = (s1, .ok bs) :=
  ⟨tIslState, _, { tThread with unit := .service, sup := true, alloc := 256, hold := .isload 0xD000 256 false }, 0xD000, 256, false, List.replicate 256 0, rfl, by decide +kernel, by decide +kernel, by decide +kernel, pair_of_snd (by decide +kernel)⟩

theorem witness_sample_groups_open_post_and_close_0 : ∃ (x : Desc), ∃ (s s1 s2 : State), ∃ (th : Thread), ∃ (pa c : Nat),
    ∃ (h : List Byte), Alone (.sgfork x) s th ∧
    let a := s.a64 th x; let n := s.b32 th x; let entry := s.raw64 th x.toOps4 x.c; a.toNat % 512 = 0 ∧
    canonical (s.spaceOf th) a = true ∧ 1 ≤ n.toNat ∧ n.toNat ≤ 64 ∧ s.sgPlace th a .write = (s1, .home pa c) ∧
    (s.spawnCheck th entry).2 ≠ .later ∧ s1.spawnCheck th entry = (s2, .ok h) ∧ s.released th 4 0 = true ∧ s2.released th 4 0 = true :=
  ⟨tDe 0 .zero (.v 8) (.v 10) (.v 12), tTree (tState (tPut 8 0xB000 (tPut 10 2 (tPut 12 0x6000 tThread)))), _, _, (tPut 8 0xB000 (tPut 10 2 (tPut 12 0x6000 tThread))), 0xB000, 0, ((tTree (tState (tPut 8 0xB000 (tPut 10 2 (tPut 12 0x6000 tThread))))).readPhys 0x6000 64), alone_of_check rfl rfl (by decide +kernel), by decide +kernel, by decide +kernel, by decide +kernel, by decide +kernel, pair_of_snd (by decide +kernel), by decide +kernel, pair_of_snd (by decide +kernel), by decide +kernel⟩

theorem witness_sample_groups_open_post_and_close_1 : ∃ (s s1 : State), ∃ (th : Thread), ∃ (l : Launch), ∃ (a entry : Dword),
    ∃ (pa c n : Nat), ∃ (h : List Byte), s.thread? s.arg.t = some th ∧ th.hold = .sgfork a pa c n entry false ∧
    s.launchOf th = some l ∧ s.forksAfter th = false ∧ (s.timers.filter fun e => (s.home e.pa).1 == (s.home pa).1).length < 512 ∧
    let s0 := s.sgLate pa; let d := s0.readPhys pa 512; s0.sgLost pa = false ∧ s0.sgBad d = true :=
  ⟨tTree (tAt { tThread with hold := .sgfork 0xC000 0xC000 0 2 0x6000 false }), tTree (tAt { tThread with hold := .sgfork 0xC000 0xC000 0 2 0x6000 false }), { tThread with hold := .sgfork 0xC000 0xC000 0 2 0x6000 false }, tLaunch, 0xC000, 0x6000, 0xC000, 0, 2, [], rfl, by decide +kernel, rfl, by decide +kernel, by decide +kernel, by decide +kernel⟩

theorem witness_sample_groups_open_post_and_close_2 : ∃ (s s1 : State), ∃ (th : Thread), ∃ (l : Launch), ∃ (a entry : Dword),
    ∃ (pa c n : Nat), ∃ (h : List Byte), s.thread? s.arg.t = some th ∧ th.hold = .sgfork a pa c n entry false ∧
    s.launchOf th = some l ∧ s.forksAfter th = false ∧ (s.timers.filter fun e => (s.home e.pa).1 == (s.home pa).1).length < 512 ∧
    let s0 := s.sgLate pa; let d := s0.readPhys pa 512; s0.sgLost pa = false ∧ s0.sgBad d = false ∧
    s0.walkRead (.thread th.id) l (dword d 0x38) 64 = (s1, .ok h) ∧ spawnHeaderOk (dword d 0x38) h = true :=
  ⟨tTree (tAt { tThread with hold := .sgfork 0xB000 0xB000 0 2 0x6000 false }), _, { tThread with hold := .sgfork 0xB000 0xB000 0 2 0x6000 false }, tLaunch, 0xB000, 0x6000, 0xB000, 0, 2, ((tTree (tState tThread)).readPhys 0x6000 64), rfl, by decide +kernel, rfl, by decide +kernel, by decide +kernel, by decide +kernel, by decide +kernel, pair_of_snd (by decide +kernel), by decide +kernel⟩

theorem witness_sample_groups_open_post_and_close_3 : ∃ (s : State), ∃ (th : Thread), ∃ (l : Launch), ∃ (a entry : Dword),
    ∃ (n : Nat), s.launch? l.id = some l ∧ l.waiting = [] :=
  ⟨tState tThread, tThread, tLaunch, 0, 0, 1, rfl, by decide +kernel⟩

theorem witness_sample_groups_open_post_and_close_4 : ∃ (x : Desc), ∃ (s s1 : State), ∃ (th : Thread),
    ∃ (pa c : Nat), Alone (.sgpost x) s th ∧ s.Homely ∧ (∀ a n, th.region ≠ .opened a n) ∧ th.cnt.loads < 63 ∧
    acqHolds th (.dram 0 0) = false ∧ parkedBy th { rel := true, agent := 4 } = false ∧
    s.newId.2.sgPlace th (s.a64 th x &&& ~~~0x1FF#64) .write = (s1, .home pa c) :=
  ⟨(tDe 0x0 (.v 16) (.v 8) (.v 12) .zero), tTree (tState (tPut 8 0xB000 tThread)), _, (tPut 8 0xB000 tThread), 0xB000, 0, alone_of_check rfl rfl (by decide +kernel), ⟨rfl, by decide +kernel⟩, (by intro _ _ h; cases h), by decide +kernel, by decide +kernel, by decide +kernel, pair_of_snd (by decide +kernel)⟩

theorem witness_sample_groups_open_post_and_close_5 : ∃ (x : Desc), ∃ (s s1 : State), ∃ (th : Thread),
    ∃ (pa c : Nat), Alone (.sgcancel x) s th ∧ s.Homely ∧ (∀ a n, th.region ≠ .opened a n) ∧ th.cnt.loads < 63 ∧
    acqHolds th (.dram 0 0) = false ∧ parkedBy th { rel := true, agent := 4 } = false ∧
    s.newId.2.sgPlace th (s.a64 th x &&& ~~~0x1FF#64) .write = (s1, .home pa c) :=
  ⟨(tDe 0x0 (.v 16) (.v 8) .zero .zero), tTree (tState (tPut 8 0xB000 tThread)), _, (tPut 8 0xB000 tThread), 0xB000, 0, alone_of_check rfl rfl (by decide +kernel), ⟨rfl, by decide +kernel⟩, (by intro _ _ h; cases h), by decide +kernel, by decide +kernel, by decide +kernel, pair_of_snd (by decide +kernel)⟩

theorem witness_sample_groups_open_post_and_close_6 : ∃ (x : Desc), ∃ (s s1 : State), ∃ (th : Thread),
    ∃ (pa c : Nat), Alone (.sgcancelAll x) s th ∧ s.Homely ∧ (∀ a n, th.region ≠ .opened a n) ∧ th.cnt.loads < 63 ∧
    acqHolds th (.dram 0 0) = false ∧ parkedBy th { rel := true, agent := 4 } = false ∧
    s.newId.2.sgPlace th (s.a64 th x &&& ~~~0x1FF#64) .write = (s1, .home pa c) :=
  ⟨(tDe 0x1 (.v 16) (.v 8) .zero .zero), tTree (tState (tPut 8 0xB000 tThread)), _, (tPut 8 0xB000 tThread), 0xB000, 0, alone_of_check rfl rfl (by decide +kernel), ⟨rfl, by decide +kernel⟩, (by intro _ _ h; cases h), by decide +kernel, by decide +kernel, by decide +kernel, pair_of_snd (by decide +kernel)⟩

theorem witness_sample_groups_open_post_and_close_7 : ∃ (x : Desc), ∃ (s s1 : State), ∃ (th : Thread),
    ∃ (pa c : Nat), Alone (.sgstat x) s th ∧ s.Homely ∧ (∀ a n, th.region ≠ .opened a n) ∧ th.cnt.loads < 63 ∧
    acqHolds th (.dram 0 0) = false ∧ s.newId.2.sgPlace th (s.a64 th x &&& ~~~0x1FF#64) .read = (s1, .home pa c) :=
  ⟨(tDe 0x0 (.v 16) (.v 8) .zero .zero), tTree (tState (tPut 8 0xB000 tThread)), _, (tPut 8 0xB000 tThread), 0xB000, 0, alone_of_check rfl rfl (by decide +kernel), ⟨rfl, by decide +kernel⟩, (by intro _ _ h; cases h), by decide +kernel, by decide +kernel, pair_of_snd (by decide +kernel)⟩

theorem witness_sample_groups_open_post_and_close_8 : ∃ (s : State), ∃ (th : Thread), ∃ (a : Access), ∃ (k i pa c : Nat),
    ∃ (w : Word), s.access? s.arg.a = some (th, a) ∧ a.op = .sg k i w ∧ a.place = .dram pa c ∧ a.fixed = false ∧
    s.mayWrite th a = true ∧ s.sgLost pa = false ∧ ((∀ e ∈ s.timers, e.pa = pa → e.stale = false)) :=
  ⟨tTree (tAt (tOps [tAcc (.sg 0 1 5) (.dram 0xB000 0)])), tOps [tAcc (.sg 0 1 5) (.dram 0xB000 0)], tAcc (.sg 0 1 5) (.dram 0xB000 0), 0, 1, 0xB000, 0, 5, rfl, by decide +kernel⟩

theorem witness_sample_groups_open_post_and_close_9 : ∃ (s : State), ∃ (pa i j c : Nat), ∃ (w : Word), pa + 512 ≤ dramEnd ∧
    s.mem.wf = true ∧ field (s.readPhys pa 512) 4 1 = 1 ∧ i < siblings (s.readPhys pa 512) ∧ j < siblings (s.readPhys pa 512) ∧ i ≠ j ∧
    sibState (s.readPhys pa 512) i = 0 ∧ sibState (s.readPhys pa 512) j = 0 :=
  ⟨tStore (tTree (tState tThread)) 0xB000 [0x02000001, 1], 0xB000, 0, 1, 0, 5, by decide +kernel⟩

theorem witness_sample_groups_open_post_and_close_10 : ∃ (s : State), ∃ (pa i c : Nat), ∃ (w : Word), field (s.readPhys pa 512) 4 1 ≠ 1 :=
  ⟨tTree (tState tThread), 0xB000, 1, 0, 5, by decide +kernel⟩

theorem witness_sample_groups_open_post_and_close_11 : ∃ (s : State),
    ∃ (e : SgEntry), s.timers.find? (fun e => e.id == s.arg.a) = some e ∧ e.closing = false ∧ e.ended = false ∧ e.stale = false ∧
    e.limit ≠ 0 :=
  ⟨{ tTree (tAt tThread) with timers := [{ id := 10, pa := 0xB000, va := 0xB000, launch := 1, timer := 0, limit := 5 }] }, { id := 10, pa := 0xB000, va := 0xB000, launch := 1, timer := 0, limit := 5 }, rfl, by decide +kernel⟩

theorem witness_sample_groups_open_post_and_close_12 : ∃ (s : State),
    ∃ (e : SgEntry), s.timers.find? (fun e => e.id == s.arg.a) = some e ∧ e.closing = false ∧ e.ended = false ∧ e.stale = false ∧
    e.limit = 0 :=
  ⟨{ tTree (tAt tThread) with timers := [{ id := 10, pa := 0xB000, va := 0xB000, launch := 1, timer := 0, limit := 0 }] }, { id := 10, pa := 0xB000, va := 0xB000, launch := 1, timer := 0, limit := 0 }, rfl, by decide +kernel⟩

theorem witness_sample_groups_open_post_and_close_13 : ∃ (s : State),
    ∃ (e : SgEntry), s.timers.find? (fun e => e.id == s.arg.a) = some e ∧ e.closing = false ∧ e.ended = false ∧ e.stale = false ∧
    s.sgDead e.pa = false :=
  ⟨{ tTree (tAt tThread) with timers := [{ id := 10, pa := 0xB000, va := 0xB000, launch := 1, timer := 0, limit := 5 }] }, { id := 10, pa := 0xB000, va := 0xB000, launch := 1, timer := 0, limit := 5 }, rfl, by decide +kernel⟩

theorem witness_sample_groups_open_post_and_close_14 : ∃ (s : State), ∃ (e : SgEntry), s.sgLost e.pa = false :=
  ⟨{ tTree (tAt tThread) with timers := [{ id := 10, pa := 0xB000, va := 0xB000, launch := 1, timer := 0, limit := 5 }] }, { id := 10, pa := 0xB000, va := 0xB000, launch := 1, timer := 0, limit := 5 }, by decide +kernel⟩

theorem witness_sample_groups_open_post_and_close_15 : ∃ (s : State), ∃ (pa cause c : Nat), ∃ (e : SgEntry), s.sgAt pa = some e :=
  ⟨{ tTree (tAt tThread) with timers := [{ id := 10, pa := 0xB000, va := 0xB000, launch := 1, timer := 0, limit := 5 }] }, 0xB000, 2, 0, { id := 10, pa := 0xB000, va := 0xB000, launch := 1, timer := 0, limit := 5 }, by decide +kernel⟩

theorem witness_sample_groups_open_post_and_close_16 : ∃ (s : State), ∃ (e : SgEntry),
    ∃ (l : Launch), s.timers.find? (fun e => e.id == s.arg.a) = some e ∧ s.launch? e.launch = some l ∧ e.closing = true ∧
    e.ended = false ∧ e.stale = false ∧ e.tag = none ∧ e.adv = [] ∧ e.ok = true ∧ s.sgDead e.pa = false ∧
    let s2 := s.sgWrite e.pa 4 (toBytes 1 e.status) e.cache; s2.sgLost e.pa = false ∧
    let s3 := s2.insertEvent l.id { entry := dword (s2.readPhys e.pa 512) 0x38, arg := e.va, origin := .engine, src := e.id }; ((∀ l3, s3.launch? l.id = some l3 → ∀ p ∈ l3.waiting, p.src ≠ e.id)) :=
  ⟨{ tTree (tAt tThread) with timers := [{ id := 10, pa := 0xB000, va := 0xB000, launch := 1, timer := 0, limit := 5, closing := true, status := 2, ok := true }] }, { id := 10, pa := 0xB000, va := 0xB000, launch := 1, timer := 0, limit := 5, closing := true, status := 2, ok := true }, tLaunch, rfl, rfl, both (by decide +kernel) <| both (by decide +kernel) <| both (by decide +kernel) <| both (by decide +kernel) <| (by intro _; exact all_some (by decide +kernel))⟩

theorem witness_groups_and_launches_start_and_end_0 : ∃ (s s1 : State), ∃ (x : Gang), ∃ (nd : Need),
    ∃ (cs : List Nat), s.nextGang = (s1, some (x, nd, cs)) :=
  ⟨{ tState tThread with gangs := [{ id := 10, launch := 1 }], arg := { t := 3, a := 10, g := 2, l := 1 } }, _, { id := 10, launch := 1 }, { hdr := tHdr, n := 0, count := 1 }, [1], pair_of_snd (by decide +kernel)⟩

theorem witness_groups_and_launches_start_and_end_1 : ∃ s s1 : State, s.nextGang = (s1, none) :=
  ⟨tState tThread, _, pair_of_snd (by decide +kernel)⟩

theorem witness_groups_and_launches_start_and_end_2 : ∃ (s : State), ∃ (l : Launch), ∃ (x : Gang), ∃ (idx core : Nat), ∃ i t, i < 4 ∧
    t < l.hdr.threads.getD i 0 :=
  ⟨tState tThread, tLaunch, { id := 10, launch := 1 }, 0, 0, 0, 0, by decide +kernel⟩

theorem witness_groups_and_launches_start_and_end_3 : ∃ (s : State), ∃ (x : Gang), x ∈ s.gangs ∧ x.id = s.arg.a ∧ x.reserve.isSome = true :=
  ⟨{ tState tThread with gangs := [{ id := 10, launch := 1, reserve := some 0 }], arg := { t := 3, a := 10, g := 2, l := 1 } }, { id := 10, launch := 1, reserve := some 0 }, by decide +kernel⟩

theorem witness_groups_and_launches_start_and_end_4 : ∃ (s s1 : State), ∃ (x : Gang), ∃ (l : Launch),
    ∃ (b : List Byte), s.gangs.find? (fun x => x.id == s.arg.a && !x.spawned.isEmpty) = some x ∧ s.launch? x.launch = some l ∧
    l.state = .live ∧ x.tag = none ∧ s.sideRead (.walk x.id) l x.entry 64 = (s1, .ok b) ∧ spawnHeaderOk x.entry b = false :=
  ⟨{ tState tThread with gangs := [{ id := 10, launch := 1, entry := 0x5000, spawned := [{ entry := 0x5000, arg := 1, origin := .spawn }] }], arg := { t := 3, a := 10, g := 2, l := 1 } }, _, { id := 10, launch := 1, entry := 0x5000, spawned := [{ entry := 0x5000, arg := 1, origin := .spawn }] }, tLaunch, List.replicate 64 0, rfl, rfl, by decide +kernel, by decide +kernel, pair_of_snd (by decide +kernel), by decide +kernel⟩

theorem witness_groups_and_launches_start_and_end_5 : ∃ (s s1 : State), ∃ (x : Gang), ∃ (l : Launch),
    ∃ (b : List Byte), s.gangs.find? (fun x => x.id == s.arg.a && !x.spawned.isEmpty) = some x ∧ s.launch? x.launch = some l ∧
    l.state = .live ∧ x.tag = none ∧ s.sideRead (.walk x.id) l x.entry 64 = (s1, .ok b) ∧
    ∃ s2 nd core rest, spawnHeaderOk x.entry b = true ∧ s1.nextGang = (s2, some (x, nd, core :: rest)) :=
  ⟨{ tState tThread with gangs := [{ id := 10, launch := 1, entry := 0x6000, spawned := [{ entry := 0x6000, arg := 1, origin := .spawn }] }], arg := { t := 3, a := 10, g := 2, l := 1 } }, _, { id := 10, launch := 1, entry := 0x6000, spawned := [{ entry := 0x6000, arg := 1, origin := .spawn }] }, tLaunch, ((tState tThread).readPhys 0x6000 64), rfl, rfl, by decide +kernel, by decide +kernel, pair_of_snd (by decide +kernel), _, { hdr := { threads := [32, 0, 0, 0], regs := [4, 0, 0, 0] }, n := 1, count := 1 }, 0, [], by decide +kernel, pair_of_snd (by decide +kernel)⟩

theorem witness_groups_and_launches_start_and_end_6 : ∃ (ps : List PendThread), ∃ (h : Header), ∃ (gid quad code first i : Nat),
    ∃ (p : PendThread), ps[i]? = some p :=
  ⟨[{ entry := 0x6000, arg := 1, origin := .spawn }], tHdr, 2, 0, 0, 0, 0, { entry := 0x6000, arg := 1, origin := .spawn }, by decide +kernel⟩

theorem witness_groups_and_launches_start_and_end_7 : ∃ (s : State), ∃ (l : Launch), ∃ (b : Bin), s.launch? s.arg.l = some l ∧
    l.bins.find? (fun b => b.opened == s.arg.a) = some b ∧
    (l.pausedAt.isSome = true ∨ s.cycle ≤ b.timer + (if l.lr.binTimer = 0 then 2048 else l.lr.binTimer)) :=
  ⟨{ tState tThread with launches := [{ tLaunch with bins := [{ entry := 0x6000, threads := [{ entry := 0x6000, arg := 1, origin := .spawn }], opened := 10 }] }], cycle := 100, arg := { t := 3, a := 10, g := 2, l := 1 } }, { tLaunch with bins := [{ entry := 0x6000, threads := [{ entry := 0x6000, arg := 1, origin := .spawn }], opened := 10 }] }, { entry := 0x6000, threads := [{ entry := 0x6000, arg := 1, origin := .spawn }], opened := 10 }, rfl, rfl, by decide +kernel⟩

theorem witness_groups_and_launches_start_and_end_8 : ∃ (s : State), ∃ (l : Launch), ∃ (b : Bin), s.launch? s.arg.l = some l ∧
    l.bins.find? (fun b => b.opened == s.arg.a) = some b ∧ l.pausedAt = none ∧
    b.timer + (if l.lr.binTimer = 0 then 2048 else l.lr.binTimer) < s.cycle :=
  ⟨{ tState tThread with launches := [{ tLaunch with bins := [{ entry := 0x6000, threads := [{ entry := 0x6000, arg := 1, origin := .spawn }], opened := 10 }] }], cycle := 3000, arg := { t := 3, a := 10, g := 2, l := 1 } }, { tLaunch with bins := [{ entry := 0x6000, threads := [{ entry := 0x6000, arg := 1, origin := .spawn }], opened := 10 }] }, { entry := 0x6000, threads := [{ entry := 0x6000, arg := 1, origin := .spawn }], opened := 10 }, rfl, rfl, by decide +kernel⟩

theorem witness_groups_and_launches_start_and_end_9 : ∃ (s : State), ∃ (l : Launch), ∃ (p : PendThread),
    ∃ (rest : List PendThread), s.launch? s.arg.l = some l ∧ l.waiting = p :: rest ∧
    ((∀ b ∈ l.bins, ∀ y ∈ b.threads, y.stored = true ∨ y.lost = true)) :=
  ⟨{ tState tThread with launches := [{ tLaunch with waiting := [{ entry := 0x6000, arg := 1, origin := .spawn }] }], arg := { t := 3, a := 10, g := 2, l := 1 } }, { tLaunch with waiting := [{ entry := 0x6000, arg := 1, origin := .spawn }] }, { entry := 0x6000, arg := 1, origin := .spawn }, [], rfl, by decide +kernel⟩

theorem witness_groups_and_launches_start_and_end_10 : ∃ (s s1 : State), ∃ (l : Launch), ∃ (p : PendThread), s.launch? l.id = some l ∧
    (l.bins.flatMap (·.threads)).find? (fun p => !p.stored && !p.lost) = some p ∧
    s.sideWrite (.side l.id 2) l (l.lr.poolAddr + BitVec.ofNat 64 (16 * p.index)) (toBytes 8 p.entry.toNat ++ toBytes 8 p.arg.toNat) = (s1, .ok ()) :=
  ⟨{ tState tThread with launches := [{ tLaunch with bins := [{ entry := 0x6000, threads := [{ entry := 0x6000, arg := 1, origin := .spawn , stored := false }], opened := 10 }] }], arg := { t := 3, a := 10, g := 2, l := 1 } }, _, { tLaunch with bins := [{ entry := 0x6000, threads := [{ entry := 0x6000, arg := 1, origin := .spawn , stored := false }], opened := 10 }] }, { entry := 0x6000, arg := 1, origin := .spawn , stored := false }, rfl, rfl, pair_of_snd (by decide +kernel)⟩

theorem witness_groups_and_launches_start_and_end_11 : ∃ (s : State), ∃ (g : Group), s.group? s.arg.g = some g ∧ g.over = true ∧
    g.cmds = [] :=
  ⟨{ tState tThread with groups := [{ tGroup with res := .ended }], arg := { t := 3, a := 10, g := 2, l := 1 } }, { tGroup with res := .ended }, rfl, by decide +kernel⟩

theorem witness_groups_and_launches_start_and_end_12 : ∃ (s : State), ∃ (l : Launch), s.launch? s.arg.l = some l ∧ l.state = .live ∧
    s.launchQuiet l = true ∧ l.queue < s.queues.length :=
  ⟨{ tState tThread with groups := [], arg := { t := 3, a := 10, g := 2, l := 1 } }, tLaunch, rfl, by decide +kernel⟩

theorem witness_groups_and_launches_start_and_end_13 : ∃ (s : State), ∃ (l : Launch), s.launch? s.arg.l = some l ∧ l.state = .ending ∧
    l.queue < s.queues.length ∧ l.records = [] ∧ (∀ y ∈ s.far, y.owner ≠ .gone l.id) ∧
    ((∀ th ∈ s.threads, th.unit = .device → th.ops ≠ [] → ∀ g ∈ s.groups, g.id = th.group → g.launch ≠ l.id)) :=
  ⟨{ tState tThread with launches := [{ tLaunch with state := .ending }], arg := { t := 3, a := 10, g := 2, l := 1 } }, { tLaunch with state := .ending }, rfl, by decide +kernel⟩

theorem witness_groups_and_launches_start_and_end_14 : ∃ (s : State), ∃ (l : Launch), s.launch? s.arg.l = some l ∧ l.state = .done ∧
    l.records = [] ∧ l.flagOrs = [] ∧ (∀ g ∈ s.groups, g.launch ≠ l.id) :=
  ⟨{ tState tThread with launches := [{ tLaunch with state := .done }], groups := [], arg := { t := 3, a := 10, g := 2, l := 1 } }, { tLaunch with state := .done }, rfl, by decide +kernel⟩

theorem witness_groups_and_launches_start_and_end_15 : ∃ (s : State), ∃ (l : Launch), s.launch? s.arg.l = some l ∧ l.state = .ending ∧
    l.records ≠ [] ∧ l.tag = none :=
  ⟨{ tState tThread with launches := [{ tLaunch with state := .ending, records := [[0]] }], arg := { t := 3, a := 10, g := 2, l := 1 } }, { tLaunch with state := .ending, records := [[0]] }, rfl, by decide +kernel⟩

theorem witness_groups_and_launches_start_and_end_16 : ∃ (s : State), ∃ (l : Launch), s.launch? s.arg.l = some l ∧ l.state = .ending ∧
    (∃ y ∈ s.far, y.owner = .gone l.id) ∧ l.records = [] :=
  ⟨{ tState tThread with launches := [{ tLaunch with state := .ending }], far := [{ id := 10, owner := .gone 1, place := .remote 1 0x5000 0, req := .read 0x5000 4, size := 4, sent := true }], arg := { t := 3, a := 10, g := 2, l := 1 } }, { tLaunch with state := .ending }, rfl, by decide +kernel⟩

theorem witness_groups_and_launches_start_and_end_17 : ∃ (s : State), ∃ (g : Group), s.group? s.arg.g = some g ∧
    ((g.res = .saved ∨ g.res = .evicted)) ∧ s.live g.id = [] ∧ g.cmds = [] ∧ (∀ x ∈ g.slots, x.cont = none) ∧
    ((∀ th ∈ s.threads, th.unit = .device → th.group = g.id → th.ops = [])) :=
  ⟨{ tState tThread with groups := [{ tGroup with res := .saved }], threads := [], arg := { t := 3, a := 10, g := 2, l := 1 } }, { tGroup with res := .saved }, rfl, .inl rfl, by decide +kernel⟩

theorem witness_groups_save_restore_and_evict_0 : ∃ (s : State), ∃ (l : Launch), s.launch? s.arg.l = some l ∧ l.state = .saving ∧
    (∀ th ∈ s.threads, th.halted = none) ∧ (∀ e ∈ s.timers, e.launch ≠ l.id) ∧ (s.groups.map (·.id)).Nodup ∧
    (s.threads.map Thread.id).Nodup ∧ l.queue < s.queues.length :=
  ⟨{ tState tThread with launches := [{ tLaunch with state := .saving }], arg := { t := 3, a := 10, g := 2, l := 1 } }, { tLaunch with state := .saving }, rfl, by decide +kernel⟩

theorem witness_groups_save_restore_and_evict_1 : ∃ (s : State), ∃ (n : Nat), ∃ (a : Dword),
    ∃ (th : Thread), s.thread? th.id = some th ∧ th.region = .opened a n ∧ (th.ops.map Access.id).Nodup :=
  ⟨tState { tThread with region := .opened 0x3000 5 }, 5, 0x3000, { tThread with region := .opened 0x3000 5 }, rfl, by decide +kernel⟩

theorem witness_groups_save_restore_and_evict_2 : ∃ (s : State), ∃ (th : Thread), (s.threads.map Thread.id).Nodup ∧
    s.thread? th.id = some th ∧ (∀ a n, th.region ≠ .opened a n) ∧ (∀ n, th.hold ≠ .yield_ n) :=
  ⟨tState tThread, tThread, by decide +kernel, rfl, (by intro _ _ h; cases h), (by intro _ h; cases h)⟩

theorem witness_groups_save_restore_and_evict_3 : ∃ (s s1 : State), ∃ (x : Gang), ∃ (nd : Need), ∃ (gid core : Nat),
    ∃ (g : Group), s.nextGang = (s1, some (x, nd, [core])) ∧ x.saved = [gid] ∧ s1.group? gid = some g ∧ g.mail = [] :=
  ⟨{ tState tThread with gangs := [{ id := 9, launch := 1, saved := [2] }], groups := [{ tGroup with res := .saved }], arg := { t := 3, a := 10, g := 2, l := 1 } }, _, { id := 9, launch := 1, saved := [2] }, { hdr := tHdr, n := 0, count := 1 }, 2, 0, { tGroup with res := .saved }, pair_of_snd (by decide +kernel), by decide +kernel, rfl, by decide +kernel⟩

theorem witness_groups_save_restore_and_evict_4 : ∃ (s : State), ∃ (g : Group), ∃ (h : Hitched), s.group? s.arg.g = some g ∧
    g.hitched = some h ∧ s.halting g = true :=
  ⟨{ tIn tThread { tHitched with res := .saved, cmds := [tGridCmd] } with grids := [tGridOp 0 none] }, { tHitched with res := .saved, cmds := [tGridCmd] }, { w := 0, dp := 0 }, rfl, by decide +kernel⟩

theorem witness_groups_save_restore_and_evict_5 : ∃ (s : State), ∃ (base : Dword), ∃ (g : Group), ∃ (h : Hitched), ∃ (c : Cmd),
    ∃ (o o2 : GridOp), ∃ (b : List Byte), g.hitched = some h ∧ h.w < 16 ∧ h.dp < 16 ∧ o.rows < 65536 ∧ 0 < (parseParams b).kc ∧
    o.pass * (parseParams b).kc * 2 ^ h.dp < 2 ^ 32 ∧ o2 ∈ s.grids ∧ o2.id = o.id :=
  ⟨tGridState 0 none, 0, tHitched, { w := 0, dp := 0 }, tGridCmd, tGridOp 0 none, tGridOp 0 none, tBlockBytes, by decide +kernel⟩

theorem witness_groups_save_restore_and_evict_6 : ∃ (s : State), ∃ (g : Group), s.group? s.arg.g = some g ∧
    let gs := (s.gangGroups g.gang).filter fun y => !y.over; let back := (gs.filter fun y => y.res == .restoring).map (·.id); let s1 := back.foldl (fun s i => s.reloadGroup i) s; back ≠ [] ∧ ((∀ y ∈ gs, y.res = .restoring ∨ y.res = .running)) ∧ (∀ i ∈ back, s1.reloadWaits i = false) :=
  ⟨tIn tThread { tHitched with res := .restoring }, { tHitched with res := .restoring }, rfl, by decide +kernel⟩

theorem witness_groups_save_restore_and_evict_7 : ∃ (s : State), ∃ (g : Group), ∃ (n : Nat), ∃ (plane : Bool), s.group? g.id = some g ∧
    let c := (g.frameAt n).copy plane; c.due = true ∧ c.tag = none ∧ (c.old.getD c.source).spad = true :=
  ⟨tIn tThread { tHitched with res := .restoring, frames := [{ index := 0, plane0 := { st := .valid, due := true, source := { spad := true } } }] }, { tHitched with res := .restoring, frames := [{ index := 0, plane0 := { st := .valid, due := true, source := { spad := true } } }] }, 0, false, rfl, by decide +kernel⟩

theorem witness_groups_save_restore_and_evict_8 : ∃ (s : State), ∃ (g : Group), ∃ (n : Nat), ∃ (plane : Bool), ∃ (e : Fail),
    ∃ (va : Dword), s.group? g.id = some g ∧ ∃ o ∈ s.grids, o.fault = none ∧ ∃ m, (g.id, m) ∈ o.members ∧ (g.id, n, plane) ∈ o.planes ∧
    ((((g.frameAt n).copy plane).old = none ∨ m < ((g.frameAt n).copy plane).pair)) :=
  ⟨tGridState 0 none, { tHitched with cmds := [tGridCmd] }, 0, false, { cause := .prot }, 0, rfl, tGridOp 0 none, by decide +kernel,
    by decide +kernel, 10, by decide +kernel⟩

theorem witness_groups_save_restore_and_evict_9 : ∃ (s : State), ∃ (g : Group), s.group? s.arg.g = some g ∧ g.res = .running ∧
    (s.groups.map (·.id)).Nodup ∧ ((∀ y ∈ s.groups, y.gang = g.gang → y.kept = true → (y.res = .running ∨ y.res = .ended) ∧
    ∀ x ∈ s.live y.id, x.yields = true ∧ x.halted = none ∧ x.holdAt + 65536 ≤ s.cycle)) :=
  ⟨{ tIn { tThread with hold := .yield_ 5 } tGroup with cycle := 70000 }, tGroup, rfl, by decide +kernel⟩

theorem witness_groups_save_restore_and_evict_10 : ∃ (s : State), ∃ (g : Group), ∃ (x : Thread), s.group? s.arg.g = some g ∧
    x ∈ s.live g.id ∧ g.over = false ∧ ((x.yields = false ∨ s.cycle < x.holdAt + 65536)) :=
  ⟨tIn tThread tGroup, tGroup, tThread, rfl, List.Mem.head _, by decide +kernel⟩

theorem witness_groups_save_restore_and_evict_11 : ∃ (s : State), ∃ (g : Group), s.group? s.arg.g = some g ∧ g.res = .evicted ∧
    let gs := (s.gangGroups g.gang).filter fun y => y.res == .evicted; (((∃ y ∈ gs, y.mail ≠ [] ∨ ∃ x ∈ s.live y.id, x.yields = false ∨ ∃ a ∈ x.ops, s.answeredPage a = true) ∨ ∀ y ∈ gs, s.live y.id = [] ∧ y.cmds ≠ [])) :=
  ⟨tIn tThread { tGroup with res := .evicted, mail := [(3, 0)] }, { tGroup with res := .evicted, mail := [(3, 0)] }, rfl,
    by decide +kernel, by decide +kernel⟩

theorem witness_groups_save_restore_and_evict_12 : ∃ (s : State),
    ∃ (e : ErrorCount), s.errors.find? (fun x => x.str == Structure.unit s.arg.str) = some e :=
  ⟨{ tState tThread with errors := [{ str := .l0 0 }], arg := { str := .l0 0 } }, { str := .l0 0 }, rfl⟩

theorem witness_groups_save_restore_and_evict_13 : ∃ s : State, s.errors.find? (fun x => x.str == Structure.unit s.arg.str) = none :=
  ⟨tState tThread, by decide +kernel⟩

theorem witness_groups_save_restore_and_evict_14 : ∃ (s : State), (∃ e ∈ s.errors, e.lasting = true ∧ coreOfStr e.str = some s.arg.a) ∧
    s.arg.a ∉ s.deadCores ∧ s.arg.a < 512 ∧ (∀ th ∈ s.threads, th.halted = none) ∧ (s.groups.map (·.id)).Nodup ∧
    0 < s.spares.getD (s.arg.a / 32) 0 :=
  ⟨{ tState tThread with errors := [{ str := .l0 0, lasting := true }], spares := List.replicate 16 1 }, by decide +kernel⟩

theorem witness_groups_save_restore_and_evict_15 : ∃ (s : State), (∃ e ∈ s.errors, e.lasting = true ∧ coreOfStr e.str = some s.arg.a) ∧
    s.arg.a ∉ s.deadCores ∧ s.arg.a < 512 ∧ s.spares.getD (s.arg.a / 32) 0 = 0 ∧ s.onCore s.arg.a = [] :=
  ⟨{ tState tThread with errors := [{ str := .l0 0, lasting := true }], spares := List.replicate 16 0, groups := [] }, by decide +kernel⟩

theorem witness_groups_save_restore_and_evict_16 : ∃ (s : State), ∃ (e : ErrorCount), ∃ (n t : Nat), e ∈ s.errors ∧ e.lasting = true ∧
    e.str = s.arg.str ∧ e.str = .fabricPort n ∧ State.fabricUp { s with ports := s.ports.set n false } = true :=
  ⟨{ tState tThread with errors := [{ str := .fabricPort 3, lasting := true }], ports := List.replicate 24 true, img := { tImg with fabric := true }, arg := { str := .fabricPort 3 } }, { str := .fabricPort 3, lasting := true }, 3, 0, by decide +kernel⟩

theorem witness_groups_save_restore_and_evict_17 : ∃ (s : State), ∃ (e : ErrorCount), ∃ (n t : Nat), e ∈ s.errors ∧ e.lasting = true ∧
    e.str = s.arg.str ∧ e.str = .slcData t n :=
  ⟨{ tState tThread with errors := [{ str := .slcData 2 3, lasting := true }], ports := List.replicate 24 true, img := { tImg with fabric := true }, arg := { str := .slcData 2 3 } }, { str := .slcData 2 3, lasting := true }, 3, 2, by decide +kernel⟩

theorem witness_groups_save_restore_and_evict_18 : ∃ s : State, s.group? s.arg.g = none ∧
    ((∀ x ∈ s.threads, x.id = s.arg.t → x.unit ≠ .device)) ∧ s.arg.a < dramEnd :=
  ⟨tState tThread, by decide +kernel⟩

theorem witness_groups_save_restore_and_evict_19 : ∃ s : State, s.group? s.arg.g = none ∧ (∃ x ∈ s.threads, x.id = s.arg.t ∧
    x.unit = .device) ∧ s.arg.a < 2 ^ 32 :=
  ⟨{ tState tThread with arg := { t := 3 } }, by decide +kernel⟩

theorem witness_groups_save_restore_and_evict_20 : ∃ (s : State), ∃ (g : Group), s.group? s.arg.g = some g :=
  ⟨tIn tThread tGroup, tGroup, rfl⟩

theorem witness_groups_save_restore_and_evict_21 : ∃ (s : State), ∃ (g : Group), (s.groups.map (·.id)).Nodup ∧ s.group? g.id = some g ∧
    g.res = .ended ∧ g.cmds ≠ [] ∧ s.live g.id = [] :=
  ⟨{ tState tThread with groups := [{ tGroup with res := .ended, cmds := [tCmd (.accz 0 1) []] }], threads := [], arg := { t := 3, a := 10, g := 2, l := 1 } }, { tGroup with res := .ended, cmds := [tCmd (.accz 0 1) []] }, by decide +kernel, rfl, by decide +kernel⟩

theorem witness_groups_save_restore_and_evict_22 : ∃ (s : State), ∃ (l : Launch), ∃ (g : Group), s.launch? g.launch = some l :=
  ⟨tState tThread, tLaunch, tGroup, rfl⟩

theorem witness_groups_save_restore_and_evict_23 : ∃ (s : State), ∃ (g : Group), s.group? s.arg.g = some g ∧ s.halting g = false :=
  ⟨tIn tThread tGroup, tGroup, rfl, by decide +kernel⟩

theorem witness_pages_are_requested_answered_and_shot_0 : ∃ (s : State),
    ∃ (r : PageReq), s.preqs.find? (fun r => r.site == s.arg.n && !r.sent) = some r ∧ s.mem.wf = true ∧
    let c := s.control.getD r.site {}; s.hostUp.getD r.site false = true ∧ (c.prqTail - c.prqHead).toNat < c.prqCap ∧ r.site < 2 ∧
    s.control.length = 2 :=
  ⟨{ tState tThread with preqs := [{ tag := 7, va := 0x5000, asid := 0, site := 0, src := 0, kinds := 1 }], hostUp := [true, true], control := [{ prqCap := 4 }, {}] }, { tag := 7, va := 0x5000, asid := 0, site := 0, src := 0, kinds := 1 }, rfl, by decide +kernel, by decide +kernel⟩

theorem witness_pages_are_requested_answered_and_shot_1 : ∃ (s : State),
    ∃ (r : PageReq), s.preqs.find? (fun r => r.site == s.arg.n && !r.sent) = some r ∧ s.mem.wf = true ∧
    let c := s.control.getD r.site {}; c.prqCap ≤ (c.prqTail - c.prqHead).toNat :=
  ⟨{ tState tThread with preqs := [{ tag := 7, va := 0x5000, asid := 0, site := 0, src := 0, kinds := 1 }], hostUp := [true, true] }, { tag := 7, va := 0x5000, asid := 0, site := 0, src := 0, kinds := 1 }, rfl, by decide +kernel, by decide +kernel⟩

theorem witness_pages_are_requested_answered_and_shot_2 : ∃ s : State, s.preqs.find? (fun r => r.site == s.arg.n && !r.sent) = none :=
  ⟨tState tThread, by decide +kernel⟩

theorem witness_pages_are_requested_answered_and_shot_3 : ∃ s : State, ((s.arg.data.length ≠ 16 ∨ zeros s.arg.data 9 7 = false ∨ 1 < field s.arg.data 8 1 ∨ ∀ r ∈ s.preqs, r.sent = true → r.table = none → r.tag ≠ field s.arg.data 0 8)) :=
  ⟨tState tThread, by decide +kernel⟩

theorem witness_pages_are_requested_answered_and_shot_4 : ∃ (s : State), ∃ (r : PageReq), s.arg.data.length = 16 ∧
    zeros s.arg.data 9 7 = true ∧ s.preqs.find? (fun r => r.sent && r.table.isNone && r.tag == field s.arg.data 0 8) = some r ∧
    let s1 : State := { s with preqs := s.preqs.filter fun x => x.tag != r.tag }; field s.arg.data 8 1 = 0 :=
  ⟨{ tState tThread with preqs := [{ tag := 7, va := 0x5000, asid := 0, site := 0, src := 0, kinds := 1, sent := true }], arg := { data := toBytes 8 7 ++ toBytes 8 0 } }, { tag := 7, va := 0x5000, asid := 0, site := 0, src := 0, kinds := 1, sent := true }, by decide +kernel, by decide +kernel, rfl, by decide +kernel⟩

theorem witness_pages_are_requested_answered_and_shot_5 : ∃ (s : State), ∃ (r : PageReq), s.arg.data.length = 16 ∧
    zeros s.arg.data 9 7 = true ∧ s.preqs.find? (fun r => r.sent && r.table.isNone && r.tag == field s.arg.data 0 8) = some r ∧
    let s1 : State := { s with preqs := s.preqs.filter fun x => x.tag != r.tag }; field s.arg.data 8 1 = 1 :=
  ⟨{ tState tThread with preqs := [{ tag := 7, va := 0x5000, asid := 0, site := 0, src := 0, kinds := 1, sent := true }], arg := { data := toBytes 8 7 ++ toBytes 8 1 } }, { tag := 7, va := 0x5000, asid := 0, site := 0, src := 0, kinds := 1, sent := true }, by decide +kernel, by decide +kernel, rfl, by decide +kernel⟩

theorem witness_pages_are_requested_answered_and_shot_6 : ∃ (s : State), ∃ (r : PageReq), ∃ (th : Thread),
    ∃ (va : Dword), th ∈ s.threads ∧ th.hold = .parked r.tag va ∧ (∀ x ∈ s.threads, x.ops = []) ∧ (∀ l ∈ s.launches, l.tag ≠ some r.tag) :=
  ⟨tState { tThread with hold := .parked 7 0x5000 }, { tag := 7, va := 0x5000, asid := 0, site := 0, src := 0, kinds := 1, sent := true }, { tThread with hold := .parked 7 0x5000 }, 0x5000, List.Mem.head _, by decide +kernel⟩

theorem witness_pages_are_requested_answered_and_shot_7 : ∃ s : State, s.arg.data.length = 16 ∧ s.arg.n < 2 :=
  ⟨{ tState tThread with arg := { data := List.replicate 16 0 } }, by decide +kernel⟩

theorem witness_pages_are_requested_answered_and_shot_8 : ∃ (s : State), ∃ (site : Nat),
    ∃ (bs : List Byte), (∀ x ∈ s.threads, x.ops = []) :=
  ⟨tState tThread, 0, [], by decide +kernel⟩

theorem witness_pages_are_requested_answered_and_shot_9 : ∃ (id site : Nat),
    ∃ (bs : List Byte), ((field bs 4 4 = 0 ∨ 2 ^ 20 < field bs 4 4 ∨ field bs 8 8 % 4096 ≠ 0 ∨ field bs 2 1 = 1)) :=
  ⟨0, 0, List.replicate 16 0, by decide +kernel⟩

theorem witness_pages_are_requested_answered_and_shot_10 : ∃ (s : State),
    ∃ (x : Shoot), s.shoots.find? (fun x => x.site == s.arg.n) = some x ∧ (∃ th ∈ s.threads, ∃ a ∈ th.ops, a.id < x.id ∧
    s.shootHits x th a = true ∧ s.squashed a = false) :=
  ⟨{ tAt (tOps [{ tAcc (.st [1, 2, 3, 4]) (.dram 0x5000 0) with sent := true }]) with shoots := [{ id := 30, site := 0, asid := 0, all := true }] }, { id := 30, site := 0, asid := 0, all := true }, rfl, by decide +kernel⟩

theorem witness_pages_are_requested_answered_and_shot_11 : ∃ (s : State),
    ∃ (x : Shoot), s.shoots.find? (fun x => x.site == s.arg.n) = some x ∧ (∃ y ∈ s.far, y.id < x.id ∧ y.sent = true ∧
    y.place.far = true ∧ y.answer = .none) :=
  ⟨{ tAt tThread with shoots := [{ id := 30, site := 0, asid := 0, all := true }], far := [{ id := 10, owner := .module, place := .remote 1 0x5000 0, req := .read 0x5000 4, size := 4, sent := true }] }, { id := 30, site := 0, asid := 0, all := true }, rfl, by decide +kernel⟩

theorem witness_pages_are_requested_answered_and_shot_12 : ∃ (s : State),
    ∃ (x : Shoot), s.shoots.find? (fun x => x.site == s.arg.n) = some x ∧
    ((∀ th ∈ s.threads, ∀ a ∈ th.ops, a.id < x.id → s.shootHits x th a = true → s.squashed a = true)) ∧
    ((∀ y ∈ s.far, y.id < x.id → y.sent = true → y.place.far = true → y.answer ≠ .none)) ∧ x.site < 2 ∧ x.site < s.control.length :=
  ⟨{ tAt tThread with shoots := [{ id := 30, site := 0, asid := 0, all := true }] }, { id := 30, site := 0, asid := 0, all := true }, rfl, by decide +kernel⟩

theorem witness_pages_are_requested_answered_and_shot_13 : ∃ (s s1 s2 : State), ∃ (e : Dword), ∃ (ea : Nat),
    ∃ (bs : List Byte), let d := s.qdescBytes s.arg.q; let sp := queueSpace d; let va := s.arg.va; let e1 := movedLeaf e s.arg.a (s.arg.l == 1) s.arg.n; let x := pageShoot sp.asid va; let o : Owner := .side 0 s.arg.q; let old := s.physPlace e (leafPa e 1 va) 4096 false false; s.moves.find? (fun m => m.queue == s.arg.q) = none ∧ s.qdescLost s.arg.q = false ∧ va.toNat % 4096 = 0 ∧ s.arg.a % 4096 = 0 ∧ (dword d 0x70).toNat ≤ va.toNat ∧ va.toNat + 4095 ≤ (dword d 0x78).toNat ∧ s.movable s.arg.q sp.asid va = true ∧ s.quiesced x = true ∧ s.walkFrom va .read true (if sp.five then 5 else 4) sp.root = (.ok e 1, ea) ∧ s.readPlace o va old 4096 = (s1, .ok bs) ∧ s1.writePlace o va (s1.physPlace e1 s.arg.a 4096 true false) bs = (s2, .ok ()) :=
  ⟨tMove, tMove, _, 0x1206F, 0x11000, tMove.readPhys 0x12000 4096, both (by decide +kernel) <| both (by decide +kernel) <| both (by decide +kernel) <| both (by decide +kernel) <| ⟨by decide +kernel, dram_read (pa := 0x12000) (c := 0) (by decide +kernel) rfl (by decide +kernel), dram_write (pa := 0x13000) (by decide +kernel) rfl⟩⟩

theorem witness_pages_are_requested_answered_and_shot_14 : ∃ s : State, s.moves.find? (fun m => m.queue == s.arg.q) = none ∧
    s.qdescLost s.arg.q = true :=
  ⟨{ tQueueOf (tState tService) with poison := [(448, [0])] }, by decide +kernel⟩

theorem witness_pages_are_requested_answered_and_shot_15 : ∃ s : State, s.moves.find? (fun m => m.queue == s.arg.q) = none ∧
    s.qdescLost s.arg.q = false ∧ ((s.arg.va.toNat % 4096 ≠ 0 ∨ s.movable s.arg.q (queueSpace (s.qdescBytes s.arg.q)).asid s.arg.va = false ∨ s.quiesced (pageShoot (queueSpace (s.qdescBytes s.arg.q)).asid s.arg.va) = false)) :=
  ⟨{ tState tThread with arg := { va := 1 } }, by decide +kernel⟩

theorem witness_pages_are_requested_answered_and_shot_16 : ∃ (e : Dword), ∃ (pa dev : Nat), ∃ (rmt : Bool), pa % 4096 = 0 ∧
    pa < 2 ^ 52 ∧ dev < 256 :=
  ⟨0, 0, 3, true, by decide +kernel⟩

theorem witness_pages_are_requested_answered_and_shot_17 : ∃ (s : State),
    ∃ (m : HomeMove), s.moves.find? (fun m => m.queue == s.arg.q) = some m :=
  ⟨{ tState tThread with moves := [{ queue := 0, va := 0, shoot := { id := 30, site := 0, asid := 0, base := 0, pages := 1 }, site := 0, frame := .dram 0x5000 0 }] }, { queue := 0, va := 0, shoot := { id := 30, site := 0, asid := 0, base := 0, pages := 1 }, site := 0, frame := .dram 0x5000 0 }, rfl⟩

theorem witness_pages_are_requested_answered_and_shot_18 : ∃ (s s1 : State),
    ∃ (m : HomeMove), s.askShoots (.side 0 m.queue) m.shoot s.otherDevices = (s1, true) ∧ s1.shootWaits m.shoot = false :=
  ⟨tState tThread, _, { queue := 0, va := 0, shoot := { id := 30, site := 0, asid := 0, base := 0, pages := 1 }, site := 0, frame := .dram 0x5000 0 }, rfl, by decide +kernel⟩

theorem witness_pages_are_requested_answered_and_shot_19 : ∃ (s s1 : State),
    ∃ (m : HomeMove), ((s.askShoots (.side 0 m.queue) m.shoot s.otherDevices = (s1, false) ∨ s.askShoots (.side 0 m.queue) m.shoot s.otherDevices = (s1, true) ∧ s1.shootWaits m.shoot = true)) :=
  ⟨{ tState tThread with far := [{ id := 10, owner := .module, place := .remote 1 0x5000 0, req := .read 0x5000 4, size := 4, sent := true }] }, _, { queue := 0, va := 0, shoot := { id := 30, site := 0, asid := 0, base := 0, pages := 1 }, site := 0, frame := .dram 0x5000 0 }, .inr ⟨rfl, by decide +kernel⟩⟩

theorem witness_pages_are_requested_answered_and_shot_20 : ∃ (s : State),
    ∃ (x : Shoot), s.shoots.find? (fun x => x.site == s.arg.n) = some x ∧ 2 ≤ x.site ∧ s.shootWaits x = false :=
  ⟨{ tAt tThread with shoots := [{ id := 30, site := 3, asid := 0, all := true }], arg := { n := 3 } }, { id := 30, site := 3, asid := 0, all := true }, rfl, by decide +kernel⟩

theorem witness_pages_are_requested_answered_and_shot_21 : ∃ (s : State), ∃ (x : Shoot), (∀ y ∈ s.threads, y.ops = []) ∧
    ∃ e ∈ s.timers, ∃ l : Launch, s.launch? e.launch = some l ∧ l.space.asid = x.asid ∧ x.near e.va = true :=
  ⟨{ tState tThread with timers := [{ id := 10, pa := 0xB000, va := 0xB000, launch := 1, timer := 0, limit := 5 }] }, { id := 30, site := 0, asid := 0, all := true }, by decide +kernel, { id := 10, pa := 0xB000, va := 0xB000, launch := 1, timer := 0, limit := 5 }, List.Mem.head _, tLaunch, rfl, by decide +kernel⟩

theorem witness_queues_and_launch_operations_0 : ∃ (x : Desc), ∃ (n : Nat), ∃ s th, Alone (.qwait x) s th ∧ (s.a32 th x ≠ 0 ∧
    (s.a32 th x).toNat < 64 ∧ findEvent (s.queueOf th.tid).events (s.a32 th x) = some n) :=
  ⟨(tDe 0x0 (.v 16) (.v 8) .zero .zero), 0, { tState (tPut 8 1 tService) with queues := { events := [{ kind := 1 }] } :: List.replicate 63 {} }, (tPut 8 1 tService), alone_of_check rfl rfl (by decide +kernel), by decide +kernel⟩

theorem witness_queues_and_launch_operations_1 : ∃ x : Desc, ∃ s th, Alone (.qwait x) s th ∧ (s.a32 th x ≠ 0 ∧
    (s.a32 th x).toNat < 64 ∧ findEvent (s.queueOf th.tid).events (s.a32 th x) = none) :=
  ⟨(tDe 0x0 (.v 16) (.v 8) .zero .zero), tState (tPut 8 1 tService), (tPut 8 1 tService), alone_of_check rfl rfl (by decide +kernel),
    by decide +kernel⟩

theorem witness_queues_and_launch_operations_2 : ∃ (x : Desc), ∃ (s : State), ∃ (th : Thread), Alone (.qwait x) s th ∧
    ((s.a32 th x = 0 ∨ 64 ≤ (s.a32 th x).toNat)) :=
  ⟨(tDe 0x0 (.v 16) (.v 8) .zero .zero), tState tService, tService, alone_of_check rfl rfl (by decide +kernel), by decide +kernel⟩

theorem witness_queues_and_launch_operations_3 : ∃ (s : State), ∃ (th : Thread), ∃ (m : Word), s.thread? th.id = some th ∧
    th.hold = .qwait m :=
  ⟨tState { tService with hold := .qwait 1 }, { tService with hold := .qwait 1 }, 1, rfl, by decide +kernel⟩

theorem witness_queues_and_launch_operations_4 : ∃ (es : List Event), ∃ (m : Word), ∃ (n : Nat), findEvent es m = some n :=
  ⟨[{ kind := 1 }], 1, 0, by decide +kernel⟩

theorem witness_queues_and_launch_operations_5 : ∃ x : Desc, ∃ s th, Alone (.launchStart x) s th ∧ (63 < (s.b32 th x).toNat) :=
  ⟨(tDe 0x0 (.v 16) (.v 8) (.v 12) .zero), tState (tPut 12 64 tService), (tPut 12 64 tService), alone_of_check rfl rfl (by decide +kernel), by decide +kernel⟩

theorem witness_queues_and_launch_operations_6 : ∃ (x : Desc), ∃ (s s1 : State), ∃ (th : Thread), Alone (.launchStart x) s th ∧
    (s.b32 th x).toNat ≤ 63 ∧ s.released th 6 0 = true ∧
    let r := s.startLaunch (.thread th.id) (s.b32 th x).toNat (s.a64 th x); ∃ id, r = (s1, .ok id) :=
  ⟨(tDe 0x0 (.v 16) (.v 8) (.v 12) .zero), tQueueOf (tState (tPut 8 0xF000 tService)), _, (tPut 8 0xF000 tService), alone_of_check rfl rfl (by decide +kernel), by decide +kernel, by decide +kernel, 2, pair_of_snd (by decide +kernel)⟩

theorem witness_queues_and_launch_operations_7 : ∃ (x : Desc), ∃ (s s1 : State), ∃ (th : Thread), Alone (.launchStart x) s th ∧
    (s.b32 th x).toNat ≤ 63 ∧ s.released th 6 0 = true ∧
    let r := s.startLaunch (.thread th.id) (s.b32 th x).toNat (s.a64 th x); ∃ n, n ≠ 3 ∧ r = (s1, .code n) :=
  ⟨(tDe 0x0 (.v 16) (.v 8) (.v 12) .zero), tQueueOf (tState (tPut 8 0x5000 tService)), _, (tPut 8 0x5000 tService), alone_of_check rfl rfl (by decide +kernel), by decide +kernel, by decide +kernel, 1, by decide +kernel, pair_of_snd (by decide +kernel)⟩

theorem witness_queues_and_launch_operations_8 : ∃ (x : Desc), ∃ (s s1 : State), ∃ (th : Thread), Alone (.launchStart x) s th ∧
    (s.b32 th x).toNat ≤ 63 ∧ s.released th 6 0 = true ∧
    let r := s.startLaunch (.thread th.id) (s.b32 th x).toNat (s.a64 th x); r = (s1, .code 3) :=
  ⟨(tDe 0x0 (.v 16) (.v 8) (.v 12) .zero), tFull (tState tService), _, tService, alone_of_check rfl rfl (by decide +kernel),
    by decide +kernel, by decide +kernel, full_start (tFull_free _) _ _ _⟩

theorem witness_queues_and_launch_operations_9 : ∃ (x : Desc), ∃ (s s1 : State), ∃ (th : Thread), Alone (.launchStart x) s th ∧
    (s.b32 th x).toNat ≤ 63 ∧ s.released th 6 0 = true ∧
    let r := s.startLaunch (.thread th.id) (s.b32 th x).toNat (s.a64 th x); ∃ t va, r = (s1, .wait t va) :=
  ⟨(tDe 0x0 (.v 16) (.v 8) (.v 12) .zero), tQueueOf (tState (tPut 8 0x80000000 tService)), _, (tPut 8 0x80000000 tService), alone_of_check rfl rfl (by decide +kernel), by decide +kernel, by decide +kernel, 20, 0x80000000, pair_of_snd (by decide +kernel)⟩

theorem witness_queues_and_launch_operations_10 : ∃ (s : State), ∃ (o : Owner), ∃ (q : Nat), ∃ (a : Dword), s.freeLaunchId = none :=
  ⟨tFull (tState tThread), .module, 0, 0, tFull_free _⟩

theorem witness_queues_and_launch_operations_11 : ∃ (s s1 : State), ∃ (o : Owner), ∃ (q id : Nat),
    ∃ (a : Dword), s.startLaunch o q a = (s1, .ok id) :=
  ⟨tQueueOf (tState tThread), _, .module, 0, 2, 0xF000, pair_of_snd (by decide +kernel)⟩

theorem witness_queues_and_launch_operations_13 : ∃ x : Desc, ∃ s th, Alone (.launchReply x) s th :=
  ⟨(tDe 0x1 (.v 16) (.v 8) (.v 12) .zero), tState (tFor (.launchReply ((tDe 0x1 (.v 16) (.v 8) (.v 12) .zero)))), tFor (.launchReply ((tDe 0x1 (.v 16) (.v 8) (.v 12) .zero))), alone_of_check rfl rfl (by decide +kernel)⟩

theorem witness_queues_and_launch_operations_14 : ∃ (s : State), ∃ (v : Dword),
    ∃ (tag : Word), (∀ r ∈ s.svcs, BitVec.ofNat 32 r.tag ≠ tag) :=
  ⟨tState tThread, 0, 5, by decide +kernel⟩

theorem witness_queues_and_launch_operations_15 : ∃ (s : State), ∃ (v : Dword), ∃ (tag : Word), ∃ (r : SvcReq), ∃ (th : Thread),
    ∃ (g : Group), s.svcs.find? (fun r => BitVec.ofNat 32 r.tag == tag) = some r ∧ s.thread? r.thread = some th ∧
    s.group? th.group = some g ∧ g.res = .running :=
  ⟨{ tState tThread with svcs := [{ tag := 5, thread := 3, launch := 1 }] }, 0, 5, { tag := 5, thread := 3, launch := 1 }, tThread, tGroup, rfl, rfl, rfl, by decide +kernel⟩

theorem witness_queues_and_launch_operations_16 : ∃ (s : State), ∃ (v : Dword), ∃ (tag : Word), ∃ (r : SvcReq), ∃ (th : Thread),
    ∃ (g : Group), s.svcs.find? (fun r => BitVec.ofNat 32 r.tag == tag) = some r ∧ s.thread? r.thread = some th ∧
    s.group? th.group = some g ∧ g.res = .saved :=
  ⟨{ tState tThread with svcs := [{ tag := 5, thread := 3, launch := 1 }], groups := [{ tGroup with res := .saved }] }, 0, 5, { tag := 5, thread := 3, launch := 1 }, tThread, { tGroup with res := .saved }, rfl, rfl, rfl, by decide +kernel⟩

theorem witness_queues_and_launch_operations_17 : ∃ x : Desc, ∃ s th, Alone (.launchPreempt x) s th ∧ ((s.b32 th x).toNat ≤ 3) :=
  ⟨(tDe 0x2 (.v 16) (.v 8) (.v 12) .zero), tState (tFor (.launchPreempt ((tDe 0x2 (.v 16) (.v 8) (.v 12) .zero)))), tFor (.launchPreempt ((tDe 0x2 (.v 16) (.v 8) (.v 12) .zero))), alone_of_check rfl rfl (by decide +kernel), by decide +kernel⟩

theorem witness_queues_and_launch_operations_18 : ∃ (s : State), ∃ (a : Dword), s.liveLaunch a = none :=
  ⟨tState tThread, 7, by decide +kernel⟩

theorem witness_queues_and_launch_operations_19 : ∃ (s : State), ∃ (a : Dword), ∃ (l : Launch), s.liveLaunch a = some l ∧
    l.state ≠ .saved :=
  ⟨tState tThread, 1, tLaunch, by decide +kernel⟩

theorem witness_queues_and_launch_operations_20 : ∃ (s : State), ∃ (a : Dword), ∃ (l : Launch), s.liveLaunch a = some l ∧
    l.state = .saved ∧ ∃ g ∈ s.groups, g.launch = l.id ∧ g.res = .saved ∧ (∀ x ∈ s.gangs, g.id ∉ x.saved) ∧
    ((s.live g.id ≠ [] ∨ g.cmds ≠ [])) :=
  ⟨{ tState tThread with launches := [{ tLaunch with state := .saved }], groups := [{ tGroup with res := .saved }] }, 1, { tLaunch with state := .saved }, by decide +kernel, by decide +kernel, { tGroup with res := .saved }, List.Mem.head _, by decide +kernel⟩

theorem witness_queues_and_launch_operations_21 : ∃ x : Desc, ∃ s th, Alone (.launchResume x) s th ∧ (s.b32 th x = 0) :=
  ⟨(tDe 0x3 (.v 16) (.v 8) .zero .zero), tState (tFor (.launchResume ((tDe 0x3 (.v 16) (.v 8) .zero .zero)))), tFor (.launchResume ((tDe 0x3 (.v 16) (.v 8) .zero .zero))), alone_of_check rfl rfl (by decide +kernel), by decide +kernel⟩

theorem witness_queues_and_launch_operations_22 : ∃ x : Desc, ∃ s th, Alone (.launchEnd x) s th ∧ (s.b32 th x = 0) :=
  ⟨(tDe 0x4 (.v 16) (.v 8) .zero .zero), tState (tFor (.launchEnd ((tDe 0x4 (.v 16) (.v 8) .zero .zero)))), tFor (.launchEnd ((tDe 0x4 (.v 16) (.v 8) .zero .zero))), alone_of_check rfl rfl (by decide +kernel), by decide +kernel⟩

theorem witness_queues_and_launch_operations_23 : ∃ x : Desc, ∃ s th, Alone (.launchPreempt x) s th ∧ (3 < (s.b32 th x).toNat) :=
  ⟨tDe 2 (.v 16) (.v 8) (.v 12) .zero, tState (tPut 12 5 tService), (tPut 12 5 tService), alone_of_check rfl rfl (by decide +kernel),
    by decide +kernel⟩

theorem witness_queues_and_launch_operations_24 : ∃ x : Desc, ∃ s th, Alone (.launchResume x) s th ∧ (s.b32 th x ≠ 0) :=
  ⟨tDe 3 (.v 16) (.v 8) (.v 12) .zero, tState (tPut 12 5 tService), (tPut 12 5 tService), alone_of_check rfl rfl (by decide +kernel),
    by decide +kernel⟩

theorem witness_queues_and_launch_operations_25 : ∃ x : Desc, ∃ s th, Alone (.launchEnd x) s th ∧ (s.b32 th x ≠ 0) :=
  ⟨tDe 4 (.v 16) (.v 8) (.v 12) .zero, tState (tPut 12 5 tService), (tPut 12 5 tService), alone_of_check rfl rfl (by decide +kernel),
    by decide +kernel⟩

theorem witness_queues_and_launch_operations_26 : ∃ (s : State), ∃ (a : Dword), ∃ (l : Launch), s.liveLaunch a = some l ∧
    ∃ g ∈ (s.endLaunchAt a).1.groups, g.launch = l.id :=
  ⟨tState tThread, 1, tLaunch, by decide +kernel,
    (((tState tThread).endLaunchAt 1).1.groups.headD tGroup), List.Mem.head _, by decide +kernel⟩

theorem witness_queues_and_launch_operations_28 : ∃ x : Desc, ∃ s th, Alone (.launchBind x) s th :=
  ⟨(tDe 0x5 (.v 16) (.v 8) (.v 12) .zero), tState (tFor (.launchBind ((tDe 0x5 (.v 16) (.v 8) (.v 12) .zero)))), tFor (.launchBind ((tDe 0x5 (.v 16) (.v 8) (.v 12) .zero))), alone_of_check rfl rfl (by decide +kernel)⟩

theorem witness_queues_and_launch_operations_29 : ∃ (s : State), ∃ (tag b : Word), ∃ (r : SvcReq), ∃ (th : Thread),
    ∃ (g : Group), s.svcs.find? (fun r => BitVec.ofNat 32 r.tag == tag) = some r ∧ s.thread? r.thread = some th ∧
    s.group? th.group = some g ∧ let slot := (b.extractLsb' 16 6).toNat; let w := (b.extractLsb' 0 12).toNat; g.hdr.slots ≤ slot :=
  ⟨{ tState tThread with svcs := [{ tag := 5, thread := 3, launch := 1 }] }, 5, 0x80000, { tag := 5, thread := 3, launch := 1 }, tThread, tGroup, rfl, rfl, rfl, by decide +kernel⟩

theorem witness_queues_and_launch_operations_30 : ∃ (s : State), ∃ (tag b : Word), ∃ (r : SvcReq), ∃ (th : Thread),
    ∃ (g : Group), s.svcs.find? (fun r => BitVec.ofNat 32 r.tag == tag) = some r ∧ s.thread? r.thread = some th ∧
    s.group? th.group = some g ∧ let slot := (b.extractLsb' 16 6).toNat; let w := (b.extractLsb' 0 12).toNat; slot < g.hdr.slots ∧
    b &&& 0x7FC0F000#32 = 0#32 ∧ (∀ y ∈ s.bindings, y.window ≠ w) ∧ b.getLsbD 31 = false :=
  ⟨{ tState tThread with svcs := [{ tag := 5, thread := 3, launch := 1 }] }, 5, 3, { tag := 5, thread := 3, launch := 1 }, tThread, tGroup, rfl, rfl, rfl, by decide +kernel⟩

theorem witness_queues_and_launch_operations_31 : ∃ (s : State), ∃ (tag b : Word), ∃ (r : SvcReq), ∃ (th : Thread),
    ∃ (g : Group), s.svcs.find? (fun r => BitVec.ofNat 32 r.tag == tag) = some r ∧ s.thread? r.thread = some th ∧
    s.group? th.group = some g ∧ let slot := (b.extractLsb' 16 6).toNat; let w := (b.extractLsb' 0 12).toNat; ∃ y, slot < g.hdr.slots ∧
    b &&& 0x7FC0F000#32 = 0#32 ∧ s.bindings.find? (fun y => y.window == w) = some y ∧ y.group = g.id ∧ y.slot = slot ∧
    b.getLsbD 31 = true :=
  ⟨{ tState tThread with svcs := [{ tag := 5, thread := 3, launch := 1 }], bindings := [{ window := 0, launch := 1, group := 2, slot := 0 }] }, 5, 0x80000000, { tag := 5, thread := 3, launch := 1 }, tThread, tGroup, rfl, rfl, rfl, { window := 0, launch := 1, group := 2, slot := 0 }, by decide +kernel, by decide +kernel, rfl, by decide +kernel⟩

theorem witness_queues_and_launch_operations_32 : ∃ (s s1 : State), ∃ (r : List Byte),
    ∃ (rest : List (List Byte)), s.firmwareFree s.arg.q = true ∧ s.qdescLost s.arg.q = false ∧ (s.queueOf s.arg.q).done = r :: rest ∧
    badField (s.qdescBytes s.arg.q) = none ∧
    let q := s.arg.q; let d := s.qdescBytes q; let tail := word d 0x48; let at_ := dword d 0x50 + BitVec.ofNat 64 (16 * (tail.toNat % field d 0x4C 4)); let gone (s : State) : State := (s.farDrop (.queue q)).modQueueOf q fun y => { y with done := rest, failed := false }; let taken (s : State) : State := if field r 0 2 = 0 then (gone s).putDesc q 0x2C (toBytes 4 (word d 0x2C + 1).toNat) else gone s; (s.queueOf s.arg.q).failed = false ∧ field d 0x4C 4 ≤ (tail - word d 0x44).toNat :=
  ⟨{ tStore (tQueueOf (tState tService)) 0xE048 [4] with queues := { done := [List.replicate 16 1] } :: List.replicate 63 {} }, tState tService, List.replicate 16 1, [], by decide +kernel, by decide +kernel, by decide +kernel, by decide +kernel, by decide +kernel⟩

theorem witness_queues_and_launch_operations_33 : ∃ (s s1 : State), ∃ (r : List Byte),
    ∃ (rest : List (List Byte)), s.firmwareFree s.arg.q = true ∧ s.qdescLost s.arg.q = false ∧ (s.queueOf s.arg.q).done = r :: rest ∧
    badField (s.qdescBytes s.arg.q) = none ∧
    let q := s.arg.q; let d := s.qdescBytes q; let tail := word d 0x48; let at_ := dword d 0x50 + BitVec.ofNat 64 (16 * (tail.toNat % field d 0x4C 4)); let gone (s : State) : State := (s.farDrop (.queue q)).modQueueOf q fun y => { y with done := rest, failed := false }; let taken (s : State) : State := if field r 0 2 = 0 then (gone s).putDesc q 0x2C (toBytes 4 (word d 0x2C + 1).toNat) else gone s; (s.queueOf s.arg.q).failed = false ∧ (tail - word d 0x44).toNat < field d 0x4C 4 ∧ s.agentWrite (.queue q) (queueSpace d) true 0 true 3 at_ r = (s1, .ok ()) :=
  ⟨{ tQueueOf (tState tService) with queues := { done := [List.replicate 16 1] } :: List.replicate 63 {} }, _, List.replicate 16 1, [], both (by decide +kernel) <| both (by decide +kernel) <| both (by decide +kernel) <| pair_of_snd (by decide +kernel)⟩

theorem witness_queues_and_launch_operations_34 : ∃ (s s1 : State), ∃ (r : List Byte),
    ∃ (rest : List (List Byte)), s.firmwareFree s.arg.q = true ∧ s.qdescLost s.arg.q = false ∧ (s.queueOf s.arg.q).done = r :: rest ∧
    badField (s.qdescBytes s.arg.q) = none ∧
    let q := s.arg.q; let d := s.qdescBytes q; let tail := word d 0x48; let at_ := dword d 0x50 + BitVec.ofNat 64 (16 * (tail.toNat % field d 0x4C 4)); let gone (s : State) : State := (s.farDrop (.queue q)).modQueueOf q fun y => { y with done := rest, failed := false }; let taken (s : State) : State := if field r 0 2 = 0 then (gone s).putDesc q 0x2C (toBytes 4 (word d 0x2C + 1).toNat) else gone s; (s.queueOf s.arg.q).failed = true :=
  ⟨{ tQueueOf (tState tService) with queues := { done := [List.replicate 16 1], failed := true } :: List.replicate 63 {} }, tState tService, List.replicate 16 1, [], by decide +kernel, by decide +kernel, by decide +kernel, by decide +kernel, by decide +kernel⟩

theorem witness_queues_and_launch_operations_35 : ∃ s : State, s.qdescLost s.arg.q = false ∧
    ((s.queueOf s.arg.q).done = [] ∨ (badField (s.qdescBytes s.arg.q)).isSome = true) :=
  ⟨tState tThread, by decide +kernel⟩

theorem witness_queues_and_launch_operations_36 : ∃ s : State, s.firmwareFree s.arg.q = false :=
  ⟨tState tThread, by decide +kernel⟩

theorem witness_queues_and_launch_operations_37 : ∃ s : State, s.firmwareFree s.arg.q = true ∧ s.qdescLost s.arg.q = true :=
  ⟨{ tQueueOf (tState tService) with poison := [(448, [0])] }, by decide +kernel⟩

theorem witness_queues_and_launch_operations_38 : ∃ (s : State), ∃ (o : Owner), ∃ (q id : Nat),
    ∃ (a : Dword), s.freeLaunchId = some id ∧ s.qdescLost q = true :=
  ⟨{ tQueueOf (tState tService) with poison := [(448, [0])] }, .module, 0, 2, 0, by decide +kernel⟩

theorem witness_outside_agents_and_power_0 : ∃ s : State, s.hostUp.getD s.arg.q false = true ∧ s.arg.data ≠ [] ∧
    inControl s.arg.q s.arg.a = false ∧ inWindows s.arg.a = false ∧
    let m := hostMaster s.arg.q; inDram s.arg.a s.arg.data.length = true ∧ s.deadAt s.arg.a s.arg.data.length = false ∧
    s.mem.wf = true ∧ s.admitted m s.arg.a s.arg.data.length 2 = true :=
  ⟨tOut true { a := 0x5000, data := [1] }, by decide +kernel, by decide +kernel, by decide +kernel, by decide +kernel, by decide +kernel⟩

theorem witness_outside_agents_and_power_1 : ∃ s : State, s.hostUp.getD s.arg.q false = true ∧ s.arg.data ≠ [] ∧
    inControl s.arg.q s.arg.a = false ∧ inWindows s.arg.a = false ∧
    let m := hostMaster s.arg.q; inDram s.arg.a s.arg.data.length = true ∧ s.deadAt s.arg.a s.arg.data.length = true ∧
    s.admitted m s.arg.a s.arg.data.length 2 = true :=
  ⟨{ tOut true { a := 0x5000, data := [1] } with deadSlices := (List.range 16).flatMap fun t => (List.range 32).map fun k => (t, k) }, by decide +kernel, by decide +kernel, by decide +kernel, by decide +kernel, by decide +kernel⟩

theorem witness_outside_agents_and_power_2 : ∃ s : State, s.hostUp.getD s.arg.q false = true ∧ s.arg.data ≠ [] ∧
    inControl s.arg.q s.arg.a = false ∧ inWindows s.arg.a = false ∧
    let m := hostMaster s.arg.q; s.admitted m s.arg.a s.arg.data.length 2 = false :=
  ⟨tOut false { a := 0x5000, data := [1] }, by decide +kernel, by decide +kernel, by decide +kernel, by decide +kernel, by decide +kernel⟩

theorem witness_outside_agents_and_power_3 : ∃ s : State, s.hostUp.getD s.arg.q false = false :=
  ⟨tState tThread, by decide +kernel⟩

theorem witness_outside_agents_and_power_4 : ∃ s : State, s.hostUp.getD s.arg.q false = true ∧ s.arg.data ≠ [] ∧
    s.arg.a = controlBase s.arg.q + 0x30 :=
  ⟨tOut true { a := 0xF000000000030, data := [1] }, by decide +kernel⟩

theorem witness_outside_agents_and_power_5 : ∃ s : State, s.hostUp.getD s.arg.q false = true ∧ s.arg.data.length = 16 ∧
    s.arg.a = controlBase s.arg.q + 0x40 :=
  ⟨tOut true { a := 0xF000000000040, data := List.replicate 16 0 }, by decide +kernel⟩

theorem witness_outside_agents_and_power_6 : ∃ s : State, s.hostUp.getD s.arg.q false = true ∧ 0 < s.arg.n ∧
    inControl s.arg.q s.arg.a = false ∧ inDram s.arg.a s.arg.n = true ∧ s.brokenAt s.arg.a s.arg.n = false ∧
    s.admitted (hostMaster s.arg.q) s.arg.a s.arg.n 1 = true :=
  ⟨tOut true { a := 0x5000, n := 4 }, by decide +kernel⟩

theorem witness_outside_agents_and_power_7 : ∃ s : State, s.hostUp.getD s.arg.q false = true ∧ 0 < s.arg.n ∧
    inControl s.arg.q s.arg.a = false ∧ s.admitted (hostMaster s.arg.q) s.arg.a s.arg.n 1 = false :=
  ⟨tOut false { a := 0x5000, n := 4 }, by decide +kernel⟩

theorem witness_outside_agents_and_power_8 : ∃ s : State, s.arg.q < 2 ∧ inSiteRange s.arg.q s.arg.a = true ∧
    s.hostUp.getD s.arg.q false = true ∧ s.mem.wf = true :=
  ⟨tOut true { a := 0x4000000000000 }, by decide +kernel⟩

theorem witness_outside_agents_and_power_9 : ∃ (s : State), ∃ (a : Nat), ∃ (bs : List Byte), s.pcieUp.getD s.arg.q false = true ∧
    s.arg.q < 2 ∧ bs ≠ [] ∧ inDram a bs.length = true ∧
    let m : Word := 0x20000000#32 ||| BitVec.ofNat 32 (s.arg.q % 256 * 65536) ||| (s.arg.master &&& 0xFFFF#32); ∃ ro, s.arg.req = .write a bs ro ∧ s.mem.wf = true ∧ s.deadAt a bs.length = false ∧ s.admitted m a bs.length 2 = true :=
  ⟨tOut true { req := .write 0x5000 [1] false }, 0x5000, [1], by decide +kernel, by decide +kernel, by decide +kernel,
    by decide +kernel, false, by decide +kernel⟩

theorem witness_outside_agents_and_power_10 : ∃ (s : State), ∃ (a : Nat), ∃ (bs : List Byte), s.pcieUp.getD s.arg.q false = true ∧
    s.arg.q < 2 ∧ bs ≠ [] ∧ inDram a bs.length = true ∧
    let m : Word := 0x20000000#32 ||| BitVec.ofNat 32 (s.arg.q % 256 * 65536) ||| (s.arg.master &&& 0xFFFF#32); ∃ ro, s.arg.req = .write a bs ro ∧ s.mem.wf = true ∧ s.deadAt a bs.length = false ∧ s.admitted m a bs.length 2 = false :=
  ⟨tOut false { req := .write 0x5000 [1] false }, 0x5000, [1], by decide +kernel, by decide +kernel, by decide +kernel,
    by decide +kernel, false, by decide +kernel⟩

theorem witness_outside_agents_and_power_11 : ∃ (s : State), ∃ (a : Nat), ∃ (bs : List Byte), s.pcieUp.getD s.arg.q false = true ∧
    s.arg.q < 2 ∧ bs ≠ [] ∧ inDram a bs.length = true ∧
    let m : Word := 0x20000000#32 ||| BitVec.ofNat 32 (s.arg.q % 256 * 65536) ||| (s.arg.master &&& 0xFFFF#32); s.arg.req = .read a bs.length ∧ s.brokenAt a bs.length = false ∧ s.admitted m a bs.length 1 = true :=
  ⟨tOut true { req := .read 0x5000 1 }, 0x5000, [1], by decide +kernel, by decide +kernel, by decide +kernel, by decide +kernel,
    by decide +kernel⟩

theorem witness_outside_agents_and_power_12 : ∃ (s : State), ∃ (a : Nat), ∃ (bs : List Byte), s.pcieUp.getD s.arg.q false = true ∧
    s.arg.q < 2 ∧ bs ≠ [] ∧ inDram a bs.length = true ∧
    let m : Word := 0x20000000#32 ||| BitVec.ofNat 32 (s.arg.q % 256 * 65536) ||| (s.arg.master &&& 0xFFFF#32); s.arg.req = .read a bs.length ∧ s.brokenAt a bs.length = false ∧ s.admitted m a bs.length 1 = false :=
  ⟨tOut false { req := .read 0x5000 1 }, 0x5000, [1], by decide +kernel, by decide +kernel, by decide +kernel, by decide +kernel,
    by decide +kernel⟩

theorem witness_outside_agents_and_power_13 : ∃ (s : State), ∃ (a : Nat), ∃ (bs : List Byte), s.pcieUp.getD s.arg.q false = true ∧
    s.arg.q < 2 ∧ bs ≠ [] ∧ inDram a bs.length = true ∧
    let m : Word := 0x20000000#32 ||| BitVec.ofNat 32 (s.arg.q % 256 * 65536) ||| (s.arg.master &&& 0xFFFF#32); s.arg.req = .other :=
  ⟨tOut true { req := .other }, 0x5000, [1], by decide +kernel, by decide +kernel, by decide +kernel, by decide +kernel, by decide +kernel⟩

theorem witness_outside_agents_and_power_14 : ∃ (s : State), ∃ (a : Nat), ∃ (bs : List Byte), s.pcieUp.getD s.arg.q false = true ∧
    s.arg.q < 2 ∧ bs ≠ [] ∧ inDram a bs.length = true ∧
    let m : Word := 0x20000000#32 ||| BitVec.ofNat 32 (s.arg.q % 256 * 65536) ||| (s.arg.master &&& 0xFFFF#32); ∃ ty op b c ret, s.arg.req = .atomic a ty op b c ret ∧ 0 < ty.width / 8 :=
  ⟨tOut true { req := .atomic 0x5000 .i32 2 5 0 true }, 0x5000, [0, 0, 0, 0], by decide +kernel, by decide +kernel, by decide +kernel,
    by decide +kernel, .i32, 2, 5, 0, true, by decide +kernel⟩

theorem witness_outside_agents_and_power_15 : ∃ (s : State), ∃ (a : Nat), ∃ (bs : List Byte), s.fabricUp = true ∧ bs ≠ [] ∧
    inDram a bs.length = true ∧ s.mem.wf = true ∧
    let dev := s.arg.n % 256; let m : Word := 0x30000000#32 ||| BitVec.ofNat 32 dev; ∃ ro, s.arg.req = .write a bs ro ∧
    s.admitted m a bs.length 2 = true ∧ s.deadAt a bs.length = false :=
  ⟨tOut true { req := .write 0x5000 [1] false }, 0x5000, [1], by decide +kernel, by decide +kernel, by decide +kernel,
    by decide +kernel, false, by decide +kernel⟩

theorem witness_outside_agents_and_power_16 : ∃ (s : State), ∃ (a : Nat), ∃ (bs : List Byte), s.fabricUp = true ∧ bs ≠ [] ∧
    inDram a bs.length = true ∧ s.mem.wf = true ∧
    let dev := s.arg.n % 256; let m : Word := 0x30000000#32 ||| BitVec.ofNat 32 dev; ∃ ro, s.arg.req = .write a bs ro ∧
    s.admitted m a bs.length 2 = false :=
  ⟨tOut false { req := .write 0x5000 [1] false }, 0x5000, [1], by decide +kernel, by decide +kernel, by decide +kernel,
    by decide +kernel, false, by decide +kernel⟩

theorem witness_outside_agents_and_power_17 : ∃ (s : State), ∃ (a : Nat), ∃ (bs : List Byte), s.fabricUp = true ∧ bs ≠ [] ∧
    inDram a bs.length = true ∧ s.mem.wf = true ∧
    let dev := s.arg.n % 256; let m : Word := 0x30000000#32 ||| BitVec.ofNat 32 dev; s.arg.req = .read a bs.length ∧
    s.admitted m a bs.length 1 = true ∧ s.brokenAt a bs.length = false :=
  ⟨tOut true { req := .read 0x5000 1 }, 0x5000, [1], by decide +kernel, by decide +kernel, by decide +kernel, by decide +kernel,
    by decide +kernel⟩

theorem witness_outside_agents_and_power_18 : ∃ (s : State), ∃ (a : Nat), ∃ (bs : List Byte), s.fabricUp = true ∧ bs ≠ [] ∧
    inDram a bs.length = true ∧ s.mem.wf = true ∧
    let dev := s.arg.n % 256; let m : Word := 0x30000000#32 ||| BitVec.ofNat 32 dev; s.arg.req = .read a bs.length ∧
    s.admitted m a bs.length 1 = true ∧ s.brokenAt a bs.length = true :=
  ⟨{ tOut true { req := .read 0x5000 1 } with poison := [(160, [0])] }, 0x5000, [1], by decide +kernel, by decide +kernel,
    by decide +kernel, by decide +kernel, by decide +kernel⟩

theorem witness_outside_agents_and_power_19 : ∃ (s : State), ∃ (a : Nat), ∃ (bs : List Byte), s.fabricUp = true ∧ bs ≠ [] ∧
    inDram a bs.length = true ∧ s.mem.wf = true ∧
    let dev := s.arg.n % 256; let m : Word := 0x30000000#32 ||| BitVec.ofNat 32 dev; s.arg.req = .read a bs.length ∧
    s.admitted m a bs.length 1 = false :=
  ⟨tOut false { req := .read 0x5000 1 }, 0x5000, [1], by decide +kernel, by decide +kernel, by decide +kernel, by decide +kernel,
    by decide +kernel⟩

theorem witness_outside_agents_and_power_20 : ∃ (s : State), ∃ (a : Nat), ∃ (bs : List Byte), s.fabricUp = true ∧ bs ≠ [] ∧
    inDram a bs.length = true ∧ s.mem.wf = true ∧
    let dev := s.arg.n % 256; let m : Word := 0x30000000#32 ||| BitVec.ofNat 32 dev; ∃ ty op b c ret, s.arg.req = .atomic a ty op b c ret ∧ ty.width / 8 = bs.length ∧ s.admitted m a bs.length 3 = true ∧ s.brokenAt a bs.length = false ∧ ∃ new f, atomNew ty op.toNat (ofBytes (s.readPhys a bs.length)) b.toNat c.toNat = some (new, f) :=
  ⟨tOut true { req := .atomic 0x5000 .i32 2 5 0 true }, 0x5000, [0, 0, 0, 0], by decide +kernel, by decide +kernel, by decide +kernel,
    by decide +kernel, .i32, 2, 5, 0, true, by decide +kernel, by decide +kernel, by decide +kernel, by decide +kernel,
    5, 0, by decide +kernel⟩

theorem witness_outside_agents_and_power_21 : ∃ (s : State), ∃ (a : Nat), ∃ (bs : List Byte), s.fabricUp = true ∧ bs ≠ [] ∧
    inDram a bs.length = true ∧ s.mem.wf = true ∧
    let dev := s.arg.n % 256; let m : Word := 0x30000000#32 ||| BitVec.ofNat 32 dev; ∃ ty op b c ret, s.arg.req = .atomic a ty op b c ret ∧ ty.width / 8 = bs.length ∧ s.admitted m a bs.length 3 = true ∧ s.brokenAt a bs.length = false ∧ atomNew ty op.toNat (ofBytes (s.readPhys a bs.length)) b.toNat c.toNat = none :=
  ⟨tOut true { req := .atomic 0x5000 .i32 7 5 1 true }, 0x5000, [0, 0, 0, 0], by decide +kernel, by decide +kernel, by decide +kernel,
    by decide +kernel, .i32, 7, 5, 1, true, by decide +kernel⟩

theorem witness_outside_agents_and_power_22 : ∃ (s : State), ∃ (a : Nat), ∃ (bs : List Byte), s.fabricUp = true ∧ bs ≠ [] ∧
    inDram a bs.length = true ∧ s.mem.wf = true ∧
    let dev := s.arg.n % 256; let m : Word := 0x30000000#32 ||| BitVec.ofNat 32 dev; ∃ ty op b c ret, s.arg.req = .atomic a ty op b c ret ∧ ty.width / 8 = bs.length ∧ s.admitted m a bs.length 3 = false :=
  ⟨tOut false { req := .atomic 0x5000 .i32 2 5 0 true }, 0x5000, [0, 0, 0, 0], by decide +kernel, by decide +kernel, by decide +kernel,
    by decide +kernel, .i32, 2, 5, 0, true, by decide +kernel⟩

theorem witness_outside_agents_and_power_23 : ∃ s : State, inWindows s.arg.a = true ∧ s.arg.data.length = 16 ∧ s.arg.a % 64 = 0 ∧
    let w := (s.arg.a - 0xF800000000000) / 64; let bs := s.arg.data; s.admitted s.arg.master s.arg.a 16 4 = false :=
  ⟨tOut false { a := 0xF800000000000, data := List.replicate 16 0, master := 0x30000001 }, by decide +kernel, by decide +kernel,
    by decide +kernel, by decide +kernel⟩

theorem witness_outside_agents_and_power_24 : ∃ s : State, inWindows s.arg.a = true ∧ s.arg.data.length = 16 ∧ s.arg.a % 64 = 0 ∧
    let w := (s.arg.a - 0xF800000000000) / 64; let bs := s.arg.data; s.admitted s.arg.master s.arg.a 16 4 = true ∧
    (∀ b ∈ s.bindings, b.window ≠ w) :=
  ⟨tOut true { a := 0xF800000000000, data := List.replicate 16 0, master := 0x30000001 }, by decide +kernel, by decide +kernel,
    by decide +kernel, by decide +kernel⟩

theorem witness_outside_agents_and_power_25 : ∃ s : State, inWindows s.arg.a = true ∧ s.arg.data.length = 16 ∧ s.arg.a % 64 = 0 ∧
    let w := (s.arg.a - 0xF800000000000) / 64; let bs := s.arg.data; ∃ b, s.admitted s.arg.master s.arg.a 16 4 = true ∧
    s.bindings.find? (fun b => b.window == w) = some b ∧ zeros bs 3 5 = true ∧ field bs 2 1 ≤ 1 ∧ field bs 8 4 < 2 ^ 27 ∧
    field bs 12 4 < 2 ^ 27 :=
  ⟨{ tOut true { a := 0xF800000000000, data := List.replicate 16 0, master := 0x30000001 } with bindings := [{ window := 0, group := 2, slot := 0 }] }, by decide +kernel, by decide +kernel, by decide +kernel, { window := 0, group := 2, slot := 0 }, by decide +kernel⟩

theorem witness_outside_agents_and_power_26 : ∃ s : State, s.arg.data.length = 8 :=
  ⟨{ tQueueOf (tState tThread) with arg := { data := List.replicate 8 0 } }, by decide +kernel⟩

theorem witness_outside_agents_and_power_27 : ∃ (s : State), ∃ (q pa n : Nat), s.booted = true ∧ q < 64 ∧ q < s.queues.length ∧
    meets pa n (s.qdesc q + 0x68) 8 = true :=
  ⟨tQueueOf (tState tThread), 0, 0xE068, 8, by decide +kernel⟩

theorem witness_outside_agents_and_power_28 : ∃ s : State, (∀ th ∈ s.threads, th.ops = []) ∧
    ((∀ r ∈ s.preqs, r.table.isSome = true → r.site ≠ s.arg.q)) :=
  ⟨tState tThread, by decide +kernel⟩

theorem witness_outside_agents_and_power_29 : ∃ s : State, s.arg.data.length = 32 ∧ s.bootImage ≠ [] ∧ s.arg.n ≠ 1 ∧
    s.flash.leaf < 2 ^ 20 :=
  ⟨{ tState tThread with bootImage := [1], arg := { data := List.replicate 32 0 } }, by decide +kernel⟩

theorem witness_outside_agents_and_power_30 : ∃ s : State, s.arg.data.length = 32 ∧ s.bootImage ≠ [] ∧
    (s.arg.n = 1 ∨ 2 ^ 20 ≤ s.flash.leaf) :=
  ⟨{ tState tThread with bootImage := [1], arg := { n := 1, data := List.replicate 32 0 } }, by decide +kernel, by decide +kernel, .inl rfl⟩

theorem witness_outside_agents_and_power_31 : ∃ s : State, ((s.power = .run ∨ s.power = .idle)) ∧
    (s.arg.power = .run ∨ s.arg.power = .idle) :=
  ⟨tState tThread, by decide +kernel⟩

theorem witness_outside_agents_and_power_32 : ∃ s : State, ((s.power = .run ∨ s.power = .idle)) ∧ s.arg.power = .standby ∧
    s.workLeft = true :=
  ⟨{ tState tThread with arg := { power := .standby } }, by decide +kernel⟩

theorem witness_outside_agents_and_power_33 : ∃ s : State, ((s.power = .run ∨ s.power = .idle)) ∧ s.arg.power = .standby ∧
    s.workLeft = false :=
  ⟨{ tState tThread with launches := [], arg := { power := .standby } }, by decide +kernel⟩

theorem witness_outside_agents_and_power_34 : ∃ s : State, ((s.power = .run ∨ s.power = .idle)) ∧ s.arg.power = .off ∧ s.workLeft = true :=
  ⟨{ tState tThread with arg := { power := .off } }, by decide +kernel⟩

theorem witness_outside_agents_and_power_35 : ∃ s : State, ((s.power = .run ∨ s.power = .idle)) ∧ s.arg.power = .off ∧
    s.workLeft = false ∧ s.mem.wf = true :=
  ⟨{ tState tThread with launches := [], arg := { power := .off } }, by decide +kernel⟩

theorem witness_outside_agents_and_power_36 : ∃ s : State, s.power = .standby ∧ (s.arg.power = .run ∨ s.arg.power = .idle) :=
  ⟨{ State.reset with power := .standby, arg := { power := .run } }, by decide +kernel⟩

theorem witness_outside_agents_and_power_37 : ∃ s : State, s.power = .off ∧ s.arg.power = .run :=
  ⟨{ State.reset with power := .off, arg := { power := .run } }, by decide +kernel⟩

theorem witness_outside_agents_and_power_38 : ∃ s : State, s.mem.wf = true :=
  ⟨tState tThread, by decide +kernel⟩

theorem witness_outside_agents_and_power_39 : ∃ (s : State), ∃ (a p : Nat), ∃ (bs : List Byte), s.pcieUp.getD s.arg.q false = true ∧
    s.arg.q < 2 ∧ bs ≠ [] ∧ inAperture a = some p ∧
    let m : Word := 0x20000000#32 ||| BitVec.ofNat 32 (s.arg.q % 256 * 65536) ||| (s.arg.master &&& 0xFFFF#32); ∃ ro, s.arg.req = .write a bs ro ∧ p = s.arg.q :=
  ⟨tOut true { req := .write 0x9000000000000 [1] false, q := 1 }, 0x9000000000000, 1, [1], by decide +kernel, by decide +kernel,
    by decide +kernel, by decide +kernel, false, by decide +kernel⟩

theorem witness_outside_agents_and_power_40 : ∃ (s : State), ∃ (a p : Nat), ∃ (bs : List Byte), s.pcieUp.getD s.arg.q false = true ∧
    s.arg.q < 2 ∧ bs ≠ [] ∧ inAperture a = some p ∧
    let m : Word := 0x20000000#32 ||| BitVec.ofNat 32 (s.arg.q % 256 * 65536) ||| (s.arg.master &&& 0xFFFF#32); ∃ ro, s.arg.req = .write a bs ro ∧ p ≠ s.arg.q ∧ s.admitted m a bs.length 2 = true ∧ s.pcieUp.getD p false = true :=
  ⟨tOut true { req := .write 0x9000000000000 [1] false }, 0x9000000000000, 1, [1], by decide +kernel, by decide +kernel,
    by decide +kernel, by decide +kernel, false, by decide +kernel⟩

theorem witness_outside_agents_and_power_41 : ∃ (s : State), ∃ (a p : Nat), ∃ (bs : List Byte), s.pcieUp.getD s.arg.q false = true ∧
    s.arg.q < 2 ∧ bs ≠ [] ∧ inAperture a = some p ∧
    let m : Word := 0x20000000#32 ||| BitVec.ofNat 32 (s.arg.q % 256 * 65536) ||| (s.arg.master &&& 0xFFFF#32); ∃ ro, s.arg.req = .write a bs ro ∧ p ≠ s.arg.q ∧ s.admitted m a bs.length 2 = false :=
  ⟨tOut false { req := .write 0x9000000000000 [1] false }, 0x9000000000000, 1, [1], by decide +kernel, by decide +kernel,
    by decide +kernel, by decide +kernel, false, by decide +kernel⟩

theorem witness_outside_agents_and_power_42 : ∃ (s : State), ∃ (a p n : Nat), s.pcieUp.getD s.arg.q false = true ∧ s.arg.q < 2 ∧
    0 < n ∧ inAperture a = some p ∧ s.arg.req = .read a n ∧
    let m : Word := 0x20000000#32 ||| BitVec.ofNat 32 (s.arg.q % 256 * 65536) ||| (s.arg.master &&& 0xFFFF#32); p = s.arg.q :=
  ⟨tOut true { req := .read 0x9000000000000 4, q := 1 }, 0x9000000000000, 1, 4, by decide +kernel, by decide +kernel,
    by decide +kernel, by decide +kernel, by decide +kernel, by decide +kernel⟩

theorem witness_outside_agents_and_power_43 : ∃ (s : State), ∃ (a p n : Nat), s.pcieUp.getD s.arg.q false = true ∧ s.arg.q < 2 ∧
    0 < n ∧ inAperture a = some p ∧ s.arg.req = .read a n ∧
    let m : Word := 0x20000000#32 ||| BitVec.ofNat 32 (s.arg.q % 256 * 65536) ||| (s.arg.master &&& 0xFFFF#32); p ≠ s.arg.q ∧
    s.admitted m a n 1 = true ∧ s.pcieUp.getD p false = true :=
  ⟨tOut true { req := .read 0x9000000000000 4 }, 0x9000000000000, 1, 4, by decide +kernel, by decide +kernel, by decide +kernel,
    by decide +kernel, by decide +kernel, by decide +kernel⟩

theorem witness_outside_agents_and_power_44 : ∃ (s : State), ∃ (a p n : Nat), s.pcieUp.getD s.arg.q false = true ∧ s.arg.q < 2 ∧
    0 < n ∧ inAperture a = some p ∧ s.arg.req = .read a n ∧
    let m : Word := 0x20000000#32 ||| BitVec.ofNat 32 (s.arg.q % 256 * 65536) ||| (s.arg.master &&& 0xFFFF#32); p ≠ s.arg.q ∧
    s.admitted m a n 1 = false :=
  ⟨tOut false { req := .read 0x9000000000000 4 }, 0x9000000000000, 1, 4, by decide +kernel, by decide +kernel, by decide +kernel,
    by decide +kernel, by decide +kernel, by decide +kernel⟩

theorem witness_outside_agents_and_power_45 : ∃ (s : State), ∃ (asid : BitVec 16), ∃ (page pages : Nat), s.fabricUp = true ∧
    s.arg.req = .shoot asid page pages :=
  ⟨tOut true { req := .shoot 0 0 1 }, 0, 0, 1, by decide +kernel⟩

theorem witness_reserved_opcodes_raise_illegal_1 : ∃ s th, Alone (.illegalOpcode [0x3FC]) s th :=
  ⟨tState tThread, tThread, alone_of_check rfl rfl (by decide +kernel)⟩

/-- Every listed instruction runs alone somewhere: the hypothesis of the statements that give its effect. -/
theorem alone_of_runs {l : List (List Word × Instr)} (h : tRuns l = true) : ∀ r ∈ l, Alone r.2 (tState (tFor r.2)) (tFor r.2) :=
  fun r hr => alone_tState (List.all_eq_true.1 h r hr)
theorem witness_alone_integer0 : ∀ r ∈ wordsInteger0, Alone r.2 (tState (tFor r.2)) (tFor r.2) := alone_of_runs test_runs_integer0
theorem witness_alone_integer1 : ∀ r ∈ wordsInteger1, Alone r.2 (tState (tFor r.2)) (tFor r.2) := alone_of_runs test_runs_integer1
theorem witness_alone_integer2 : ∀ r ∈ wordsInteger2, Alone r.2 (tState (tFor r.2)) (tFor r.2) := alone_of_runs test_runs_integer2
theorem witness_alone_float : ∀ r ∈ wordsFloat, Alone r.2 (tState (tFor r.2)) (tFor r.2) := alone_of_runs test_runs_float
theorem witness_alone_control : ∀ r ∈ wordsControl, Alone r.2 (tState (tFor r.2)) (tFor r.2) := alone_of_runs test_runs_control
theorem witness_alone_lane : ∀ r ∈ wordsLane, Alone r.2 (tState (tFor r.2)) (tFor r.2) := alone_of_runs test_runs_lane
theorem witness_alone_packed : ∀ r ∈ wordsPacked, Alone r.2 (tState (tFor r.2)) (tFor r.2) := alone_of_runs test_runs_packed
theorem witness_alone_memory : ∀ r ∈ wordsMemory, Alone r.2 (tState (tFor r.2)) (tFor r.2) := alone_of_runs test_runs_memory
theorem witness_alone_copy : ∀ r ∈ wordsCopy, Alone r.2 (tState (tFor r.2)) (tFor r.2) := alone_of_runs test_runs_copy
theorem witness_alone_matrix : ∀ r ∈ wordsMatrix, Alone r.2 (tState (tFor r.2)) (tFor r.2) := alone_of_runs test_runs_matrix
theorem witness_alone_unit : ∀ r ∈ wordsUnit, Alone r.2 (tState (tFor r.2)) (tFor r.2) := alone_of_runs test_runs_unit
theorem witness_alone_system : ∀ r ∈ wordsSystem, Alone r.2 (tState (tFor r.2)) (tFor r.2) := alone_of_runs test_runs_system
theorem witness_alone_pair : ∀ r ∈ wordsPair, Alone r.2 (tState (tFor r.2)) (tFor r.2) := alone_of_runs test_runs_pair

end Sys2Proof.Tests
end

section
/-! SUPPORT. The frame of an issue whose effect is a result: the parts of the module that such an issue can write, and that nothing
else of the module moves (01 R12, 04 R95, 06 R161). -/

namespace Sys2Proof.Machine

/-! ### The parts that a result does not reach -/

/-- A group without what a result can write in it: its uniform registers and their dependences. -/
def Group.sansResults (g : Group) : Group := { g with k := Vector.replicate 256 0, kdeps := [] }

/-- The module without what the issue of a result can write: the threads, the groups' uniform registers, and the far requests, of
which those of a member end with its instruction. -/
def State.sansResults (s : State) : State :=
  { s with threads := [], far := [], groups := s.groups.map Group.sansResults }

@[simp] theorem sansResults_modThread (s : State) (t : Nat) (f : Thread → Thread) :
    (s.modThread t f).sansResults = s.sansResults := rfl

theorem sansResults_modGroup (s : State) (g : Nat) (f : Group → Group) (hf : ∀ x, (f x).sansResults = x.sansResults) :
    (s.modGroup g f).sansResults = s.sansResults := by
  simp [State.sansResults, State.modGroup, Function.comp_def, apply_ite Group.sansResults, hf]

@[simp] theorem sansResults_farDrop (s : State) (o o2 : Owner) : (s.farDrop o o2).sansResults = s.sansResults := by
  unfold State.farDrop
  split <;> rfl

@[simp] theorem sansResults_tick (s : State) (th : Thread) : (s.tick th).sansResults = s.sansResults := by
  unfold State.tick
  split <;> rfl

/-! ### Each part of an issue keeps them -/

theorem sansResults_deliver (s : State) (t : Nat) (o : Opnd) (w : Nat) (x : BitVec 128) :
    (s.deliver t o w x).sansResults = s.sansResults := by
  unfold State.deliver
  cases o with
  | k n =>
    cases s.thread? t with
    | some th => exact sansResults_modGroup _ _ _ fun _ => rfl
    | none => rfl
  | _ => rfl

theorem sansResults_put (s : State) (t : Nat) (o : Out) : (s.put t o).sansResults = s.sansResults := by
  unfold State.put State.result
  rw [sansResults_modThread]
  split
  · rw [sansResults_modThread, sansResults_deliver]
  · rfl

theorem sansResults_past (s : State) (i : Instr) (th : Thread) : (s.past i th).sansResults = s.sansResults := by
  unfold State.past State.executed State.advance
  dsimp only
  split <;> simp

/-! ### The whole issue -/

/-- What holds before an issue with results and is kept by each member's result and completion holds after the issue. -/
theorem teamPut_induction {s : State} {i : Instr} {f : Thread → Out} {P : State → Prop} (h0 : P s)
    (hstep : ∀ acc th, th.id ∈ s.team → P acc → P ((acc.put th.id (f th)).past i th)) : P (s.teamPut i f) := by
  unfold State.teamPut
  refine List.foldlRecOn _ _ h0 fun acc hacc t ht => ?_
  split
  next th hth =>
    obtain rfl := thread?_id hth
    exact hstep acc th ht hacc
  next => exact hacc

theorem sansResults_teamPut (s : State) (i : Instr) (f : Thread → Out) : (s.teamPut i f).sansResults = s.sansResults :=
  teamPut_induction (P := fun acc => acc.sansResults = s.sansResults) rfl fun acc th _ hacc =>
    calc ((acc.put th.id (f th)).past i th).sansResults
      _ = (acc.put th.id (f th)).sansResults := sansResults_past ..
      _ = acc.sansResults := sansResults_put ..
      _ = s.sansResults := hacc

theorem thread?_teamPut_of_notMem {s : State} (i : Instr) (f : Thread → Out) {u : Nat} (hu : u ∉ s.team) :
    (s.teamPut i f).thread? u = s.thread? u :=
  teamPut_induction (P := fun acc => acc.thread? u = s.thread? u) rfl fun acc th hth hacc => by
    have hne : u ≠ th.id := fun e => hu (e ▸ hth)
    rw [thread?_past_ne i th hne, thread?_put_ne _ hne, hacc]

/-- Whatever can be read of the module without the parts that a result writes is the same after an issue with results. -/
theorem teamPut_keeps {α : Type} {s : State} {i : Instr} {f : Thread → Out} (p : State → α)
    (hp : ∀ r : State, p r.sansResults = p r := by intro _; rfl) : p (s.teamPut i f) = p s := by
  rw [← hp (s.teamPut i f), sansResults_teamPut, hp s]

theorem map_groups_sansResults {α : Type} (p : Group → α) (hp : ∀ g, p g.sansResults = p g) (s : State) :
    s.sansResults.groups.map p = s.groups.map p := by
  simp [State.sansResults, Function.comp_def, hp]

/-- Settles O24: the members' results and completions write threads, uniform registers and the far requests only, and each of them
the thread of its own member only. -/
theorem resultIssueLeavesTheRest : Obligations.ResultIssueLeavesTheRest := by
  intro s i f
  exact ⟨teamPut_keeps State.mem, teamPut_keeps State.launches, teamPut_keeps State.queues, teamPut_keeps State.caches,
    teamPut_keeps State.cycle, teamPut_keeps State.rays, teamPut_keeps State.gangs, teamPut_keeps State.control,
    teamPut_keeps State.replies, teamPut_keeps State.oracle,
    teamPut_keeps (fun r => r.groups.map _) (map_groups_sansResults _ fun _ => rfl),
    fun _ hu => thread?_teamPut_of_notMem i f hu⟩

end Sys2Proof.Machine
end

section
/-! SUPPORT. Decoding reads back what encoding writes (02 R33 to R59): the codes of operands and types, the fields of a word, the words
of each format, and the rows of the instruction table. -/

namespace Sys2Proof

open BitVec (extractLsb'_append_eq_left extractLsb'_append_eq_right extractLsb'_append_eq_of_add_le extractLsb'_append_eq_of_le
  extractLsb'_extractLsb'_of_le extractLsb'_append_extractLsb' extractLsb'_append_extractLsb'_eq_extractLsb')

/-! ### Codes of operands and types -/

theorem spec7_enc7 {o : Opnd} (h : o.wf7 = true) : spec7 (enc7 o) = some o := by
  cases o with
  | v n => revert n; decide
  | k n => revert n; decide
  | o n => revert n; decide
  | y0 | y1 | zero | lit => rfl
  | litLo | litHi | imm _ => cases h

theorem spec10_enc10 {o : Opnd} (h : o.wf10 = true) : spec10 (enc10 o) = some o := by
  cases o with
  | v n => revert n; decide
  | k n => revert n; decide
  | o n => revert n; decide
  | imm n => revert n; decide
  | y0 | y1 | zero | lit | litLo | litHi => rfl

theorem Ty.ofCode_code (t : Ty) : Ty.ofCode t.code = some t := by cases t <;> rfl

/-- A half keeps the low four bits of its type's code, which are all of it for the types of a half (02 R52). -/
theorem Ty.setWidth_setWidth_code {t : Ty} (h : t.code.ult 16#5 = true) : (t.code.setWidth 4).setWidth 5 = t.code := by
  revert h; cases t <;> decide

/-! ### Fields of appended vectors -/

section
variable {v w lo n : Nat} {x : BitVec v} {y : BitVec w}

/-- A field of the upper part stands in the whole above the lower part. -/
theorem extract_above {f : BitVec n} (h : x.extractLsb' lo n = f) : (x ++ y).extractLsb' (lo + w) n = f := by
  rw [extractLsb'_append_eq_of_le (Nat.le_add_left ..), Nat.add_sub_cancel, h]

theorem getLsbD_above {b : Bool} (h : x.getLsbD n = b) : (x ++ y).getLsbD (n + w) = b := by
  simp [BitVec.getLsbD_append, h]

theorem getLsbD_zero_append_ofBool {b : Bool} : (x ++ BitVec.ofBool b).getLsbD 0 = b := by
  simp only [BitVec.getLsbD_append, BitVec.getLsbD_ofBool, Nat.one_pos, if_true, decide_true, Bool.true_and]

end

/-- The two words of a literal, put together again. -/
theorem lit_words (l : Dword) : l.extractLsb' 32 32 ++ l.extractLsb' 0 32 = l := extractLsb'_append_extractLsb'

/-- The three words of a 96-bit encoding, put together again. -/
theorem wide_words (u : BitVec 96) : u.extractLsb' 64 32 ++ u.extractLsb' 32 32 ++ u.extractLsb' 0 32 = u := by
  have upper : u.extractLsb' 64 32 ++ u.extractLsb' 32 32 = u.extractLsb' 32 64 :=
    extractLsb'_append_extractLsb'_eq_extractLsb' rfl
  rw [upper]
  exact extractLsb'_append_extractLsb'

/-! ### Layouts: where each part of a word is read (02 R34 to R42, R52) -/

theorem bits_head (x : BitVec 22) (op : Nat) (len : BitVec 2) :
    bits (x ++ head op len) 0 2 = len ∧ bits (x ++ head op len) 2 8 = BitVec.ofNat 8 op :=
  ⟨(extractLsb'_append_eq_of_add_le (by decide)).trans extractLsb'_append_eq_right,
    (extractLsb'_append_eq_of_add_le (by decide)).trans extractLsb'_append_eq_left⟩

theorem bits_head_pair (x : BitVec 86) (op : Nat) (len : BitVec 2) :
    let w0 := (x ++ head op len : BitVec 96).extractLsb' 0 32
    bits w0 0 2 = len ∧ bits w0 2 8 = BitVec.ofNat 8 op := by
  have low {lo n : Nat} (h : lo + n ≤ 10) :
      bits ((x ++ head op len : BitVec 96).extractLsb' 0 32) lo n = (head op len).extractLsb' lo n :=
    (extractLsb'_extractLsb'_of_le (by omega)).trans (extractLsb'_append_eq_of_add_le h)
  exact ⟨(low (by decide)).trans extractLsb'_append_eq_right, (low (by decide)).trans extractLsb'_append_eq_left⟩

theorem bits_c3 (m : Bool) (b a d : BitVec 7) (h : BitVec 10) :
    let w : Word := BitVec.ofBool m ++ b ++ a ++ d ++ h
    bits w 10 7 = d ∧ bits w 17 7 = a ∧ bits w 24 7 = b ∧ w.getLsbD 31 = m :=
  ⟨extract_above extractLsb'_append_eq_right, extract_above (extract_above extractLsb'_append_eq_right),
    extract_above (extract_above (extract_above extractLsb'_append_eq_right)),
    getLsbD_above (getLsbD_above (getLsbD_above (getLsbD_above (by simp))))⟩

theorem bits_ci (imm : BitVec 8) (a d : BitVec 7) (h : BitVec 10) :
    let w : Word := imm ++ a ++ d ++ h
    bits w 10 7 = d ∧ bits w 17 7 = a ∧ bits w 24 8 = imm :=
  ⟨extract_above extractLsb'_append_eq_right, extract_above (extract_above extractLsb'_append_eq_right),
    extract_above (extract_above extractLsb'_append_eq_left)⟩

theorem bits_ops4_word0 (f : BitVec 2) (a d h : BitVec 10) :
    let w : Word := f ++ a ++ d ++ h
    bits w 10 10 = d ∧ bits w 20 10 = a ∧ bits w 30 2 = f :=
  ⟨extract_above extractLsb'_append_eq_right, extract_above (extract_above extractLsb'_append_eq_right),
    extract_above (extract_above extractLsb'_append_eq_left)⟩

theorem bits_ops4_word1 (mod8 : BitVec 8) (g : BitVec 4) (c b : BitVec 10) :
    let w : Word := mod8 ++ g ++ c ++ b
    bits w 0 10 = b ∧ bits w 10 10 = c ∧ bits w 20 4 = g ∧ bits w 24 8 = mod8 :=
  ⟨extractLsb'_append_eq_right, extract_above extractLsb'_append_eq_right,
    extract_above (extract_above extractLsb'_append_eq_right), extract_above (extract_above extractLsb'_append_eq_left)⟩

theorem bits_arith_word2 (ext : BitVec 16) (z : BitVec 7) (sat : Bool) (rnd : BitVec 3) (ty : BitVec 5) :
    let w : Word := ext ++ z ++ BitVec.ofBool sat ++ rnd ++ ty
    bits w 0 5 = ty ∧ bits w 5 3 = rnd ∧ w.getLsbD 8 = sat ∧ bits w 9 7 = z ∧ bits w 16 16 = ext :=
  ⟨extractLsb'_append_eq_right, extract_above extractLsb'_append_eq_right,
    getLsbD_above (getLsbD_above getLsbD_zero_append_ofBool),
    extract_above (extract_above (extract_above extractLsb'_append_eq_right)),
    extract_above (extract_above (extract_above extractLsb'_append_eq_left))⟩

theorem bits_mem_word2 (off : BitVec 20) (agent : BitVec 3) (store ord : BitVec 2) (ty : BitVec 5) :
    let w : Word := off ++ agent ++ store ++ ord ++ ty
    bits w 0 5 = ty ∧ bits w 5 2 = ord ∧ bits w 7 2 = store ∧ bits w 9 3 = agent ∧ bits w 12 20 = off :=
  ⟨extractLsb'_append_eq_right, extract_above extractLsb'_append_eq_right,
    extract_above (extract_above extractLsb'_append_eq_right),
    extract_above (extract_above (extract_above extractLsb'_append_eq_right)),
    extract_above (extract_above (extract_above extractLsb'_append_eq_left))⟩

theorem extract_half (ty g : BitVec 4) (c b a d sub : BitVec 7) :
    let u : BitVec 43 := ty ++ g ++ c ++ b ++ a ++ d ++ sub
    u.extractLsb' 0 7 = sub ∧ u.extractLsb' 7 7 = d ∧ u.extractLsb' 14 7 = a ∧ u.extractLsb' 21 7 = b ∧ u.extractLsb' 28 7 = c
      ∧ u.extractLsb' 35 4 = g ∧ u.extractLsb' 39 4 = ty :=
  ⟨extractLsb'_append_eq_right, extract_above extractLsb'_append_eq_right,
    extract_above (extract_above extractLsb'_append_eq_right),
    extract_above (extract_above (extract_above extractLsb'_append_eq_right)),
    extract_above (extract_above (extract_above (extract_above extractLsb'_append_eq_right))),
    extract_above (extract_above (extract_above (extract_above (extract_above extractLsb'_append_eq_right)))),
    extract_above (extract_above (extract_above (extract_above (extract_above extractLsb'_append_eq_left))))⟩

/-! ### Parts of an encoding read back -/

theorem parseOps4_encode {x : Ops4} (f : BitVec 2) (h : BitVec 10) (hw : x.wf = true) :
    parseOps4 (f ++ enc10 x.a ++ enc10 x.d ++ h) (x.mod8 ++ x.g ++ enc10 x.c ++ enc10 x.b) x.lit = some x := by
  simp only [Ops4.wf, Bool.and_eq_true] at hw
  obtain ⟨⟨⟨hd, ha⟩, hb⟩, hc⟩ := hw
  obtain ⟨d, a, -⟩ := bits_ops4_word0 f (enc10 x.a) (enc10 x.d) h
  obtain ⟨b, c, g, m⟩ := bits_ops4_word1 x.mod8 x.g (enc10 x.c) (enc10 x.b)
  simp only [parseOps4, d, a, b, c, g, m, spec10_enc10 hd, spec10_enc10 ha, spec10_enc10 hb, spec10_enc10 hc]

theorem parseArith_encode (x : Arith) :
    parseArith x.toOps4 (x.ext ++ 0#7 ++ BitVec.ofBool x.sat ++ x.rnd ++ x.ty.code) = some x := by
  obtain ⟨ty, rnd, sat, z, ext⟩ := bits_arith_word2 x.ext 0#7 x.sat x.rnd x.ty.code
  simp only [parseArith, z, ty, rnd, sat, ext, Ty.ofCode_code, bne_self_eq_false, Bool.false_eq_true, if_false]

theorem parseMem_encode (x : Memf) :
    parseMem x.toOps4 (x.off ++ x.agent ++ x.store ++ x.ord ++ x.ty.code) = some x := by
  obtain ⟨ty, ord, store, agent, off⟩ := bits_mem_word2 x.off x.agent x.store x.ord x.ty.code
  simp only [parseMem, ty, ord, store, agent, off, Ty.ofCode_code]

theorem parseHalf_encHalf {h : Half} (hw : h.wf = true) : parseHalf (encHalf h) = some h := by
  simp only [Half.wf, Bool.and_eq_true] at hw
  obtain ⟨⟨⟨⟨hd, ha⟩, hb⟩, hc⟩, hty⟩ := hw
  obtain ⟨sub, d, a, b, c, g, ty⟩ :=
    extract_half (h.ty.code.setWidth 4) h.g (enc7 h.c) (enc7 h.b) (enc7 h.a) (enc7 h.d) h.sub
  simp only [parseHalf, encHalf, sub, d, a, b, c, g, ty, spec7_enc7 hd, spec7_enc7 ha, spec7_enc7 hb, spec7_enc7 hc,
    Ty.setWidth_setWidth_code hty, Ty.ofCode_code]

theorem parsePair_encode {x : Pair} (h : BitVec 10) (hw : x.wf = true) :
    let u : BitVec 96 := encHalf x.h1 ++ encHalf x.h0 ++ h
    parsePair (u.extractLsb' 0 32) (u.extractLsb' 32 32) (u.extractLsb' 64 32) x.lit = some x := by
  intro u
  obtain ⟨h0, h1⟩ := Bool.and_eq_true_iff.mp hw
  have e0 : u.extractLsb' 10 43 = encHalf x.h0 := extract_above extractLsb'_append_eq_right
  have e1 : u.extractLsb' 53 43 = encHalf x.h1 := extract_above extractLsb'_append_eq_left
  simp only [parsePair, wide_words, e0, e1, parseHalf_encHalf h0, parseHalf_encHalf h1]

/-! ### Formats -/

/-- The row that an opcode and the fields of a format name. -/
def Fields.row (op : Nat) : Fields → Option Instr
  | .c3 x lit => ofC3 op x lit
  | .ci x lit => ofCI op x lit
  | .cb x => ofCB op x
  | .arith x => ofArith op x
  | .mem x => ofMem op x
  | .desc x => ofDesc op x
  | .pair x => some (.pair x)

/-- The format is one that parsing reads for the opcode (02 R35, R39, R52). -/
def Fields.formatOf (op : Nat) : Fields → Bool
  | .c3 _ _ => isC3 op
  | .ci _ _ => op == 0x90 || op == 0x91 || op == 0x67
  | .cb _ => op == 0x60 || op == 0x61
  | .pair _ => op == 0xFC
  | _ => op != 0xFC

/-- The opcode is not reserved (02 R56), and the format is one of its formats. -/
def Fields.fits (op : Nat) (f : Fields) : Bool := decide (op < 256) && !reservedOp (BitVec.ofNat 8 op) && f.formatOf op

/-- Every operand is one that its specifier can name (02 R45, R46). -/
def Fields.wf : Fields → Bool
  | .c3 x _ => x.wf
  | .ci x _ => x.wf
  | .cb _ => true
  | .arith x => x.toOps4.wf
  | .mem x => x.toOps4.wf
  | .desc x => x.toOps4.wf
  | .pair x => x.wf

/-! ### Each format's words parse to the row -/

section
variable {op : Nat} {i : Instr} (hlt : op < 256) (hres : reservedOp (BitVec.ofNat 8 op) = false)
include hlt hres

theorem parse_compact {w0 : Word} {lit : Option Dword}
    (h : bits w0 0 2 = (if lit.isSome then 2 else 0) ∧ bits w0 2 8 = BitVec.ofNat 8 op) :
    parse (w0 :: litWords lit) = parseCompact op w0 lit := by
  obtain ⟨hlen, hop⟩ := h
  have hn : (BitVec.ofNat 8 op).toNat = op := by simpa using hlt
  cases lit with
  | none => simp [parse, litWords, hop, hres, hlen, hn]
  | some l => simp [parse, litWords, hop, hres, hlen, hn, lit_words]

theorem parse_wide {w0 w1 w2 : Word} {lit : Option Dword}
    (h : bits w0 0 2 = (if lit.isSome then 3 else 1) ∧ bits w0 2 8 = BitVec.ofNat 8 op) :
    parse (w0 :: w1 :: w2 :: litWords lit) = parseWide op w0 w1 w2 lit := by
  obtain ⟨hlen, hop⟩ := h
  have hn : (BitVec.ofNat 8 op).toNat = op := by simpa using hlt
  cases lit with
  | none => simp [parse, litWords, hop, hres, hlen, hn]
  | some l => simp [parse, litWords, hop, hres, hlen, hn, lit_words]

theorem parse_encode_c3 {x : C3} {lit : Option Dword} (hc : isC3 op = true) (hw : x.wf = true) (hr : ofC3 op x lit = some i) :
    parse ((Fields.c3 x lit).encode op) = .ok i := by
  simp only [C3.wf, Bool.and_eq_true] at hw
  obtain ⟨⟨hd, ha⟩, hb⟩ := hw
  obtain ⟨d, a, b, m⟩ := bits_c3 x.m (enc7 x.b) (enc7 x.a) (enc7 x.d) (head op (if lit.isSome then 2 else 0))
  rw [Fields.encode, parse_compact hlt hres (bits_head ..), parseCompact, if_pos hc]
  simp only [d, a, b, m, spec7_enc7 hd, spec7_enc7 ha, spec7_enc7 hb, hr, orElse]

theorem parse_encode_ci {x : CI} {lit : Option Dword} (hc : (op == 0x90 || op == 0x91 || op == 0x67) = true) (hw : x.wf = true)
    (hr : ofCI op x lit = some i) : parse ((Fields.ci x lit).encode op) = .ok i := by
  obtain ⟨hd, ha⟩ := Bool.and_eq_true_iff.mp hw
  have h3 : isC3 op = false := by
    simp only [Bool.or_eq_true, beq_iff_eq] at hc
    obtain (rfl | rfl) | rfl := hc <;> rfl
  obtain ⟨d, a, imm⟩ := bits_ci x.imm (enc7 x.a) (enc7 x.d) (head op (if lit.isSome then 2 else 0))
  rw [Fields.encode, parse_compact hlt hres (bits_head ..), parseCompact, h3, if_neg Bool.false_ne_true, if_pos hc]
  simp only [d, a, imm, spec7_enc7 hd, spec7_enc7 ha, hr, orElse]

theorem parse_encode_cb {x : CB} (hc : (op == 0x60 || op == 0x61) = true) (hr : ofCB op x = some i) :
    parse ((Fields.cb x).encode op) = .ok i := by
  have hk : isC3 op = false ∧ (op == 0x90 || op == 0x91 || op == 0x67) = false := by
    simp only [Bool.or_eq_true, beq_iff_eq] at hc
    obtain rfl | rfl := hc <;> exact ⟨rfl, rfl⟩
  have off : bits (x.off ++ head op 0) 10 22 = x.off := extractLsb'_append_eq_left
  have hp : parse [x.off ++ head op 0] = parseCompact op (x.off ++ head op 0) none :=
    parse_compact (lit := none) hlt hres (bits_head ..)
  simp only [Fields.encode, hp, parseCompact, hk, off, hr, orElse, Option.isNone_none, Bool.false_eq_true, if_false, if_true]

/-- The three forms of 02 R42 differ in the form selector and in what word 2 is read as. -/
theorem parse_encode_ops4 {x : Ops4} (f : BitVec 2) (w2 : Word) (hc : (op != 0xFC) = true) (hw : x.wf = true) :
    ∃ w0 w1, parse (encOps4 f op x ++ w2 :: litWords x.lit) = parseWide op w0 w1 w2 x.lit ∧ (op == 0xFC) = false
      ∧ parseOps4 w0 w1 x.lit = some x ∧ bits w0 30 2 = f :=
  ⟨_, _, parse_wide hlt hres (bits_head ..), by simpa using hc, parseOps4_encode _ _ hw, (bits_ops4_word0 ..).2.2⟩

theorem parse_encode_arith {x : Arith} (hc : (op != 0xFC) = true) (hw : x.toOps4.wf = true) (hr : ofArith op x = some i) :
    parse ((Fields.arith x).encode op) = .ok i := by
  obtain ⟨w0, w1, hp, hpair, ho, hf⟩ := parse_encode_ops4 hlt hres 0 _ hc hw
  rw [Fields.encode, hp]
  simp [parseWide, hpair, ho, hf, parseArith_encode, hr, orElse]

theorem parse_encode_mem {x : Memf} (hc : (op != 0xFC) = true) (hw : x.toOps4.wf = true) (hr : ofMem op x = some i) :
    parse ((Fields.mem x).encode op) = .ok i := by
  obtain ⟨w0, w1, hp, hpair, ho, hf⟩ := parse_encode_ops4 hlt hres 1 _ hc hw
  rw [Fields.encode, hp]
  simp [parseWide, hpair, ho, hf, parseMem_encode, hr, orElse]

theorem parse_encode_desc {x : Desc} (hc : (op != 0xFC) = true) (hw : x.toOps4.wf = true) (hr : ofDesc op x = some i) :
    parse ((Fields.desc x).encode op) = .ok i := by
  obtain ⟨w0, w1, hp, hpair, ho, hf⟩ := parse_encode_ops4 hlt hres 2 _ hc hw
  rw [Fields.encode, hp]
  simp [parseWide, hpair, ho, hf, hr, orElse]

theorem parse_encode_pair {x : Pair} (hc : (op == 0xFC) = true) (hw : x.wf = true) :
    parse ((Fields.pair x).encode op) = .ok (.pair x) := by
  rw [Fields.encode, parse_wide hlt hres (bits_head_pair ..), parseWide, if_pos hc, parsePair_encode _ hw]
  rfl

end

theorem parse_encode_fields {op : Nat} {i : Instr} {f : Fields} (hf : f.fits op = true) (hw : f.wf = true)
    (hr : f.row op = some i) : parse (f.encode op) = .ok i := by
  simp only [Fields.fits, Bool.and_eq_true, decide_eq_true_eq, Bool.not_eq_true'] at hf
  obtain ⟨⟨hlt, hres⟩, hc⟩ := hf
  cases f with
  | c3 x lit => exact parse_encode_c3 hlt hres hc hw hr
  | ci x lit => exact parse_encode_ci hlt hres hc hw hr
  | cb x => exact parse_encode_cb hlt hres hc hr
  | arith x => exact parse_encode_arith hlt hres hc hw hr
  | mem x => exact parse_encode_mem hlt hres hc hw hr
  | desc x => exact parse_encode_desc hlt hres hc hw hr
  | pair x =>
    obtain rfl : Instr.pair x = i := Option.some.inj hr
    exact parse_encode_pair hlt hres hc hw

/-! ### The rows of the instruction table -/

/-- A well-formed instruction that is not a step of the device has an opcode and fields, in a format of that opcode, which name the
instruction again; or its opcode is reserved. -/
theorem fields_or_illegalOpcode {i : Instr} (hw : i.wf = true) (hs : i.isStep = false) :
    (∃ op f, i.fields = some (op, f) ∧ f.fits op = true ∧ f.wf = true ∧ f.row op = some i) ∨ ∃ ws, i = .illegalOpcode ws := by
  cases i with
  | illegalOpcode ws => exact .inr ⟨ws, rfl⟩
  -- rows that share an opcode: wf holds the modifier bits that tell them apart
  | hmin x | hmax x | sets x | sxTimeWrite x | qtryPush x | qtryPop x | sgcancel x | sgcancelAll x | regionOpen x | regionClose x
  | launchStart x | launchReply x | launchPreempt x | launchResume x | launchEnd x | launchBind x =>
    obtain ⟨hx, hsel⟩ := Bool.and_eq_true_iff.mp hw
    exact .inl ⟨_, _, rfl, rfl, hx, by simp_all [Fields.row, ofArith, ofDesc]⟩
  -- rows with a wide form and a compact form with a literal
  | mov96 x | add96 x | sub96 x | neg96 x | abs96 x | min96 x | max96 x | mul96 x | mulhi96 x | mad96 x | div96 x | rem96 x
  | and96 x | or96 x | xor96 x | not96 x | andn96 x | shl96 x | shr96 x | sar96 x | rol96 x | ror96 x | popc96 x | clz96 x
  | ctz96 x | brev96 x | revb96 x | fadd96 x | fsub96 x | fmul96 x | ffma96 x | fmin96 x | fmax96 x | fabs96 x | fneg96 x
  | jmp96 x | calli96 x | ret96 x | hadd96 x | hmul96 x | hfma96 x | rcp96 x | rsq96 x | ex296 x | lg296 x | sin96 x | cos96 x
  | tanh96 x | ld96 x | st96 x => cases x <;> exact .inl ⟨_, _, rfl, rfl, hw, rfl⟩
  | _ => cases hs <;> exact .inl ⟨_, _, rfl, rfl, hw, rfl⟩

theorem encode_of_fields {i : Instr} {op : Nat} {f : Fields} (h : i.fields = some (op, f)) : encode i = f.encode op := by
  unfold encode
  split
  · cases h
  · simp only [h]

/-! ### Reserved opcodes (02 R56, R58) -/

theorem parse_reserved {w0 : Word} {rest : List Word} (hop : reservedOp (bits w0 2 8) = true)
    (hlen : rest.length + 1 = lengthWords w0) : parse (w0 :: rest) = .ok (.illegalOpcode (w0 :: rest)) := by
  simp [parse, hop, ← hlen]

theorem words_of_illegalOpcode_wf {ws : List Word} (h : (Instr.illegalOpcode ws).wf = true) :
    ∃ w0 rest, ws = w0 :: rest ∧ rest.length + 1 = lengthWords w0 ∧ reservedOp (bits w0 2 8) = true := by
  cases ws with
  | nil => cases h
  | cons w0 rest =>
    obtain ⟨hlen, hop⟩ := Bool.and_eq_true_iff.mp h
    exact ⟨w0, rest, rfl, by simpa using hlen, hop⟩

/-! ### Parsing and decoding read back encoding -/

theorem parse_encode {i : Instr} (hw : i.wf = true) (hs : i.isStep = false) : parse (encode i) = .ok i := by
  obtain ⟨op, f, hi, hf, hfw, hr⟩ | ⟨ws, rfl⟩ := fields_or_illegalOpcode hw hs
  · rw [encode_of_fields hi]
    exact parse_encode_fields hf hfw hr
  · obtain ⟨w0, rest, rfl, hlen, hop⟩ := words_of_illegalOpcode_wf hw
    exact parse_reserved hop hlen

theorem decode_of_parse {ws : List Word} {i : Instr} (hp : parse ws = .ok i) (hl : i.legal = true) : decode ws = .ok i := by
  simp only [decode, hp, hl, if_true]

/-- Settles O1: the words of each format parse to the row that the opcode and the fields name, and that row is the instruction. -/
theorem decodeReadsBackEncode : Obligations.DecodeReadsBackEncode :=
  fun _ hw hl hs => decode_of_parse (parse_encode hw hs) hl

/-! ### Lengths (02 R34) -/

theorem lengthWords_eq (w : Word) : lengthWords w = if bits w 0 2 = 0 then 1 else if bits w 0 2 = 3 then 5 else 3 := by
  have h : w &&& 3#32 = (bits w 0 2).setWidth 32 := BitVec.eq_of_toNat_eq <| by
    have hm : w.toNat &&& 3 = w.toNat % 4 := Nat.and_two_pow_sub_one_eq_mod w.toNat 2
    simp only [bits, BitVec.toNat_and, BitVec.toNat_setWidth, BitVec.extractLsb'_toNat, BitVec.toNat_ofNat, Nat.shiftRight_zero,
      Nat.reducePow, Nat.reduceMod, hm]
    omega
  unfold lengthWords
  rw [h]
  generalize bits w 0 2 = b
  revert b
  decide

theorem lowBits_of_bits {w : Word} {b : BitVec 2} (h : bits w 0 2 = b) : w.getLsbD 1 = b.getLsbD 1 ∧ w.getLsbD 0 = b.getLsbD 0 := by
  subst h
  simp [bits]

/-- The words begin with one whose bits [1:0] give their number. -/
def SelfSized (l : List Word) : Prop := ∃ w ws, l = w :: ws ∧ ws.length + 1 = lengthWords w

theorem selfSized_compact {w : Word} {lit : Option Dword} (h : bits w 0 2 = if lit.isSome then 2 else 0) :
    SelfSized (w :: litWords lit) := by
  refine ⟨_, _, rfl, ?_⟩
  rw [lengthWords_eq, h]
  cases lit <;> rfl

theorem selfSized_wide {w w1 w2 : Word} {lit : Option Dword} (h : bits w 0 2 = if lit.isSome then 3 else 1) :
    SelfSized (w :: w1 :: w2 :: litWords lit) := by
  refine ⟨_, _, rfl, ?_⟩
  rw [lengthWords_eq, h]
  cases lit <;> rfl

theorem selfSized_encode_fields (op : Nat) (f : Fields) : SelfSized (f.encode op) := by
  cases f with
  | c3 x lit | ci x lit => exact selfSized_compact (bits_head ..).1
  | cb x => exact selfSized_compact (lit := none) (bits_head ..).1
  | arith x | mem x | desc x => exact selfSized_wide (bits_head ..).1
  | pair x => exact selfSized_wide (bits_head_pair ..).1

theorem selfSized_encode {i : Instr} (hw : i.wf = true) (hs : i.isStep = false) : SelfSized (encode i) := by
  obtain ⟨op, f, hi, -⟩ | ⟨ws, rfl⟩ := fields_or_illegalOpcode hw hs
  · rw [encode_of_fields hi]
    exact selfSized_encode_fields op f
  · obtain ⟨w0, rest, rfl, hlen, -⟩ := words_of_illegalOpcode_wf hw
    exact ⟨w0, rest, rfl, hlen⟩

/-- Settles O35: word 0 of every format carries the length bits of its word count, and RTE reads them from the frame. -/
theorem lowBitsGiveTheLength : Obligations.LowBitsGiveTheLength := by
  refine ⟨fun w => ?_, fun i hw hs => ?_, fun x => ⟨_, _, rfl, ?_⟩, fun x => ⟨_, _, rfl, lowBits_of_bits (bits_head ..).1⟩,
    fun x l => ⟨_, _, rfl, ?_⟩, fun fr h => ?_⟩
  · obtain ⟨h1, h0⟩ := lowBits_of_bits (w := w) rfl
    rw [h1, h0, lengthWords_eq]
    generalize bits w 0 2 = b
    revert b
    decide
  · obtain ⟨w, ws, he, hlen⟩ := selfSized_encode hw hs
    exact ⟨w, ws, he, by rw [Instr.len, he, List.length_cons, hlen]⟩
  · obtain ⟨h1, h0⟩ := lowBits_of_bits (bits_head _ _ _).1
    rw [h1, h0]
    cases x.lit <;> simp
  · obtain ⟨h1, h0⟩ := lowBits_of_bits (bits_head _ _ _).1
    rw [h1, h0]
    simp
  · simp [Machine.rteTarget, Machine.wordLen, h]

end Sys2Proof
end

section
/-! SUPPORT. The instructions that chapter 02 itself gives a meaning: reserved opcodes (R56, R58), the emulable instructions (R60) and
pairs (R52 to R55), for a thread that issues alone. -/

namespace Sys2Proof.Machine

/-! ### Traps of an encoding -/

theorem illegalOpcode_traps (ws : List Word) : Traps (.illegalOpcode ws) .illegal :=
  fun s _ h => (exec_illegalOpcode s ws).trans (runTeam_alone _ h)

/-- Settles O3: the words parse as they stand, no check of the words applies to them, and the instruction's only effect is the trap. -/
theorem reservedOpcodesRaiseIllegal : Obligations.ReservedOpcodesRaiseIllegal :=
  fun w0 rest hop hlen => ⟨decode_of_parse (parse_reserved hop hlen) rfl, illegalOpcode_traps (w0 :: rest)⟩

theorem traps_of_exec_unimplTeam {i : Instr} (he : ∀ s, exec i s = unimplTeam i s) : Traps i .unimpl :=
  fun s _ h => (he s).trans (unimplTeam_alone h)

theorem exec_fdiv_f64 {x : Arith} (h : x.ty = .f64) (s : State) : exec (.fdiv x) s = unimplTeam (.fdiv x) s := by
  simp [exec_fdiv, execFdiv, h]

theorem exec_fsqrt_f64 {x : Arith} (h : x.ty = .f64) (s : State) : exec (.fsqrt x) s = unimplTeam (.fsqrt x) s := by
  simp [exec_fsqrt, execFsqrt, h]

/-- Settles O16: each of the six rows is an emulable instruction, in its .f64 case for division and square root. -/
theorem emulableInstructionsRaiseUnimpl : Obligations.EmulableInstructionsRaiseUnimpl :=
  ⟨fun x => traps_of_exec_unimplTeam (exec_div · x), fun x => traps_of_exec_unimplTeam (exec_div96 · x),
    fun x => traps_of_exec_unimplTeam (exec_rem · x), fun x => traps_of_exec_unimplTeam (exec_rem96 · x),
    fun _ h => ⟨traps_of_exec_unimplTeam (exec_fdiv_f64 h), traps_of_exec_unimplTeam (exec_fsqrt_f64 h)⟩⟩

/-! ### Pairs -/

section
variable {s : State} {th : Thread} {lit : Dword} {h : Half}

theorem halfOut_of_guard (hg : th.guard h.g = true) :
    halfOut s th lit h =
      let r := halfVal h (s.src th lit h.a 32).toNat (s.src th lit h.b 32).toNat (s.src th lit h.c 32).toNat
      some { d := h.d, w := 32, val := r.bits, flags := r.flags } :=
  if_pos hg

theorem halfOut_of_not_guard (hg : th.guard h.g = false) : halfOut s th lit h = none :=
  if_neg (Bool.eq_false_iff.mp hg)

end

/-- Settles O22: both results are computed from the state before the pair, and a half with a false guard has none; the four cases are
the two halves' guards. -/
theorem pairExecutesBothHalves : Obligations.PairExecutesBothHalves := by
  intro x s th h half
  rw [exec_pair, execPair, runTeam_alone _ h]
  cases h0 : th.guard x.h0.g <;> cases h1 : th.guard x.h1.g <;> simp [half, halfOut_of_guard, halfOut_of_not_guard, h0, h1]

end Sys2Proof.Machine
end

section
/-! SUPPORT. Integer formats (03 R68, 04 R98): the value of a code lies in the type's range and is congruent to the code, and a type's
range holds one integer of each class modulo 2^w. -/

namespace Sys2Proof.Machine

section
variable (ty : Ty)

theorem two_mul_half_width : 2 * 2 ^ (ty.width - 1) = 2 ^ ty.width := by
  cases ty <;> rfl

theorem range_snd : (Ty.range ty).2 = (Ty.range ty).1 + (2 ^ ty.width : Nat) - 1 := by
  have hw := two_mul_half_width ty
  unfold Ty.range
  split <;> dsimp only <;> omega

theorem decodeI_signed {ty : Ty} (h : ty.signed = true) (n : Nat) :
    decodeI ty n = if 2 ^ (ty.width - 1) ≤ n % 2 ^ ty.width then ((n % 2 ^ ty.width : Nat) : Int) - (2 ^ ty.width : Nat)
      else (n % 2 ^ ty.width : Nat) := by
  have hw := two_mul_half_width ty
  have hn := Nat.mod_lt n (Nat.two_pow_pos ty.width)
  have hb : (n % 2 ^ ty.width).testBit (ty.width - 1) = decide (2 ^ (ty.width - 1) ≤ n % 2 ^ ty.width) := by
    by_cases hle : 2 ^ (ty.width - 1) ≤ n % 2 ^ ty.width
    · simpa [hle] using Nat.testBit_of_two_pow_le_and_two_pow_add_one_gt hle (by omega)
    · simpa [hle] using Nat.testBit_lt_two_pow (Nat.lt_of_not_le hle)
  simp [decodeI, h, hb]

theorem decodeI_unsigned {ty : Ty} (h : ty.signed = false) (n : Nat) : decodeI ty n = (n % 2 ^ ty.width : Nat) := by
  simp [decodeI, h]

theorem decodeI_mem_range (n : Nat) : (Ty.range ty).1 ≤ decodeI ty n ∧ decodeI ty n ≤ (Ty.range ty).2 := by
  have hw := two_mul_half_width ty
  have hn := Nat.mod_lt n (Nat.two_pow_pos ty.width)
  cases h : ty.signed with
  | true =>
    rw [decodeI_signed h]
    simp only [Ty.range, h, if_true]
    split <;> omega
  | false =>
    rw [decodeI_unsigned h]
    simp only [Ty.range, h, Bool.false_eq_true, if_false]
    omega

theorem dvd_decodeI_sub (n : Nat) : ((2 ^ ty.width : Nat) : Int) ∣ decodeI ty n - n := by
  have hmod : ((2 ^ ty.width : Nat) : Int) ∣ ((n % 2 ^ ty.width : Nat) : Int) - n := by
    rw [Int.natCast_emod]
    exact Int.dvd_emod_sub_self
  cases h : ty.signed with
  | true =>
    rw [decodeI_signed h]
    split
    next =>
      rw [show ((n % 2 ^ ty.width : Nat) : Int) - (2 ^ ty.width : Nat) - n = (n % 2 ^ ty.width : Nat) - n - (2 ^ ty.width : Nat) by omega]
      exact Int.dvd_sub hmod (Int.dvd_refl _)
    next => exact hmod
  | false =>
    rw [decodeI_unsigned h]
    exact hmod

theorem natCast_encodeI (x : Int) : (encodeI ty false x : Int) = x % (2 ^ ty.width : Nat) := by
  have hw := Nat.two_pow_pos ty.width
  exact Int.toNat_of_nonneg (Int.emod_nonneg _ (by omega))

theorem encodeI_lt (sat : Bool) (x : Int) : encodeI ty sat x < 2 ^ ty.width := by
  have hw := Nat.two_pow_pos ty.width
  exact (Int.toNat_lt (Int.emod_nonneg _ (by omega))).mpr (Int.emod_lt_of_pos _ (by omega))

theorem dvd_decodeI_encodeI_sub (x : Int) : ((2 ^ ty.width : Nat) : Int) ∣ decodeI ty (encodeI ty false x) - x := by
  have hcode : ((2 ^ ty.width : Nat) : Int) ∣ (encodeI ty false x : Int) - x := by
    rw [natCast_encodeI]
    exact Int.dvd_emod_sub_self
  rw [show decodeI ty (encodeI ty false x) - x
    = decodeI ty (encodeI ty false x) - encodeI ty false x + (encodeI ty false x - x) by omega]
  exact Int.dvd_add (dvd_decodeI_sub ty _) hcode

theorem decodeI_encodeI_of_mem_range {x : Int} (hlo : (Ty.range ty).1 ≤ x) (hhi : x ≤ (Ty.range ty).2) :
    decodeI ty (encodeI ty false x) = x := by
  have hr := range_snd ty
  obtain ⟨h1, h2⟩ := decodeI_mem_range ty (encodeI ty false x)
  have hzero := Int.eq_zero_of_dvd_of_natAbs_lt_natAbs (dvd_decodeI_encodeI_sub ty x) (by omega)
  omega

theorem clampTo_mem_range (x : Int) : (Ty.range ty).1 ≤ clampTo ty x ∧ clampTo ty x ≤ (Ty.range ty).2 := by
  have hr := range_snd ty
  have hw := Nat.two_pow_pos ty.width
  unfold clampTo
  dsimp only
  split
  next => omega
  next => split <;> omega

theorem decodeI_encodeI_sat (x : Int) : decodeI ty (encodeI ty true x) = clampTo ty x :=
  decodeI_encodeI_of_mem_range ty (clampTo_mem_range ty x).1 (clampTo_mem_range ty x).2

end

/-- Settles O11: the value of a code lies in the range and in the class of the exact integer modulo 2^w, and the clamped integer lies
in the range already. -/
theorem integersWrapOrClamp : Obligations.IntegersWrapOrClamp := fun ty e _ =>
  ⟨encodeI_lt ty false e, encodeI_lt ty true e, Int.emod_eq_zero_of_dvd (dvd_decodeI_encodeI_sub ty e),
    (decodeI_mem_range ty _).1, (decodeI_mem_range ty _).2, decodeI_encodeI_sat ty e⟩

end Sys2Proof.Machine
end

section
/-! SUPPORT. Rounding to FP32 (03 R79, R81): the fields of a code, numbers that FP32 represents, and numbers near a power of two. -/

namespace Sys2Proof.Machine

/-! ### Codes and what they stand for -/

theorem decodeF_f32 (a : Nat) :
    decodeF .f32 a =
      if a / 2 ^ 23 % 2 ^ 8 = 255 then
        if a % 2 ^ 23 = 0 then .inf (a.testBit 31) else .nan (!(a % 2 ^ 23).testBit 22)
      else if a / 2 ^ 23 % 2 ^ 8 = 0 then .fin (a.testBit 31) (a % 2 ^ 23) (-149)
      else .fin (a.testBit 31) (a % 2 ^ 23 + 2 ^ 23) ((a / 2 ^ 23 % 2 ^ 8 : Nat) - 150) := by
  have hexp (x : Int) : -149 + (x - 1) = x - 150 := by omega
  simp [decodeF, Ty.fmt, Fmt.q0, hexp]

theorem decodeF_f32_fin_lt {a m : Nat} {n : Bool} {e : Int} (h : decodeF .f32 a = .fin n m e) : m < 2 ^ 24 := by
  rw [decodeF_f32] at h
  split at h
  next => split at h <;> cases h
  next => split at h <;> cases h <;> omega

theorem decodeF_put_f32 (n : Bool) {X F : Nat} (hX : X < 255) (hF : F < 2 ^ 23) :
    decodeF .f32 ((Ty.fmt .f32).put n (X * 2 ^ 23 + F))
      = if X = 0 then .fin n F (-149) else .fin n (F + 2 ^ 23) ((X : Int) - 150) := by
  have hput : (Ty.fmt .f32).put n (X * 2 ^ 23 + F) = X * 2 ^ 23 + F + n.toNat * 2 ^ 31 := by
    cases n <;> simp [Fmt.put, Ty.fmt]
  have hsign : (X * 2 ^ 23 + F + n.toNat * 2 ^ 31).testBit 31 = n := by
    rw [Nat.testBit_eq_decide_div_mod_eq, show (X * 2 ^ 23 + F + n.toNat * 2 ^ 31) / 2 ^ 31 = n.toNat by omega]
    cases n <;> rfl
  have hexp : (X * 2 ^ 23 + F + n.toNat * 2 ^ 31) / 2 ^ 23 % 2 ^ 8 = X := by
    cases n <;> simp only [Bool.toNat_false, Bool.toNat_true] <;> omega
  have hman : (X * 2 ^ 23 + F + n.toNat * 2 ^ 31) % 2 ^ 23 = F := by omega
  rw [hput, decodeF_f32, hsign, hexp, hman, if_neg (by omega)]

/-- N * 2^q as FP32 writes its finite values: 24 bits, or fewer at the exponent of the subnormals. -/
structure FitsF32 (N : Nat) (q : Int) : Prop where
  lt : N < 2 ^ 24
  normal : 2 ^ 23 ≤ N ∨ q = -149
  lo : -149 ≤ q
  hi : q ≤ 104

theorem FitsF32.code_eq {N : Nat} {q : Int} (h : FitsF32 N q) :
    (Ty.fmt .f32).code N q = (if N < 2 ^ 23 then 0 else (q + 150).toNat) * 2 ^ 23 + N % 2 ^ 23 := by
  have hlt := h.lt
  have hne : (N == 2 ^ ((Ty.fmt .f32).mw + 1)) = false := beq_eq_false_iff_ne.mpr (Nat.ne_of_lt hlt)
  have hq : q - (Ty.fmt .f32).q0 + 1 = q + 150 := by
    rw [show (Ty.fmt .f32).q0 = -149 from rfl]
    omega
  simp only [Fmt.code, hne, hq, Bool.false_eq_true, if_false]
  change (if N < 2 ^ 23 then N else (q + 150).toNat * 2 ^ 23 + (N - 2 ^ 23)) = _
  by_cases hN : N < 2 ^ 23
  · rw [if_pos hN, if_pos hN, Nat.mod_eq_of_lt hN]
    omega
  · rw [if_neg hN, if_neg hN]
    omega

theorem FitsF32.code_lt {N : Nat} {q : Int} (h : FitsF32 N q) : (Ty.fmt .f32).code N q < 255 * 2 ^ 23 := by
  have hhi := h.hi
  rw [h.code_eq]
  split <;> omega

theorem FitsF32.decodeF_put {N : Nat} {q : Int} (h : FitsF32 N q) (n : Bool) :
    decodeF .f32 ((Ty.fmt .f32).put n ((Ty.fmt .f32).code N q)) = .fin n N q := by
  obtain ⟨hlt, hn, hlo, hhi⟩ := h
  rw [FitsF32.code_eq ⟨hlt, hn, hlo, hhi⟩, decodeF_put_f32 n (by split <;> omega) (by omega)]
  by_cases hN : N < 2 ^ 23
  · rw [if_pos hN, if_pos rfl, Nat.mod_eq_of_lt hN, hn.resolve_left (by omega)]
  · rw [if_neg hN, if_neg (by omega)]
    congr 1 <;> omega

/-- The exponent at which FP32 rounds m * 2^e. -/
def roundExp (m : Nat) (e : Int) : Int :=
  if e + Nat.log2 m - 23 < -149 then -149 else e + Nat.log2 m - 23

theorem rne_of_roundAt {n : Bool} {m N : Nat} {e : Int} (hm : m ≠ 0) (hr : (roundAt .rne n m e (roundExp m e)).1 = N)
    (hc : (Ty.fmt .f32).code N (roundExp m e) < 255 * 2 ^ 23) :
    rne .f32 (.fin n m e) = (Ty.fmt .f32).put n ((Ty.fmt .f32).code N (roundExp m e)) := by
  have hq : (if e + Nat.log2 m - ((Ty.fmt .f32).mw : Int) < (Ty.fmt .f32).q0 then (Ty.fmt .f32).q0
      else e + Nat.log2 m - ((Ty.fmt .f32).mw : Int)) = roundExp m e := rfl
  have hmax : ¬ (Ty.fmt .f32).maxCode < (Ty.fmt .f32).code N (roundExp m e) := by
    rw [show (Ty.fmt .f32).maxCode = 255 * 2 ^ 23 - 1 from rfl]
    omega
  simp [rne, roundTo, roundFin, hm, hq, hr, hmax]

theorem rne_of_roundExp_le {n : Bool} {m : Nat} {e : Int} (hm : m ≠ 0) (hq : roundExp m e ≤ e)
    (hf : FitsF32 (m * 2 ^ (e - roundExp m e).toNat) (roundExp m e)) :
    rne .f32 (.fin n m e) = (Ty.fmt .f32).put n ((Ty.fmt .f32).code (m * 2 ^ (e - roundExp m e).toNat) (roundExp m e)) :=
  rne_of_roundAt hm (by rw [roundAt, if_pos hq]) hf.code_lt

theorem roundAt_rne_of_near {n : Bool} {m N : Nat} {e q : Int} (hq : e < q)
    (hlo : 2 * N * 2 ^ (q - e).toNat < 2 * m + 2 ^ (q - e).toNat)
    (hhi : 2 * m < 2 * N * 2 ^ (q - e).toNat + 2 ^ (q - e).toNat) :
    (roundAt .rne n m e q).1 = N := by
  rw [roundAt, if_neg (by omega)]
  dsimp only
  have hpos := Nat.two_pow_pos (q - e).toNat
  generalize 2 ^ (q - e).toNat = D at *
  have hdiv : D * (m / D) + m % D = m := Nat.div_add_mod m D
  have hmod : m % D < D := Nat.mod_lt m hpos
  generalize m / D = a at *
  generalize m % D = r at *
  have hle : a ≤ N := by
    refine Nat.le_of_not_lt fun h => ?_
    have := Nat.mul_le_mul_left D h
    grind
  have hge : N ≤ a + 1 := by
    refine Nat.le_of_not_lt fun h => ?_
    have := Nat.mul_le_mul_left D h
    grind
  rcases Nat.eq_or_lt_of_le hle with rfl | hlt
  · have h1 : 2 * r < D := by grind
    simp [show ¬ D < 2 * r by omega, show 2 * r ≠ D by omega]
  · obtain rfl : N = a + 1 := by omega
    have h1 : D < 2 * r := by grind
    simp [h1]

theorem fitsF32_pow2 {i : Int} {k : Nat} (hk : k = min (i + 149).toNat 23) (hlo : -149 ≤ i) (hhi : i < 128) :
    FitsF32 (2 ^ k) (i - k) := by
  have h23 : k ≤ 23 := by omega
  refine ⟨Nat.pow_lt_pow_right (by decide) (by omega), ?_, by omega, by omega⟩
  by_cases h : k = 23
  · exact .inl (h ▸ Nat.le_refl _)
  · exact .inr (by omega)

theorem rne_pow2V {i : Int} {k : Nat} (hk : k = min (i + 149).toNat 23) (hlo : -149 ≤ i) (hhi : i < 128) :
    rne .f32 (pow2V i) = (Ty.fmt .f32).put false ((Ty.fmt .f32).code (2 ^ k) (i - k)) := by
  have hq : roundExp 1 i = i - k := by
    rw [roundExp, show Nat.log2 1 = 0 from rfl]
    omega
  have hpow : 1 * 2 ^ (i - roundExp 1 i).toNat = 2 ^ k := by
    rw [Nat.one_mul, show (i - roundExp 1 i).toNat = k by omega]
  have hfits := fitsF32_pow2 hk hlo hhi
  rw [pow2V, rne_of_roundExp_le (by decide) (by omega) (by rwa [hpow, hq]), hpow, hq]

theorem decodeF_rne_pow2V {i : Int} {k : Nat} (hk : k = min (i + 149).toNat 23) (hlo : -149 ≤ i) (hhi : i < 128) :
    decodeF .f32 (rne .f32 (pow2V i)) = .fin false (2 ^ k) (i - k) := by
  rw [rne_pow2V hk hlo hhi, (fitsF32_pow2 hk hlo hhi).decodeF_put]

theorem code_carry (q : Int) : (Ty.fmt .f32).code (2 ^ 24) q = (Ty.fmt .f32).code (2 ^ 23) (q + 1) := by
  simp [Fmt.code, Ty.fmt]

theorem roundAt_near_pow2 {n : Bool} {m j : Nat} {e q : Int} (h1 : 2 ^ 128 - 2 ^ 20 ≤ m) (h2 : m ≤ 2 ^ 128 + 2 ^ 20)
    (hj : j ≤ 24) (hq : q = e + 128 - j) : (roundAt .rne n m e q).1 = 2 ^ j := by
  have hd : (q - e).toNat = 128 - j := by omega
  have hN : 2 ^ j * 2 ^ (128 - j) = 2 ^ 128 := by rw [← Nat.pow_add, Nat.add_sub_cancel' (by omega)]
  have hD : 2 ^ 104 ≤ 2 ^ (128 - j) := Nat.pow_le_pow_right (by decide) (by omega)
  apply roundAt_rne_of_near (by omega) <;> rw [hd, Nat.mul_assoc, hN] <;> omega

/-- Below 2^i, where FP32's steps are half of those above, the rounding carries; elsewhere it is 2^i in FP32's digits at once. -/
theorem rne_near_pow2 {i : Int} (hlo : -149 ≤ i) (hhi : i < 128) {m : Nat}
    (h1 : 2 ^ 128 - 2 ^ 20 ≤ m) (h2 : m ≤ 2 ^ 128 + 2 ^ 20) :
    rne .f32 (.fin false m (i - 128)) = rne .f32 (pow2V i) := by
  obtain ⟨k, hk⟩ : ∃ k, k = min (i + 149).toNat 23 := ⟨_, rfl⟩
  have hcode := (fitsF32_pow2 hk hlo hhi).code_lt
  have hm0 : m ≠ 0 := by omega
  rw [rne_pow2V hk hlo hhi]
  by_cases hcarry : m < 2 ^ 128 ∧ -126 < i
  · obtain ⟨hm, hi⟩ := hcarry
    have hlog : Nat.log2 m = 127 := (Nat.log2_eq_iff hm0).mpr ⟨by omega, hm⟩
    have hq : roundExp m (i - 128) = i - 24 := by
      rw [roundExp, hlog]
      omega
    obtain rfl : k = 23 := by omega
    have hc : (Ty.fmt .f32).code (2 ^ 24) (i - 24) = (Ty.fmt .f32).code (2 ^ 23) (i - (23 : Nat)) := by
      rw [code_carry]
      congr 1
      omega
    rw [rne_of_roundAt hm0 (roundAt_near_pow2 h1 h2 (j := 24) (by omega) (by omega)) (by rwa [hq, hc]), hq, hc]
  · have hq : roundExp m (i - 128) = i - k := by
      rcases Nat.lt_or_ge m (2 ^ 128) with hm | hm
      · rw [roundExp, (Nat.log2_eq_iff hm0).mpr ⟨by omega, hm⟩]
        omega
      · rw [roundExp, (Nat.log2_eq_iff hm0).mpr ⟨hm, by omega⟩]
        omega
    rw [rne_of_roundAt hm0 (roundAt_near_pow2 h1 h2 (j := k) (by omega) (by omega)) (by rwa [hq]), hq]

/-! ### Integers -/

/-- The integer i as a multiple of 2^-s. -/
def scaledInt (i : Int) (s : Nat) : FVal := .fin (decide (i < 0)) (i.natAbs * 2 ^ s) (-(s : Int))

theorem decodeF_rne_ofInt {i : Int} (h0 : i ≠ 0) (hi : i.natAbs < 2 ^ 24) :
    decodeF .f32 (rne .f32 (ofInt i)) = scaledInt i (23 - Nat.log2 i.natAbs) := by
  have hn : i.natAbs ≠ 0 := Int.natAbs_ne_zero.mpr h0
  have hlog : Nat.log2 i.natAbs ≤ 23 := Nat.lt_succ_iff.mp ((Nat.log2_lt hn).mpr hi)
  have hq : roundExp i.natAbs 0 = -(23 - Nat.log2 i.natAbs : Nat) := by
    rw [roundExp]
    omega
  have hN : i.natAbs * 2 ^ (0 - roundExp i.natAbs 0).toNat = i.natAbs * 2 ^ (23 - Nat.log2 i.natAbs) := by
    rw [show (0 - roundExp i.natAbs 0).toNat = 23 - Nat.log2 i.natAbs by omega]
  have hle : 2 ^ Nat.log2 i.natAbs * 2 ^ (23 - Nat.log2 i.natAbs) = 2 ^ 23 := by
    rw [← Nat.pow_add, Nat.add_sub_cancel' hlog]
  have hf : FitsF32 (i.natAbs * 2 ^ (23 - Nat.log2 i.natAbs)) (-(23 - Nat.log2 i.natAbs : Nat)) := by
    refine ⟨?_, .inl ?_, by omega, by omega⟩
    · have hlt := Nat.mul_lt_mul_of_pos_right (Nat.lt_log2_self (n := i.natAbs)) (Nat.two_pow_pos (23 - Nat.log2 i.natAbs))
      rw [Nat.pow_succ, Nat.mul_right_comm, hle] at hlt
      omega
    · rw [← hle]
      exact Nat.mul_le_mul_right _ (Nat.log2_self_le hn)
  rw [ofInt, rne_of_roundExp_le hn (by omega) (by rwa [hN, hq]), hN, hq, hf.decodeF_put, scaledInt]

end Sys2Proof.Machine
end

section
/-! SUPPORT. The special functions (03 R92 to R94, 06 R180): the issue of each form, quotients and roots with a sticky last bit, and 2^x
and log2 x where they are exact. -/

namespace Sys2Proof.Machine

/-! ### The issue -/

theorem gives_of_exec_sfnTeam {i : Instr} {y : Arith} {f : Sfn} (he : ∀ s, exec i s = sfnTeam i y f s) :
    Gives i fun s th =>
      let r := sfnVal f y.ty (s.argA th y)
      { d := y.d, w := 32, val := r.bits, flags := r.flags } :=
  fun s h => (he s).trans (sfnTeam_runs h)

/-! ### Quotients and roots whose last bit is set when they are inexact (03 R92) -/

/-- Twice the quotient of 2^b by m, its last bit set when the division leaves a remainder. -/
def stickyDiv (b m : Nat) : Nat := 2 * (2 ^ b / m) + if 2 ^ b % m == 0 then 0 else 1

theorem stickyDiv_spec (b : Nat) {m : Nat} (hm : m ≠ 0) :
    let q := stickyDiv b m
    (q % 2 = 0 ∧ q * m = 2 ^ (b + 1)) ∨ (q % 2 = 1 ∧ (q - 1) * m < 2 ^ (b + 1) ∧ 2 ^ (b + 1) < (q + 1) * m) := by
  rw [Nat.pow_succ]
  unfold stickyDiv
  generalize 2 ^ b = a
  have hdiv : m * (a / m) + a % m = a := Nat.div_add_mod a m
  have hlt : a % m < m := Nat.mod_lt a (Nat.pos_of_ne_zero hm)
  by_cases h : a % m = 0
  · left
    rw [if_pos (by simpa using h)]
    exact ⟨by omega, by grind⟩
  · right
    have h0 : 0 < a % m := Nat.pos_of_ne_zero h
    rw [if_neg (by simpa using h)]
    exact ⟨by omega, by grind, by grind⟩

theorem le_stickyDiv {b c m : Nat} (hm : m ≠ 0) (h : c * m ≤ 2 ^ b) : 2 * c ≤ stickyDiv b m := by
  have := (Nat.le_div_iff_mul_le (Nat.pos_of_ne_zero hm)).mpr h
  unfold stickyDiv
  omega

theorem isqrtBits_bounds {n : Nat} : ∀ {b r : Nat}, r ^ 2 ≤ n → n < (r + 2 ^ b) ^ 2 →
    isqrtBits n b r ^ 2 ≤ n ∧ n < (isqrtBits n b r + 1) ^ 2
  | 0, _, hle, hlt => ⟨hle, hlt⟩
  | b + 1, r, hle, hlt => by
    unfold isqrtBits
    dsimp only
    split
    next h =>
      refine isqrtBits_bounds (by rwa [Nat.pow_two]) ?_
      rwa [Nat.add_assoc, ← Nat.two_mul, ← Nat.pow_succ']
    next h =>
      refine isqrtBits_bounds hle ?_
      rw [Nat.pow_two]
      omega

theorem isqrt_bounds (n : Nat) : isqrt n ^ 2 ≤ n ∧ n < (isqrt n + 1) ^ 2 := by
  refine isqrtBits_bounds (Nat.zero_le n) ?_
  rw [Nat.zero_add, ← Nat.pow_mul]
  exact Nat.lt_of_lt_of_le Nat.lt_log2_self (Nat.pow_le_pow_right (by decide) (by omega))

theorem le_isqrt {c n : Nat} (h : c ^ 2 ≤ n) : c ≤ isqrt n :=
  Nat.le_of_lt_succ ((Nat.pow_lt_pow_iff_left (by decide)).mp (Nat.lt_of_le_of_lt h (isqrt_bounds n).2))

/-- Twice the root of 2^b / m, its last bit set when it is not exact. -/
def stickyRsqrt (b m : Nat) : Nat :=
  let r := isqrt (2 ^ b / m)
  2 * r + if r * r * m == 2 ^ b then 0 else 1

theorem stickyRsqrt_spec (b : Nat) {m : Nat} (hm : m ≠ 0) :
    let q := stickyRsqrt b m
    (q % 2 = 0 ∧ q * q * m = 2 ^ (b + 2))
      ∨ (q % 2 = 1 ∧ (q - 1) * (q - 1) * m < 2 ^ (b + 2) ∧ 2 ^ (b + 2) < (q + 1) * (q + 1) * m) := by
  have hm0 := Nat.pos_of_ne_zero hm
  rw [Nat.pow_add]
  unfold stickyRsqrt
  generalize 2 ^ b = N
  obtain ⟨hle, hlt⟩ := isqrt_bounds (N / m)
  generalize isqrt (N / m) = r at *
  have hlo : r ^ 2 * m ≤ N := (Nat.le_div_iff_mul_le hm0).mp hle
  have hhi : N < (r + 1) ^ 2 * m := (Nat.div_lt_iff_lt_mul hm0).mp hlt
  dsimp only
  by_cases h : r * r * m = N
  · left
    rw [if_pos (by simpa using h)]
    exact ⟨by omega, by grind⟩
  · right
    rw [if_neg (by simpa using h)]
    exact ⟨by omega, by grind, by grind⟩

theorem le_stickyRsqrt {b c m : Nat} (hm : m ≠ 0) (h : c ^ 2 * m ≤ 2 ^ b) : 2 * c ≤ stickyRsqrt b m := by
  have hc : c ≤ isqrt (2 ^ b / m) := le_isqrt ((Nat.le_div_iff_mul_le (Nat.pos_of_ne_zero hm)).mpr h)
  unfold stickyRsqrt
  dsimp only
  omega

section
variable {a m : Nat} {n : Bool} {e : Int}

/-! ### The functions of a NaN and of a finite operand (03 R93) -/

theorem sfn32_nan {f : Sfn} {s : Bool} (h : decodeF .f32 a = .nan s) : sfn32 f a = nanRes s := by
  unfold sfn32
  rw [h]

theorem sfn32_rcp_fin (h : decodeF .f32 a = .fin n m e) (hm : m ≠ 0) :
    sfn32 .rcp a = { bits := rne .f32 (divFin false 1 0 n m e) } := by
  unfold sfn32
  simp [h, divV, hm]

theorem sfn32_rsq_fin (h : decodeF .f32 a = .fin false m e) (hm : m ≠ 0) :
    sfn32 .rsq a = { bits := rne .f32 (rsqFin m e) } := by
  unfold sfn32
  simp [h, hm]

theorem sfn32_ex2_fin (h : decodeF .f32 a = .fin n m e) (hm : m ≠ 0) (hlt : ltV (.fin n m e) (ofInt 128) = true)
    (hgt : ltV (ofInt (-152)) (.fin n m e) = true) :
    sfn32 .ex2 a = { bits := roundApprox (ex2Approx n m e) precisions } := by
  unfold sfn32
  simp [h, hm, hlt, hgt, ltInt]

theorem sfn32_lg2_pow2 {k : Nat} (h : decodeF .f32 a = .fin false (2 ^ k) e) :
    sfn32 .lg2 a = { bits := rne .f32 (ofInt (e + k)) } := by
  unfold sfn32
  simp [h, Nat.log2_two_pow]

/-! ### RCP and RSQ -/

theorem divFin_one (n : Bool) (m : Nat) (e : Int) :
    divFin false 1 0 n m e = .fin n (stickyDiv (Nat.log2 m + 130) m) (-e - (Nat.log2 m + 131 : Nat)) := by
  rw [divFin, Nat.one_mul, Bool.false_bne, stickyDiv]
  congr 1
  omega

theorem rcp_rounds_sticky_quotient (h : decodeF .f32 a = .fin n m e) (hm : m ≠ 0) :
    ∃ k q : Nat, sfn32 .rcp a = { bits := rne .f32 (.fin n q (-e - k)) } ∧ 2 ^ 64 ≤ q
      ∧ ((q % 2 = 0 ∧ q * m = 2 ^ k) ∨ (q % 2 = 1 ∧ (q - 1) * m < 2 ^ k ∧ 2 ^ k < (q + 1) * m)) := by
  have hsize : 2 ^ 63 * m ≤ 2 ^ (Nat.log2 m + 130) :=
    calc 2 ^ 63 * m ≤ 2 ^ 129 * 2 ^ (Nat.log2 m + 1) := Nat.mul_le_mul (by decide) (Nat.le_of_lt Nat.lt_log2_self)
      _ = 2 ^ (Nat.log2 m + 130) := by rw [← Nat.pow_add, show 129 + (Nat.log2 m + 1) = Nat.log2 m + 130 by omega]
  exact ⟨Nat.log2 m + 131, stickyDiv (Nat.log2 m + 130) m, by rw [sfn32_rcp_fin h hm, divFin_one], le_stickyDiv hm hsize,
    stickyDiv_spec _ hm⟩

theorem rsqFin_even (m : Nat) (h : e % 2 = 0) : rsqFin m e = .fin false (stickyRsqrt 256 m) (-(e / 2) - 129) := by
  simp [rsqFin, stickyRsqrt, h]

theorem rsqFin_odd (m : Nat) (h : e % 2 = 1) :
    rsqFin m e = .fin false (stickyRsqrt 256 (2 * m)) (-((e - 1) / 2) - 129) := by
  simp [rsqFin, stickyRsqrt, h]

theorem rsq_rounds_sticky_root (h : decodeF .f32 a = .fin false m e) (hm : m ≠ 0) :
    ∃ (k q : Nat) (w : Int), sfn32 .rsq a = { bits := rne .f32 (.fin false q w) } ∧ 2 * w = -e - k ∧ 2 ^ 64 ≤ q
      ∧ ((q % 2 = 0 ∧ q * q * m = 2 ^ k) ∨ (q % 2 = 1 ∧ (q - 1) * (q - 1) * m < 2 ^ k ∧ 2 ^ k < (q + 1) * (q + 1) * m)) := by
  have hlt : m < 2 ^ 24 := decodeF_f32_fin_lt h
  rw [sfn32_rsq_fin h hm]
  rcases Int.emod_two_eq e with he | he
  · refine ⟨256 + 2, _, _, by rw [rsqFin_even m he], by omega, le_stickyRsqrt (c := 2 ^ 63) hm (by omega),
      stickyRsqrt_spec 256 hm⟩
  · have hm2 : 2 * m ≠ 0 := by omega
    refine ⟨256 + 1, _, _, by rw [rsqFin_odd m he], by omega, le_stickyRsqrt (c := 2 ^ 63) hm2 (by omega), ?_⟩
    have hspec := stickyRsqrt_spec 256 hm2
    simp only [Nat.mul_left_comm _ 2 m] at hspec
    omega

end

/-! ### EX2 of an integer and LG2 of a power of two -/

theorem ofInt_eq_scaledInt (i : Int) : ofInt i = scaledInt i 0 := by
  simp [ofInt, scaledInt]

theorem sign_mul_natAbs_mul (i : Int) (x : Nat) :
    (if decide (i < 0) = true then -1 else 1) * ((i.natAbs * x : Nat) : Int) = i * x := by
  by_cases h : i < 0
  · rw [if_pos (by simpa using h), Int.natCast_mul, show (i.natAbs : Int) = -i by omega]
    grind
  · rw [if_neg (by simpa using h), Int.natCast_mul, show (i.natAbs : Int) = i by omega, Int.one_mul]

/-- Both are brought to the smaller exponent, where they are i and j times the same power of two. -/
theorem ltV_scaledInt (i j : Int) (s t : Nat) : ltV (scaledInt i s) (scaledInt j t) = decide (i < j) := by
  have hs : ∀ u : Nat, u = s ∨ u = t →
      2 ^ u * 2 ^ (-(u : Int) - if -(s : Int) < -(t : Int) then -(s : Int) else -(t : Int)).toNat = 2 ^ max s t := by
    intro u hu
    rw [← Nat.pow_add]
    refine congrArg (2 ^ ·) ?_
    split <;> omega
  have hpos : (0 : Int) < (2 ^ max s t : Nat) := Int.natCast_pos.mpr (Nat.two_pow_pos _)
  unfold ltV cmpV scaledInt
  dsimp only
  rw [Nat.mul_assoc, Nat.mul_assoc, hs s (.inl rfl), hs t (.inr rfl), sign_mul_natAbs_mul, sign_mul_natAbs_mul]
  rw [Bool.eq_iff_iff, beq_iff_eq, Option.some.injEq, Int.compare_eq_lt, decide_eq_true_eq]
  exact Int.mul_lt_mul_right hpos

theorem toFix_scaledInt {p s : Nat} (i : Int) (h : s ≤ p) : toFix p (i.natAbs * 2 ^ s) (-(s : Int)) = i.natAbs * 2 ^ p := by
  rw [toFix, if_pos (by omega), Nat.mul_assoc, ← Nat.pow_add, show s + (-(s : Int) + p).toNat = p by omega]

theorem expSeries_zero (p k t : Nat) : ∀ n, expSeries p 0 n k t = t
  | 0 => rfl
  | n + 1 => by
    have ih := expSeries_zero p (k + 1) 0 n
    simp [expSeries, ih]

theorem ex2Approx_scaledInt {p s : Nat} (i : Int) (h : s ≤ p) :
    ex2Approx (decide (i < 0)) (i.natAbs * 2 ^ s) (-s) p = { v := (2 ^ p : Nat), p := p, e := i, err := 2 ^ 20 } := by
  have hx : (if decide (i < 0) = true then -((i.natAbs * 2 ^ p : Nat) : Int) else (i.natAbs * 2 ^ p : Nat)) = i * (2 ^ p : Nat) := by
    rw [← sign_mul_natAbs_mul]
    split <;> simp
  have hw : i * ((2 ^ p : Nat) : Int) / (2 ^ p : Nat) = i := Int.mul_ediv_cancel _ (by
    have hp := Nat.two_pow_pos p
    omega)
  rw [ex2Approx, toFix_scaledInt i h, hx, hw]
  simp [expFix, expSeries_zero]

theorem roundApprox_of_agree {f : Nat → Approx} {p c : Nat} {ps : List Nat}
    (hlo : rne .f32 ((f p).at_ (-((f p).err : Int))) = c)
    (hhi : rne .f32 ((f p).at_ (f p).err) = c) : roundApprox f (p :: ps) = c := by
  simp [roundApprox, hlo, hhi]

theorem at_of_add_eq_natCast {x : Approx} {d : Int} {m : Nat} (h : x.v + d = m) : x.at_ d = .fin false m (x.e - x.p) := by
  simp [Approx.at_, h]

theorem roundApprox_ex2_scaledInt {i : Int} (hlo : -149 ≤ i) (hhi : i < 128) {s : Nat} (hs : s ≤ 128) :
    roundApprox (ex2Approx (decide (i < 0)) (i.natAbs * 2 ^ s) (-s)) precisions = rne .f32 (pow2V i) := by
  rw [precisions]
  apply roundApprox_of_agree <;> rw [ex2Approx_scaledInt i hs]
  · rw [at_of_add_eq_natCast (m := 2 ^ 128 - 2 ^ 20) (by dsimp only; omega)]
    exact rne_near_pow2 hlo hhi (by decide) (by decide)
  · rw [at_of_add_eq_natCast (m := 2 ^ 128 + 2 ^ 20) (by dsimp only; omega)]
    exact rne_near_pow2 hlo hhi (by decide) (by decide)

theorem ex2_int {i : Int} (hlo : -149 ≤ i) (hhi : i < 128) :
    sfn32 .ex2 (rne .f32 (ofInt i)) = { bits := rne .f32 (pow2V i) } := by
  by_cases h0 : i = 0
  · subst h0
    decide +kernel
  have hd := decodeF_rne_ofInt h0 (by omega)
  have h1 : ltV (scaledInt i (23 - Nat.log2 i.natAbs)) (ofInt 128) = true := by
    rw [ofInt_eq_scaledInt, ltV_scaledInt]
    exact decide_eq_true hhi
  have h2 : ltV (ofInt (-152)) (scaledInt i (23 - Nat.log2 i.natAbs)) = true := by
    rw [ofInt_eq_scaledInt, ltV_scaledInt]
    exact decide_eq_true (by omega)
  have hm : i.natAbs * 2 ^ (23 - Nat.log2 i.natAbs) ≠ 0 :=
    Nat.mul_ne_zero (by omega) (Nat.ne_of_gt (Nat.two_pow_pos _))
  rw [sfn32_ex2_fin hd hm h1 h2, roundApprox_ex2_scaledInt hlo hhi (by omega)]

theorem lg2_pow2 {i : Int} (hlo : -149 ≤ i) (hhi : i < 128) :
    sfn32 .lg2 (rne .f32 (pow2V i)) = { bits := rne .f32 (ofInt i) } := by
  rw [sfn32_lg2_pow2 (decodeF_rne_pow2V rfl hlo hhi), Int.sub_add_cancel]

/-- Settles O19: each form is the shared issue of a special function; RCP and RSQ round a quotient and a root with a sticky last bit; 2^i
and log2 2^i are exact before the rounding; the remaining clauses are values of the model's functions. -/
theorem specialFunctionResults : Obligations.SpecialFunctionResults := by
  refine ⟨fun x => gives_of_exec_sfnTeam (exec_rcp · x), fun x => gives_of_exec_sfnTeam (exec_rcp96 · x),
    fun x => gives_of_exec_sfnTeam (exec_rsq · x), fun x => gives_of_exec_sfnTeam (exec_rsq96 · x),
    fun x => gives_of_exec_sfnTeam (exec_ex2 · x), fun x => gives_of_exec_sfnTeam (exec_ex296 · x),
    fun x => gives_of_exec_sfnTeam (exec_lg2 · x), fun x => gives_of_exec_sfnTeam (exec_lg296 · x),
    fun x => gives_of_exec_sfnTeam (exec_sin · x), fun x => gives_of_exec_sfnTeam (exec_sin96 · x),
    fun x => gives_of_exec_sfnTeam (exec_cos · x), fun x => gives_of_exec_sfnTeam (exec_cos96 · x),
    fun x => gives_of_exec_sfnTeam (exec_tanh · x), fun x => gives_of_exec_sfnTeam (exec_tanh96 · x),
    fun _ => ⟨sfn32_nan (s := false) (by decide), sfn32_nan (s := true) (by decide)⟩, ?_, ?_, ?_, ?_, ?_, ?_, ?_,
    fun _ _ _ _ h hm => rcp_rounds_sticky_quotient h hm, fun _ _ _ h hm => rsq_rounds_sticky_root h hm,
    fun _ hlo hhi => ⟨ex2_int hlo hhi, lg2_pow2 hlo hhi⟩, ?_⟩
  all_goals decide +kernel

end Sys2Proof.Machine
end

section
/-! SUPPORT. Results of integer instructions (04 R97 to R110): each form is an issue whose effect for a member is a result, and that
result is the exact integer brought to the type, or the code that the rule names. -/

namespace Sys2Proof.Machine

/-! ### The issue -/

section
variable {i : Instr} {y : Arith}

theorem gives_of_exec_aluTeam {f : State → Thread → Out} (he : ∀ s, exec i s = aluTeam i f s) : Gives i f :=
  fun s h => (he s).trans (aluTeam_runs f h)

theorem givesCode_of_exec_alu1 {f : Nat → Nat} (he : ∀ s, exec i s = alu1 i y f s) : GivesCode i y fun a _ _ => f a :=
  fun s h => (he s).trans (alu1_runs h)

theorem givesCode_of_exec_alu2 {f : Nat → Nat → Nat} (he : ∀ s, exec i s = alu2 i y f s) : GivesCode i y fun a b _ => f a b :=
  fun s h => (he s).trans (alu2_runs h)

theorem givesCode_of_exec_alu3 {f : Nat → Nat → Nat → Nat} (he : ∀ s, exec i s = alu3 i y f s) : GivesCode i y f :=
  fun s h => (he s).trans (alu3_runs h)

theorem givesShift_of_exec_aluShift {f : Nat → Nat → Nat} (he : ∀ s, exec i s = aluShift i y f s) : GivesShift i y f :=
  fun s h => (he s).trans (aluShift_runs h)

theorem givesCount_of_exec_aluCount {f : Nat → Nat} (he : ∀ s, exec i s = aluCount i y f s) : GivesCount i y f :=
  fun s h => (he s).trans (aluCount_runs h)

/-! ### Exact integers (04 R97, R98) -/

theorem givesInt_of_exec_alu1 {f : Int → Int} (he : ∀ s, exec i s = alu1 i y (fun a => intRes y (f (decodeI y.ty a))) s) :
    GivesInt i y fun a _ _ => f a :=
  fun s h => (he s).trans (alu1_runs h)

theorem givesInt_of_exec_alu2 {f : Int → Int → Int}
    (he : ∀ s, exec i s = alu2 i y (fun a b => intRes y (f (decodeI y.ty a) (decodeI y.ty b))) s) :
    GivesInt i y fun a b _ => f a b :=
  fun s h => (he s).trans (alu2_runs h)

theorem givesInt_of_exec_alu3 {f : Int → Int → Int → Int}
    (he : ∀ s, exec i s = alu3 i y (fun a b c => intRes y (f (decodeI y.ty a) (decodeI y.ty b) (decodeI y.ty c))) s) :
    GivesInt i y f :=
  fun s h => (he s).trans (alu3_runs h)

end

/-- Settles O10: each form is the issue of one, two or three sources whose value is the exact integer of the rule, brought to the type. -/
theorem integerArithmeticResults : Obligations.IntegerArithmeticResults :=
  ⟨fun x => givesInt_of_exec_alu2 (exec_add · x), fun x => givesInt_of_exec_alu2 (exec_add96 · x),
    fun x => givesInt_of_exec_alu2 (exec_sub · x), fun x => givesInt_of_exec_alu2 (exec_sub96 · x),
    fun x => givesInt_of_exec_alu1 (exec_neg · x), fun x => givesInt_of_exec_alu1 (exec_neg96 · x),
    fun x => givesInt_of_exec_alu1 (exec_abs · x), fun x => givesInt_of_exec_alu1 (exec_abs96 · x),
    fun x => givesInt_of_exec_alu2 (exec_min · x), fun x => givesInt_of_exec_alu2 (exec_min96 · x),
    fun x => givesInt_of_exec_alu2 (exec_max · x), fun x => givesInt_of_exec_alu2 (exec_max96 · x),
    fun x => givesInt_of_exec_alu2 (exec_mul · x), fun x => givesInt_of_exec_alu2 (exec_mul96 · x),
    fun x => givesInt_of_exec_alu2 (exec_mulhi · x), fun x => givesInt_of_exec_alu2 (exec_mulhi96 · x),
    fun x => givesInt_of_exec_alu3 (exec_mad · x), fun x => givesInt_of_exec_alu3 (exec_mad96 · x),
    fun x => givesInt_of_exec_alu3 (exec_sad · x), fun x => givesInt_of_exec_alu3 (exec_clamp · x)⟩

/-- Settles O12: each of the three is an issue of a result, and its value is the rule's. -/
theorem wideAndConvertedIntegers : Obligations.WideAndConvertedIntegers :=
  ⟨fun x => gives_of_exec_aluTeam (exec_madw · x), fun x => gives_of_exec_aluTeam (exec_lea · x),
    fun x => gives_of_exec_aluTeam (exec_icvt · x)⟩

/-! ### Moves, selections and predicates (04 R106 to R110) -/

theorem plop_index (p q r : Bool) :
    (if p then 4 else 0) + (if q then 2 else 0) + (if r then 1 else 0)
      = 4 * (if p then 1 else 0) + 2 * (if q then 1 else 0) + (if r then 1 else 0 : Nat) := by
  cases p <;> cases q <;> rfl

theorem plop_gives (x : Arith) : Gives (.plop x) fun _ th =>
    let n (lo : Nat) : Nat := if th.pred (x.fld lo 3) then 1 else 0
    { d := .zero, w := 32, val := 0, pd := some (x.fld 16 3, x.mod8.getLsbD (4 * n 19 + 2 * n 22 + n 25)) } := by
  simp only [← plop_index]
  exact gives_of_exec_aluTeam (exec_plop · x)

/-- The predicate file is delivered, or taken from A, by bit 16 of word 2. -/
theorem exec_pmov_alone {x : Arith} {s : State} {th : Thread} (h : Alone (.pmov x) s th) :
    exec (.pmov x) s = .next (State.past
      (if x.fld 16 1 == 0#1 then s.put th.id { d := x.d, w := 32, val := 0x80 + th.p.toNat }
        else s.modThread th.id fun y => { y with p := (s.raw32 th x.toOps4 x.a).setWidth 7 }) (.pmov x) th) := by
  rw [exec_pmov, execPmov, runTeam_alone _ h]
  by_cases hd : x.fld 16 1 == 0#1
  · simp only [if_pos hd]
  · simp only [if_neg hd]

/-- Settles O15: MOV, SEL, CMP and PLOP are issues of a result; PMOV is taken apart by its direction. -/
theorem movesSelectionsAndPredicates : Obligations.MovesSelectionsAndPredicates :=
  ⟨fun x => givesCode_of_exec_alu1 (exec_mov · x), fun x => gives_of_exec_aluTeam (exec_mov96 · x),
    fun x => gives_of_exec_aluTeam (exec_sel · x), fun x => gives_of_exec_aluTeam (exec_cmp · x), plop_gives,
    fun _ _ _ h => exec_pmov_alone h⟩

end Sys2Proof.Machine
end

section
/-! SUPPORT. Results of bitwise instructions, shifts and bit fields (04 R102 to R105), bit by bit. -/

namespace Sys2Proof.Machine

/-! ### Numbers given by their bits (04 R102, R103) -/

theorem testBit_pack_one (l : List Nat) (i : Nat) : (pack 1 l).testBit i = (l.getD i 0).testBit 0 := by
  induction l generalizing i with
  | nil => simp [pack]
  | cons x xs ih =>
    cases i with
    | zero => simp [pack, Nat.testBit_zero, Nat.add_mod]
    | succ i => rw [pack, Nat.testBit_succ, show (x % 2 ^ 1 + 2 ^ 1 * pack 1 xs) / 2 = pack 1 xs by omega, ih, List.getD_cons_succ]

theorem testBit_bitsMap {w i : Nat} (f : Nat → Bool) (hi : i < w) : (bitsMap w f).testBit i = f i := by
  rw [bitsMap, testBit_pack_one]
  cases hf : f i <;> simp [hi, hf]

theorem testBit_lopVal (x : Arith) (a b c : Nat) {i : Nat} (hi : i < x.ty.width) :
    (lopVal x a b c).testBit i
      = (x.fld 16 8).getLsbD ((a.testBit i).toNat * 4 + (b.testBit i).toNat * 2 + (c.testBit i).toNat) := by
  rw [lopVal, testBit_bitsMap _ hi, BitVec.testBit_toNat]
  cases a.testBit i <;> cases b.testBit i <;> cases c.testBit i <;> rfl

theorem testBit_brevVal (x : Arith) (a : Nat) {i : Nat} (hi : i < x.ty.width) :
    (brevVal x a).testBit i = a.testBit (x.ty.width - 1 - i) :=
  testBit_bitsMap _ hi

theorem ctzVal_zero (x : Arith) : ctzVal x 0 = x.ty.width := by
  have hall := List.takeWhile_append_of_pos (p := fun i => !Nat.testBit 0 i) (l₁ := List.range x.ty.width) (l₂ := [])
    fun i _ => by rw [Nat.zero_testBit]; rfl
  rw [List.append_nil, List.takeWhile_nil, List.append_nil] at hall
  rw [ctzVal, hall, List.length_range]

theorem popcVal_zero (x : Arith) : popcVal x 0 = 0 := by
  rw [popcVal, List.filter_eq_nil_iff.mpr fun i _ => by simp, List.length_nil]

/-! ### Shifts and rotations (04 R104) -/

section
variable (x : Arith) {a n i : Nat} (hi : i < x.ty.width) (ha : a < 2 ^ x.ty.width)

include hi in
theorem testBit_shlVal : (shlVal x a n).testBit i = (decide (n ≤ i) && a.testBit (i - n)) := by
  unfold shlVal
  split
  next hn => simp [show ¬ n ≤ i by omega]
  next => simp [Nat.testBit_mul_two_pow, hi]

include ha in
theorem testBit_shrVal : (shrVal x a n).testBit i = a.testBit (i + n) := by
  unfold shrVal
  split
  next hn =>
    rw [Nat.zero_testBit]
    exact (Nat.testBit_lt_two_pow (Nat.lt_of_lt_of_le ha (Nat.pow_le_pow_right (by decide) (by omega)))).symm
  next => rw [Nat.testBit_div_two_pow]

/-- The bits above a shorter number's, filled with one bit. -/
theorem testBit_add_fill {w k f : Nat} (hf : f < 2 ^ k) (hk : k ≤ w) (hi : i < w) (b : Bool) :
    (f + if b then 2 ^ w - 2 ^ k else 0).testBit i = if i < k then f.testBit i else b := by
  have hfill : (if b then 2 ^ w - 2 ^ k else 0) = 2 ^ k * if b then 2 ^ (w - k) - 1 else 0 := by
    cases b with
    | false => rfl
    | true => simp [Nat.mul_sub, ← Nat.pow_add, Nat.add_sub_cancel' hk]
  rw [hfill, Nat.add_comm, Nat.testBit_two_pow_mul_add _ hf]
  split
  next => rfl
  next => cases b <;> simp; omega

include hi ha in
theorem testBit_sarVal :
    (sarVal x a n).testBit i = a.testBit (if i + n < x.ty.width then i + n else x.ty.width - 1) := by
  unfold sarVal
  dsimp only
  split
  next hn =>
    rw [if_neg (show ¬ i + n < x.ty.width by omega)]
    cases a.testBit (x.ty.width - 1) <;> simp [ones, hi]
  next hn =>
    have hlt : a / 2 ^ n < 2 ^ (x.ty.width - n) :=
      Nat.div_lt_of_lt_mul (by rwa [← Nat.pow_add, Nat.add_sub_cancel' (by omega)])
    have hones : ones x.ty - (2 ^ (x.ty.width - n) - 1) = 2 ^ x.ty.width - 2 ^ (x.ty.width - n) := by
      have := Nat.two_pow_pos (x.ty.width - n)
      unfold ones
      omega
    rw [hones, testBit_add_fill hlt (by omega) hi, Nat.testBit_div_two_pow]
    by_cases h : i + n < x.ty.width
    · rw [if_pos (by omega), if_pos h]
    · rw [if_neg (by omega), if_neg h]

/-- A word turned by k places to the left. -/
theorem testBit_rotate {w k : Nat} (hi : i < w) (ha : a < 2 ^ w) (hk : k ≤ w) :
    ((a * 2 ^ k + a / 2 ^ (w - k)) % 2 ^ w).testBit i = a.testBit (if i < k then i + (w - k) else i - k) := by
  have hlow : a / 2 ^ (w - k) < 2 ^ k :=
    Nat.div_lt_of_lt_mul (by rwa [← Nat.pow_add, Nat.sub_add_cancel hk])
  rw [Nat.testBit_mod_two_pow, Nat.mul_comm, Nat.testBit_two_pow_mul_add _ hlow, Nat.testBit_div_two_pow]
  simp only [hi, decide_true, Bool.true_and]
  split <;> rfl

include hi ha in
theorem testBit_rolVal :
    (rolVal x a n).testBit i = a.testBit ((i + (x.ty.width - n % x.ty.width)) % x.ty.width) := by
  have hk : n % x.ty.width < x.ty.width := Nat.mod_lt n (by omega)
  rw [rolVal, testBit_rotate hi ha (Nat.le_of_lt hk)]
  congr 1
  split
  next h => exact (Nat.mod_eq_of_lt (by omega)).symm
  next h =>
    rw [show i + (x.ty.width - n % x.ty.width) = i - n % x.ty.width + x.ty.width by omega, Nat.add_mod_right]
    exact (Nat.mod_eq_of_lt (by omega)).symm

include hi ha in
theorem testBit_rorVal : (rorVal x a n).testBit i = a.testBit ((i + n) % x.ty.width) := by
  have hk : n % x.ty.width < x.ty.width := Nat.mod_lt n (by omega)
  have hrot := testBit_rotate hi ha (Nat.sub_le x.ty.width (n % x.ty.width))
  rw [Nat.sub_sub_self (Nat.le_of_lt hk), Nat.add_comm (a * _)] at hrot
  rw [rorVal, hrot, ← Nat.add_mod_mod i n]
  congr 1
  split
  next h => exact (Nat.mod_eq_of_lt (by omega)).symm
  next h =>
    rw [show i + n % x.ty.width = i - (x.ty.width - n % x.ty.width) + x.ty.width by omega, Nat.add_mod_right]
    exact (Nat.mod_eq_of_lt (by omega)).symm

end

/-! ### Bit fields (04 R105) -/

theorem bfield_of_empty {w b : Nat} (h : b / 256 % 256 = 0 ∨ w ≤ b % 256) : bfield w b = none := by
  simp [bfield, h]

theorem bfield_of_not_empty {w b : Nat} (h : ¬ (b / 256 % 256 = 0 ∨ w ≤ b % 256)) :
    bfield w b = some (b % 256, min (b / 256 % 256) (w - b % 256)) := by
  simp [bfield, h]

section
variable (x : Arith) {a b c i pos len : Nat} (hb : bfield x.ty.width b = some (pos, len))
include hb

theorem bfxVal_of_bfield : bfxVal x a b = a / 2 ^ pos % 2 ^ len
    + if x.ty.signed && (a / 2 ^ pos % 2 ^ len).testBit (len - 1) then 2 ^ x.ty.width - 2 ^ len else 0 := by
  rw [bfxVal, hb]
  dsimp only
  split <;> rfl

theorem testBit_bfxVal (hi : i < x.ty.width) (hlen : len ≠ 0) (hw : len ≤ x.ty.width) :
    (bfxVal x a b).testBit i = if i < len then a.testBit (pos + i) else x.ty.signed && a.testBit (pos + len - 1) := by
  rw [bfxVal_of_bfield x hb, testBit_add_fill (Nat.mod_lt _ (Nat.two_pow_pos len)) hw hi]
  simp only [Nat.testBit_mod_two_pow, Nat.testBit_div_two_pow]
  split
  next h => simp [h, Nat.add_comm pos i]
  next => simp [show len - 1 < len by omega, show len - 1 + pos = pos + len - 1 by omega]

theorem testBit_bfinsVal : (bfinsVal x a b c).testBit i = if pos ≤ i ∧ i < pos + len then a.testBit (i - pos) else c.testBit i := by
  have hval : bfinsVal x a b c = 2 ^ pos * (2 ^ len * (c / 2 ^ (pos + len)) + a % 2 ^ len) + c % 2 ^ pos := by
    rw [bfinsVal, hb]
    dsimp only
    rw [Nat.pow_add]
    generalize c / (2 ^ pos * 2 ^ len) = q
    grind
  rw [hval, Nat.testBit_two_pow_mul_add _ (Nat.mod_lt _ (Nat.two_pow_pos pos)),
    Nat.testBit_two_pow_mul_add _ (Nat.mod_lt _ (Nat.two_pow_pos len))]
  simp only [Nat.testBit_mod_two_pow, Nat.testBit_div_two_pow]
  by_cases hp : i < pos
  · simp [hp, show ¬ pos ≤ i by omega]
  · by_cases hl : i < pos + len
    · simp [hp, hl, show i - pos < len by omega, show pos ≤ i by omega]
    · simp [hp, hl, show ¬ i - pos < len by omega, show i - pos - len + (pos + len) = i by omega]

end

theorem testBit_field_results (x : Arith) (a b c i : Nat) (hi : i < x.ty.width) :
    if b / 256 % 256 = 0 ∨ x.ty.width ≤ b % 256 then bfxVal x a b = 0 ∧ bfinsVal x a b c = c
    else
      let len := min (b / 256 % 256) (x.ty.width - b % 256)
      (bfxVal x a b).testBit i = (if i < len then a.testBit (b % 256 + i) else x.ty.signed && a.testBit (b % 256 + len - 1))
      ∧ (bfinsVal x a b c).testBit i = if b % 256 ≤ i ∧ i < b % 256 + len then a.testBit (i - b % 256) else c.testBit i := by
  split
  next h => simp [bfxVal, bfinsVal, bfield_of_empty h]
  next h =>
    have hb := bfield_of_not_empty h
    exact ⟨testBit_bfxVal x hb hi (by omega) (by omega), testBit_bfinsVal x hb⟩

/-- Settles O13: each form is the issue of its sources, and the table and reversed values are given by their bits. -/
theorem bitwiseResults : Obligations.BitwiseResults :=
  ⟨fun x => givesCode_of_exec_alu2 (exec_and · x), fun x => givesCode_of_exec_alu2 (exec_and96 · x),
    fun x => givesCode_of_exec_alu2 (exec_or · x), fun x => givesCode_of_exec_alu2 (exec_or96 · x),
    fun x => givesCode_of_exec_alu2 (exec_xor · x), fun x => givesCode_of_exec_alu2 (exec_xor96 · x),
    fun x => givesCode_of_exec_alu1 (exec_not · x), fun x => givesCode_of_exec_alu1 (exec_not96 · x),
    fun x => givesCode_of_exec_alu2 (exec_andn · x), fun x => givesCode_of_exec_alu2 (exec_andn96 · x),
    fun x => givesCode_of_exec_alu3 (exec_lop · x),
    fun x => givesCode_of_exec_alu1 (exec_brev · x), fun x => givesCode_of_exec_alu1 (exec_brev96 · x),
    fun x => givesCode_of_exec_alu1 (exec_revb · x), fun x => givesCode_of_exec_alu1 (exec_revb96 · x),
    fun x => givesCount_of_exec_aluCount (exec_popc · x), fun x => givesCount_of_exec_aluCount (exec_popc96 · x),
    fun x => givesCount_of_exec_aluCount (exec_clz · x), fun x => givesCount_of_exec_aluCount (exec_clz96 · x),
    fun x => givesCount_of_exec_aluCount (exec_ctz · x), fun x => givesCount_of_exec_aluCount (exec_ctz96 · x),
    fun x a b c _ hi => ⟨testBit_lopVal x a b c hi, testBit_brevVal x a hi⟩,
    fun x => ⟨rfl, ctzVal_zero x, popcVal_zero x⟩⟩

/-- Settles O14: each form is the issue of a source and an amount, and its value is given by its bits. -/
theorem shiftAndFieldResults : Obligations.ShiftAndFieldResults :=
  ⟨fun x => givesShift_of_exec_aluShift (exec_shl · x), fun x => givesShift_of_exec_aluShift (exec_shl96 · x),
    fun x => givesShift_of_exec_aluShift (exec_shr · x), fun x => givesShift_of_exec_aluShift (exec_shr96 · x),
    fun x => givesShift_of_exec_aluShift (exec_sar · x), fun x => givesShift_of_exec_aluShift (exec_sar96 · x),
    fun x => givesShift_of_exec_aluShift (exec_rol · x), fun x => givesShift_of_exec_aluShift (exec_rol96 · x),
    fun x => givesShift_of_exec_aluShift (exec_ror · x), fun x => givesShift_of_exec_aluShift (exec_ror96 · x),
    fun x => givesShift_of_exec_aluShift (exec_bfx · x), fun x => gives_of_exec_aluTeam (exec_bfins · x),
    fun x _ _ _ hi ha => ⟨testBit_shlVal x hi, testBit_shrVal x ha, testBit_sarVal x hi ha, testBit_rolVal x hi ha,
      testBit_rorVal x hi ha⟩,
    fun x a b c i hi _ _ => testBit_field_results x a b c i hi⟩

end Sys2Proof.Machine
end

section
/-! SUPPORT. Control instructions (04 R119 to R127) of a thread that issues alone: transfers, NOP and WAIT, the end of a thread, and
the instructions that trap or call the service processor. -/

namespace Sys2Proof.Machine

/-! ### What the effect of a thread that issues alone leaves -/

section
variable {i : Instr} {s t : State} {th : Thread} {body : State → State → Thread → Res}

theorem runTeam_alone_of_done (h : Alone i s th) (hb : body s s th = .done t) : runTeam i body s = .next (t.past i th) := by
  rw [runTeam_alone _ h, hb]

theorem runTeam_alone_of_jump (h : Alone i s th) (hb : body s s th = .jump t) : runTeam i body s = .next (t.executed th) := by
  rw [runTeam_alone _ h, hb]

theorem runTeam_alone_of_stall (h : Alone i s th) (hb : body s s th = .stall t) : runTeam i body s = .next (t.stay th i) := by
  rw [runTeam_alone _ h, hb]

theorem trapsTo_of_exec_runTeam {c : Cause} {addr : Dword} {detail : Word} (h : Alone i s th) (he : exec i s = runTeam i body s)
    (hb : body s s th = .trap s c addr detail) : TrapsTo i s th c addr detail := by
  rw [TrapsTo, he, runTeam_alone _ h, hb]

end

/-! ### Transfers (04 R120 to R122) -/

theorem jumps_of_exec_transfer {i : Instr} {target : State → Thread → Dword} {link : Option Opnd}
    (he : ∀ s, exec i s = runTeam i (fun s0 s1 th =>
      s1.transfer th (target s0 th) (link.map fun d => (d, th.pc + BitVec.ofNat 64 i.len))) s) : Jumps i target link := by
  intro s th h
  split
  next c hc => exact trapsTo_of_exec_runTeam h (he s) (by simp [State.transfer, hc])
  next hc =>
    rw [he]
    refine runTeam_alone_of_jump h ?_
    cases link <;> simp [State.transfer, hc]

theorem targetTrap_eq (s : State) (th : Thread) (a : Dword) :
    s.targetTrap th a = if a.extractLsb' 0 2 ≠ 0#2 then some .misalign
      else if canonical (s.spaceOf th) a = false then some .range
      else if th.unit = .device ∧ s.windowed a = true then some .prot else none := by
  simp [State.targetTrap]

/-- Settles O25: each transfer is the shared one, with its target and its link. -/
theorem transfersGoToTheirTargets : Obligations.TransfersGoToTheirTargets :=
  ⟨fun x => jumps_of_exec_transfer (exec_bra · x), fun x => jumps_of_exec_transfer (exec_bra96 · x),
    fun x => jumps_of_exec_transfer (exec_call · x), fun x => jumps_of_exec_transfer (exec_call96 · x),
    fun x => jumps_of_exec_transfer (exec_jmp · x), fun x => jumps_of_exec_transfer (exec_jmp96 · x),
    fun x => jumps_of_exec_transfer (exec_calli · x), fun x => jumps_of_exec_transfer (exec_calli96 · x),
    fun x => jumps_of_exec_transfer (exec_ret · x), fun x => jumps_of_exec_transfer (exec_ret96 · x), targetTrap_eq⟩

/-! ### NOP and WAIT (04 R126, R127) -/

theorem farDrop_eq_self {s : State} (h : s.far = []) (o to_ : Owner) : s.farDrop o to_ = s := by
  simp [State.farDrop, h]

theorem tick_eq_self {s : State} {th : Thread} (h : th.unit ≠ .intersection) : s.tick th = s := by
  unfold State.tick
  split
  next hu => exact absurd hu h
  next => rfl

theorem past_eq_modThread {s : State} {i : Instr} {th : Thread} (hu : th.unit ≠ .intersection) (hf : s.far = [])
    (hr : th.relAt = none) : s.past i th = s.modThread th.id fun x => { x with pc := x.pc + BitVec.ofNat 64 i.len } := by
  rw [State.past, State.executed, tick_eq_self hu, farDrop_eq_self (s := s.advance th.id i.len) hf, hr]
  rfl

/-- Settles O26: the effect of NOP is the state itself. -/
theorem nopOnlyAdvances : Obligations.NopOnlyAdvances :=
  ⟨fun x s _ h _ => (exec_nop s x).trans (runTeam_alone_of_done h rfl),
    fun x s _ h _ => (exec_nop96 s x).trans (runTeam_alone_of_done h rfl),
    rfl, fun _ _ _ hu hf hr => past_eq_modThread hu hf hr⟩

theorem waitMet_iff (x : Desc) (c : Counters) :
    waitMet x c = true ↔ c.loads ≤ (x.fld 0 6).toNat ∧ c.stores ≤ (x.fld 8 6).toNat ∧ c.copies ≤ (x.fld 16 6).toNat
      ∧ c.tiles ≤ (x.fld 24 6).toNat := by
  simp only [waitMet, Bool.and_eq_true, decide_eq_true_eq]
  omega

theorem exec_wait_met {x : Desc} {s : State} {th : Thread} (h : Alone (.wait x) s th) (hm : waitMet x th.cnt = true) :
    exec (.wait x) s = .next (s.past (.wait x) th) :=
  (exec_wait s x).trans (runTeam_alone_of_done h (if_pos hm))

theorem exec_wait_unmet {x : Desc} {s : State} {th : Thread} (h : Alone (.wait x) s th) (hm : ¬ waitMet x th.cnt = true) :
    exec (.wait x) s = .next (s.stay th (.wait x)) :=
  (exec_wait s x).trans (runTeam_alone_of_stall h (if_neg hm))

/-! ### The end of a thread (04 R123, 05 R138) -/

theorem modThread_modThread (s : State) (t : Nat) (f g : Thread → Thread) (hf : ∀ x, (f x).id = x.id) :
    (s.modThread t f).modThread t g = s.modThread t fun x => g (f x) := by
  simp only [State.modThread, List.map_map]
  congr 1
  refine List.map_congr_left fun x _ => ?_
  by_cases hx : x.id = t <;> simp [hx, hf]

theorem live_modThread_exited (s : State) (t g : Nat) (f : Thread → Thread) (hx : ∀ x, (f x).exited = true) :
    (s.modThread t f).live g = (s.live g).filter fun x => x.id != t := by
  simp only [State.live, State.modThread, List.filter_filter]
  induction s.threads with
  | nil => rfl
  | cons x xs ih =>
    by_cases ht : x.id = t
    · rw [List.map_cons, List.filter_cons_of_neg (by simp [ht, hx]), List.filter_cons_of_neg (by simp [ht]), ih]
    · rw [List.map_cons, List.filter_cons, List.filter_cons, ih]
      simp [ht]

theorem releaseSets_of_unheld {s : State} {g : Nat} (h : ∀ x ∈ s.live g, holdSet x = none) : s.releaseSets g = s := by
  have hdue : (s.live g).filter s.due = [] := List.filter_eq_nil_iff.mpr fun x hx => by simp [State.due, h x hx]
  rw [State.releaseSets, hdue, List.foldl_nil]

theorem settled_of_running {s : State} {g : Nat} (h : ∀ x ∈ s.live g, x.halted = none) : s.settled g = false := by
  have hany : (s.live g).any (·.halted.isSome) = false := List.any_eq_false.mpr fun x hx => by simp [h x hx]
  rw [State.settled, hany, Bool.false_and]

/-- No set completes and no group ends while a member lives and none is held at a set or halted. -/
theorem afterEnd_of_unheld {s : State} {g : Nat} (hne : s.live g ≠ [])
    (h : ∀ x ∈ s.live g, holdSet x = none ∧ x.halted = none) : s.afterEnd g = s := by
  simp [State.afterEnd, releaseSets_of_unheld fun x hx => (h x hx).1, List.isEmpty_iff, hne, State.settleGroup,
    settled_of_running fun x hx => (h x hx).2]

theorem live_exited (s : State) (t g : Nat) :
    ((s.markVis t 1).modThread t fun x => { x with exited := true, hold := .none }).live g
      = (s.live g).filter fun x => x.id != t := by
  simp only [State.markVis, beq_self_eq_true, if_true]
  rw [modThread_modThread]
  · exact live_modThread_exited _ _ _ _ fun _ => rfl
  · exact fun _ => rfl

theorem endThread_of_others {s : State} {th : Thread} (h : s.thread? th.id = some th)
    (ho : th.unit = .device → (∃ x ∈ s.live th.group, x.id ≠ th.id)
      ∧ ∀ x ∈ s.live th.group, x.id ≠ th.id → holdSet x = none ∧ x.halted = none) :
    s.endThread th.id = (s.markVis th.id 1).modThread th.id fun x => { x with exited := true, hold := .none } := by
  unfold State.endThread
  rw [h]
  dsimp only
  split
  next hu =>
    obtain ⟨⟨x, hx, hxt⟩, hall⟩ := ho hu
    refine afterEnd_of_unheld (List.ne_nil_of_mem (a := x) ?_) fun y hy => ?_
    · rw [live_exited]
      exact List.mem_filter.mpr ⟨hx, by simpa using hxt⟩
    · rw [live_exited] at hy
      obtain ⟨hl, hyt⟩ := List.mem_filter.mp hy
      exact hall y hl (by simpa using hyt)
  next => rfl

theorem canExit_iff {s : State} {th : Thread} (hp : th.pend = []) :
    s.canExit th = true ↔ th.cnt.loads = 0 ∧ th.cnt.stores = 0 ∧ s.released th 1 0 = true := by
  simp [State.canExit, hp, and_assoc]

section
variable {i : Instr} {s : State} {th : Thread} (he : exec i s = runTeam i (fun _ s1 th => exitOne i s1 th) s) (h : Alone i s th)
include he h

theorem exec_exit_ends (hl : th.cnt.loads = 0) (hs : th.cnt.stores = 0) (hr : s.released th 1 0 = true) :
    exec i s = .next ((s.endThread th.id).executed th) :=
  he.trans (runTeam_alone_of_jump h (if_pos ((canExit_iff h.2.calm).mpr ⟨hl, hs, hr⟩)))

theorem exec_exit_holds (hw : th.cnt.loads ≠ 0 ∨ th.cnt.stores ≠ 0 ∨ s.released th 1 0 = false) :
    exec i s = .next ((s.holdAt th.id i .exit_).stay th i) := by
  refine he.trans (runTeam_alone_of_stall h (if_neg fun hc => ?_))
  obtain ⟨hl, hs, hr⟩ := (canExit_iff h.2.calm).mp hc
  simp [hl, hs, hr] at hw

end

theorem exec_threadEnd_ends {s : State} {th : Thread} (ht : s.thread? s.arg.t = some th) (hh : th.hold = .exit_)
    (hc : s.canExit th = true) : exec .threadEnd s = .next (s.endThread th.id) := by
  simp [exec_threadEnd, execThreadEnd, ht, hh, hc]

/-- Settles O27: WAIT asks waitMet, EXIT and THREAD_END ask canExit; the end of a thread reaches no other while nothing waits for it. -/
theorem waitAndExit : Obligations.WaitAndExit :=
  ⟨fun x _ th h hm => exec_wait_met h ((waitMet_iff x th.cnt).mpr hm),
    fun x _ th h hm => exec_wait_unmet h fun hc => by
      have := (waitMet_iff x th.cnt).mp hc
      omega,
    fun x s _ h => exec_exit_ends (exec_exit s x) h, fun x s _ h => exec_exit_ends (exec_exit96 s x) h,
    fun x s _ h => exec_exit_holds (exec_exit s x) h, fun x s _ h => exec_exit_holds (exec_exit96 s x) h,
    fun _ _ ht hh hl hs hp hr => exec_threadEnd_ends ht hh ((canExit_iff hp).mpr ⟨hl, hs, hr⟩),
    fun _ _ h ho => endThread_of_others h ho⟩

/-! ### BRK and SVC (04 R124, R125) -/

theorem svcOne_privileged {i : Instr} {n : BitVec 8} {a : Dword} {d : Opnd} {s : State} {th : Thread} (hu : th.unit = .device)
    (hn : n.getLsbD 7 = true) : svcOne i n a d s th = .trap s .svc 0 (n.setWidth 32) := by
  simp [svcOne, hu, hn]

/-- A device thread's request n with argument a, its reply to go to d: queued, noted, and the thread held for the reply. -/
def State.svcAsked (s : State) (i : Instr) (th : Thread) (n : BitVec 8) (a : Dword) (d : Opnd) (l : Launch) : State :=
  let s1 := s.newId.2.queueEvent l.queue
    { kind := 3, code := n.toNat, eid := l.id, tag := BitVec.ofNat 32 s.nextId, datum := a }
  State.holdAt { s1 with svcs := s1.svcs ++ [{ tag := s.nextId, thread := th.id, launch := l.id }] } th.id i (.svc s.nextId d)

section
variable {i : Instr} {n : BitVec 8} {a : Dword} {d : Opnd} {s : State} {th : Thread} {l : Launch}

theorem svcOne_request (hu : th.unit = .device) (hn : n.getLsbD 7 = false) (hr : s.released th 6 0 = true)
    (hl : s.launchOf th = some l) : svcOne i n a d s th = .stall (s.svcAsked i th n a d l) := by
  simp [svcOne, hu, hn, -BitVec.getLsbD_eq_getElem, State.afterRelease, hr, hl, State.svcAsked, State.markVis]

theorem thread?_svcAsked (h : s.thread? th.id = some th) :
    (s.svcAsked i th n a d l).thread? th.id = some { th with
      hold := .svc s.nextId d, holdWords := encode i, holdSeq := s.nextId + 1, holdAt := s.cycle } :=
  thread?_modThread_self _ (fun _ => rfl) h

theorem svcAsked_events (hq : l.queue < s.queues.length) :
    ((s.svcAsked i th n a d l).queues.getD l.queue {}).events = (s.queues.getD l.queue {}).events
      ++ [{ kind := 3, code := n.toNat, eid := l.id, tag := BitVec.ofNat 32 s.nextId, datum := a }] := by
  simp [State.svcAsked, State.holdAt, State.newId, State.modThread, State.queueEvent, List.getD_eq_getElem?_getD, hq]

theorem farDrop_eq (s : State) (o to_ : Owner) : s.farDrop o to_ = { s with far := (s.farDrop o to_).far } := by
  unfold State.farDrop
  split <;> rfl

theorem stay_of_svc {x : Thread} {tag : Nat} (h : s.thread? th.id = some x) (hh : x.hold = .svc tag d) :
    s.stay th i = s.farDrop (.thread th.id) := by
  simp [State.stay, h, hh]

variable {arg : State → Thread → Dword} (he : exec i s = runTeam i (fun s0 s1 th => svcOne i n (arg s0 th) d s1 th) s)
include he

theorem exec_svc_request (h : Alone i s th)
    (hu : th.unit = .device) (hn : n.getLsbD 7 = false) (hr : s.released th 6 0 = true) (hl : s.launchOf th = some l) :
    exec i s = .next ((s.svcAsked i th n (arg s th) d l).farDrop (.thread th.id)) := by
  rw [he, runTeam_alone_of_stall h (svcOne_request hu hn hr hl), stay_of_svc (thread?_svcAsked h.2.here) rfl]

/-- What the request leaves: its event and its note, the thread held at its own instruction, and memory as it was. -/
theorem svc_request_leaves (h : Alone i s th)
    (hu : th.unit = .device) (hn : n.getLsbD 7 = false) (hr : s.released th 6 0 = true) (hl : s.launchOf th = some l)
    (hq : l.queue < s.queues.length) :
    ∃ t, exec i s = .next t
      ∧ (t.queues.getD l.queue {}).events = (s.queues.getD l.queue {}).events
          ++ [{ kind := 3, code := n.toNat, eid := l.id, tag := BitVec.ofNat 32 s.nextId, datum := arg s th }]
      ∧ t.svcs = s.svcs ++ [{ tag := s.nextId, thread := th.id, launch := l.id }]
      ∧ (∃ th2, t.thread? th.id = some th2 ∧ th2.hold = .svc s.nextId d ∧ th2.pc = th.pc) ∧ t.mem = s.mem := by
  refine ⟨_, exec_svc_request he h hu hn hr hl, ?_, ?_, ⟨_, (thread?_farDrop ..).trans (thread?_svcAsked h.2.here), rfl, rfl⟩, ?_⟩
  all_goals rw [farDrop_eq]
  · exact svcAsked_events (i := i) (th := th) (d := d) hq
  · rfl
  · rfl

end

/-- Settles O28: BRK and the privileged SVC are traps; any other SVC of a device thread queues its request once it is released. -/
theorem breakAndServiceCalls : Obligations.BreakAndServiceCalls :=
  ⟨fun x s _ h => trapsTo_of_exec_runTeam h (exec_brk s x) rfl,
    fun x s _ h hu hn => trapsTo_of_exec_runTeam h (exec_svc s x) (svcOne_privileged hu hn),
    fun x s _ h hu hn => trapsTo_of_exec_runTeam h (exec_svc96 s x) (svcOne_privileged hu hn),
    fun x s _ _ h hu hn hr hl hq => svc_request_leaves (exec_svc s x) h hu hn hr hl hq,
    fun x s _ _ h hu hn hr hl hq => by
      obtain ⟨t, ht, hev, _, hth, hm⟩ := svc_request_leaves (exec_svc96 s x) h hu hn hr hl hq
      exact ⟨t, ht, hev, hth, hm⟩⟩

end Sys2Proof.Machine
end

section
/-! SUPPORT. Results of floating-point instructions (04 R111 to R118): the issue of each form, exact sums, products, quotients and roots,
and values that a format represents. -/

namespace Sys2Proof.Machine

/-! ### The issue -/

section
variable {i : Instr} {y : Arith}

theorem givesFloat_of_exec_falu1 {f : Rnd → Nat → FRes} (he : ∀ s, exec i s = falu1 i y f s) :
    GivesFloat i y fun r a _ _ => f r a :=
  fun s h => (he s).trans (falu1_runs h)

theorem givesFloat_of_exec_falu2 {f : Rnd → Nat → Nat → FRes} (he : ∀ s, exec i s = falu2 i y f s) :
    GivesFloat i y fun r a b _ => f r a b :=
  fun s h => (he s).trans (falu2_runs h)

theorem givesFloat_of_exec_falu3 {f : Rnd → Nat → Nat → Nat → FRes} (he : ∀ s, exec i s = falu3 i y f s) : GivesFloat i y f :=
  fun s h => (he s).trans (falu3_runs h)

end

theorem exec_fdiv_of_ne_f64 {x : Arith} (h : x.ty ≠ .f64) (s : State) : exec (.fdiv x) s = falu2 (.fdiv x) x (fdiv x.ty) s := by
  simp [exec_fdiv, execFdiv, h]

theorem exec_fsqrt_of_ne_f64 {x : Arith} (h : x.ty ≠ .f64) (s : State) :
    exec (.fsqrt x) s = falu1 (.fsqrt x) x (fsqrt x.ty) s := by
  simp [exec_fsqrt, execFsqrt, h]

/-! ### Sums and products of finite values (03 R79, R80) -/

/-- A signed multiple of 2^k, in units of 2^e. -/
def inUnits (n : Bool) (m : Nat) (k e : Int) : Int := (if n then -1 else 1) * ((m * 2 ^ (k - e).toNat : Nat) : Int)

theorem inUnits_eq (n : Bool) (m : Nat) (k e : Int) :
    inUnits n m k e = if n then -((m * 2 ^ (k - e).toNat : Nat) : Int) else ((m * 2 ^ (k - e).toNat : Nat) : Int) := by
  cases n with
  | false => exact Int.one_mul _
  | true => exact Int.neg_one_mul _

theorem inUnits_zero (n : Bool) (m : Nat) : inUnits n m 0 0 = if n then -(m : Int) else m := by
  rw [inUnits_eq, Int.sub_self, Int.toNat_zero, Nat.pow_zero, Nat.mul_one]

theorem addFin_exact (r : Rnd) (n1 n2 : Bool) (m1 m2 : Nat) (e1 e2 : Int) :
    ∃ n m, addFin r n1 m1 e1 n2 m2 e2 = .fin n m (min e1 e2) ∧ (m = 0 → n = if n1 = n2 then n1 else r == .rdn)
      ∧ inUnits n m 0 0 = inUnits n1 m1 e1 (min e1 e2) + inUnits n2 m2 e2 (min e1 e2) := by
  have he : (if e1 < e2 then e1 else e2) = min e1 e2 := by omega
  unfold addFin
  simp only [he, inUnits_zero, inUnits_eq _ m1, inUnits_eq _ m2]
  generalize m1 * 2 ^ (e1 - min e1 e2).toNat = a
  generalize m2 * 2 ^ (e2 - min e1 e2).toNat = b
  by_cases hn : n1 = n2
  · subst hn
    refine ⟨n1, a + b, if_pos (beq_self_eq_true n1), fun _ => (if_pos rfl).symm, ?_⟩
    cases n1 <;> simp only [if_true, Bool.false_eq_true, if_false] <;> omega
  · rw [if_neg (by rwa [beq_iff_eq])]
    obtain rfl : n2 = !n1 := Bool.eq_not.mpr (Ne.symm hn)
    rcases Nat.lt_trichotomy a b with hlt | rfl | hgt
    · refine ⟨!n1, b - a, ?_, by omega, ?_⟩
      · rw [if_neg (by rw [beq_iff_eq]; omega), if_neg (by omega)]
      · cases n1 <;> simp only [Bool.not_false, Bool.not_true, if_true, Bool.false_eq_true, if_false] <;> omega
    · refine ⟨r == .rdn, 0, if_pos (beq_self_eq_true a), fun _ => (if_neg hn).symm, ?_⟩
      cases n1 <;> cases r == .rdn <;>
        simp only [Bool.not_false, Bool.not_true, if_true, Bool.false_eq_true, if_false] <;> omega
    · refine ⟨n1, a - b, ?_, by omega, ?_⟩
      · rw [if_neg (by rw [beq_iff_eq]; omega), if_pos hgt]
      · cases n1 <;> simp only [Bool.not_false, Bool.not_true, if_true, Bool.false_eq_true, if_false] <;> omega

section
variable {ty : Ty} {r : Rnd} {a b c m1 m2 m3 : Nat} {n1 n2 n3 : Bool} {e1 e2 e3 : Int}
  (ha : decodeF ty a = .fin n1 m1 e1) (hb : decodeF ty b = .fin n2 m2 e2)
include ha hb

theorem fadd_fin : fadd ty r a b = roundTo ty r false (addFin r n1 m1 e1 n2 m2 e2) := by
  simp [fadd, ha, hb, addV]

theorem fmul_fin : fmul ty r a b = roundTo ty r false (.fin (n1 != n2) (m1 * m2) (e1 + e2)) := by
  simp [fmul, ha, hb, mulV]

theorem ffma_fin (hc : decodeF ty c = .fin n3 m3 e3) :
    ffma ty r a b c = roundTo ty r false (addFin r (n1 != n2) (m1 * m2) (e1 + e2) n3 m3 e3) := by
  simp [ffma, ha, hb, hc, mulV, addV]

theorem fdiv_fin (hm : m2 ≠ 0) : fdiv ty r a b = roundTo ty r false (divFin n1 m1 e1 n2 m2 e2) := by
  simp [fdiv, ha, hb, divV, hm]

theorem fadd_rounds_sum :
    ∃ n m, fadd ty r a b = roundTo ty r false (.fin n m (min e1 e2)) ∧ (m = 0 → n = if n1 = n2 then n1 else r == .rdn)
      ∧ inUnits n m 0 0 = inUnits n1 m1 e1 (min e1 e2) + inUnits n2 m2 e2 (min e1 e2) := by
  rw [fadd_fin ha hb]
  obtain ⟨n, m, hf, hz, hv⟩ := addFin_exact r n1 n2 m1 m2 e1 e2
  exact ⟨n, m, by rw [hf], hz, hv⟩

theorem ffma_rounds_sum (hc : decodeF ty c = .fin n3 m3 e3) :
    ∃ n m, ffma ty r a b c = roundTo ty r false (.fin n m (min (e1 + e2) e3))
      ∧ (m = 0 → n = if (n1 != n2) = n3 then n3 else r == .rdn)
      ∧ inUnits n m 0 0 = inUnits (n1 != n2) (m1 * m2) (e1 + e2) (min (e1 + e2) e3) + inUnits n3 m3 e3 (min (e1 + e2) e3) := by
  rw [ffma_fin ha hb hc]
  obtain ⟨n, m, hf, hz, hv⟩ := addFin_exact r (n1 != n2) n3 (m1 * m2) m3 (e1 + e2) e3
  refine ⟨n, m, by rw [hf], fun hm => (hz hm).trans ?_, hv⟩
  split
  next hn => exact hn
  next => rfl

end

/-! ### Quotients and roots, their last bit set when they are inexact (03 R79, 04 R116) -/

/-- Twice the quotient of a by m, its last bit set when the division leaves a remainder: stickyDiv of any dividend. -/
def stickyQuot (a m : Nat) : Nat := 2 * (a / m) + if a % m == 0 then 0 else 1

theorem stickyQuot_spec (a : Nat) {m : Nat} (hm : m ≠ 0) :
    let q := stickyQuot a m
    (q % 2 = 0 ∧ q * m = 2 * a) ∨ (q % 2 = 1 ∧ (q - 1) * m < 2 * a ∧ 2 * a < (q + 1) * m) := by
  have hdiv : m * (a / m) + a % m = a := Nat.div_add_mod a m
  have hlt : a % m < m := Nat.mod_lt a (Nat.pos_of_ne_zero hm)
  unfold stickyQuot
  by_cases h : a % m = 0
  · left
    rw [if_pos (by simpa using h)]
    exact ⟨by omega, by grind⟩
  · right
    rw [if_neg (by simpa using h)]
    exact ⟨by omega, by grind, by grind⟩

/-- Twice the root of a, its last bit set when it is not exact. -/
def stickyRoot (a : Nat) : Nat :=
  let r := isqrt a
  2 * r + if r * r == a then 0 else 1

theorem stickyRoot_spec (a : Nat) :
    let q := stickyRoot a
    (q % 2 = 0 ∧ q * q = 4 * a) ∨ (q % 2 = 1 ∧ (q - 1) * (q - 1) < 4 * a ∧ 4 * a < (q + 1) * (q + 1)) := by
  obtain ⟨hle, hlt⟩ := isqrt_bounds a
  unfold stickyRoot
  generalize isqrt a = r at *
  dsimp only
  by_cases h : r * r = a
  · left
    rw [if_pos (by simpa using h)]
    exact ⟨by omega, by grind⟩
  · right
    rw [if_neg (by simpa using h)]
    exact ⟨by omega, by grind, by grind⟩

theorem fdiv_rounds_quotient {ty : Ty} {r : Rnd} {a b m1 m2 : Nat} {n1 n2 : Bool} {e1 e2 : Int}
    (ha : decodeF ty a = .fin n1 m1 e1) (hb : decodeF ty b = .fin n2 m2 e2) (h1 : m1 ≠ 0) (h2 : m2 ≠ 0) :
    ∃ k m : Nat, fdiv ty r a b = roundTo ty r false (.fin (n1 != n2) m (e1 - e2 - k)) ∧ 2 ^ 64 ≤ m
      ∧ ((m % 2 = 0 ∧ m * m2 = m1 * 2 ^ k) ∨ (m % 2 = 1 ∧ (m - 1) * m2 < m1 * 2 ^ k ∧ m1 * 2 ^ k < (m + 1) * m2)) := by
  have hval : divFin n1 m1 e1 n2 m2 e2
      = .fin (n1 != n2) (stickyQuot (m1 * 2 ^ (Nat.log2 m2 + 130)) m2) (e1 - e2 - (Nat.log2 m2 + 130 + 1 : Nat)) := by
    rw [divFin, stickyQuot]
    congr 1
    omega
  have hsize : 2 ^ 63 ≤ m1 * 2 ^ (Nat.log2 m2 + 130) / m2 := by
    rw [Nat.le_div_iff_mul_le (Nat.pos_of_ne_zero h2)]
    calc 2 ^ 63 * m2 ≤ 2 ^ 129 * 2 ^ (Nat.log2 m2 + 1) := Nat.mul_le_mul (by decide) (Nat.le_of_lt Nat.lt_log2_self)
      _ = 2 ^ (Nat.log2 m2 + 130) := by rw [← Nat.pow_add, show 129 + (Nat.log2 m2 + 1) = Nat.log2 m2 + 130 by omega]
      _ ≤ m1 * 2 ^ (Nat.log2 m2 + 130) := Nat.le_mul_of_pos_left _ (Nat.pos_of_ne_zero h1)
  have hpow : m1 * 2 ^ (Nat.log2 m2 + 130 + 1) = 2 * (m1 * 2 ^ (Nat.log2 m2 + 130)) := by
    rw [Nat.pow_succ, Nat.mul_comm 2, Nat.mul_assoc]
  refine ⟨Nat.log2 m2 + 130 + 1, _, by rw [fdiv_fin ha hb h2, hval], by unfold stickyQuot; omega, ?_⟩
  rw [hpow]
  exact stickyQuot_spec _ h2

theorem sqrtFin_even (m : Nat) {e : Int} (h : e % 2 = 0) : sqrtFin m e = .fin false (stickyRoot (m * 2 ^ 256)) (e / 2 - 129) := by
  simp [sqrtFin, stickyRoot, h]

theorem sqrtFin_odd (m : Nat) {e : Int} (h : e % 2 = 1) :
    sqrtFin m e = .fin false (stickyRoot (2 * m * 2 ^ 256)) ((e - 1) / 2 - 129) := by
  simp [sqrtFin, stickyRoot, h]

theorem le_stickyRoot {c a : Nat} (h : c ^ 2 ≤ a) : 2 * c ≤ stickyRoot a := by
  have := le_isqrt h
  unfold stickyRoot
  dsimp only
  omega

theorem two_pow_64_le_stickyRoot {m : Nat} (hm : m ≠ 0) : 2 ^ 64 ≤ stickyRoot (m * 2 ^ 256) :=
  le_stickyRoot (c := 2 ^ 63) (Nat.le_trans (m := 1 * 2 ^ 256) (by decide) (Nat.mul_le_mul_right _ (Nat.pos_of_ne_zero hm)))

theorem sqrtV_fin {m : Nat} (hm : m ≠ 0) (e : Int) : sqrtV (.fin false m e) = (sqrtFin m e, 0) := by
  simp [sqrtV, hm]

theorem fsqrt_of_sqrtV {ty : Ty} {r : Rnd} {a : Nat} {v : FVal} (h : sqrtV (decodeF ty a) = (v, 0)) :
    fsqrt ty r a = roundTo ty r false v := by
  simp [fsqrt, h]

theorem mul_two_pow_add_two (m k : Nat) : m * 2 ^ (k + 2) = 4 * (m * 2 ^ k) := by
  rw [Nat.pow_add, Nat.mul_comm 4, Nat.mul_assoc]

theorem mul_two_pow_add_three (m k : Nat) : m * 2 ^ (k + 3) = 4 * (2 * m * 2 ^ k) := by
  rw [mul_two_pow_add_two m (k + 1), Nat.pow_succ', ← Nat.mul_assoc m, Nat.mul_comm m 2]

theorem fsqrt_rounds_root {ty : Ty} {r : Rnd} {a m1 : Nat} {e1 : Int} (h : decodeF ty a = .fin false m1 e1) (hm : m1 ≠ 0) :
    ∃ (k m : Nat) (q : Int), fsqrt ty r a = roundTo ty r false (.fin false m q) ∧ 2 * q = e1 - k ∧ 2 ^ 64 ≤ m
      ∧ ((m % 2 = 0 ∧ m * m = m1 * 2 ^ k)
        ∨ (m % 2 = 1 ∧ (m - 1) * (m - 1) < m1 * 2 ^ k ∧ m1 * 2 ^ k < (m + 1) * (m + 1))) := by
  rw [fsqrt_of_sqrtV ((congrArg sqrtV h).trans (sqrtV_fin hm e1))]
  rcases Int.emod_two_eq e1 with he | he
  · refine ⟨256 + 2, _, _, by rw [sqrtFin_even m1 he], by omega, two_pow_64_le_stickyRoot hm, ?_⟩
    rw [mul_two_pow_add_two m1 256]
    exact stickyRoot_spec _
  · refine ⟨256 + 3, _, _, by rw [sqrtFin_odd m1 he], by omega, two_pow_64_le_stickyRoot (by omega), ?_⟩
    rw [mul_two_pow_add_three m1 256]
    exact stickyRoot_spec _

/-! ### Values that a format represents (03 R70, R79) -/

/-- m * 2^e as a format writes its finite values: mw + 1 bits, or fewer at the exponent of the subnormals, and no overflow. -/
structure Fmt.Fits (f : Fmt) (m : Nat) (e : Int) : Prop where
  lt : m < 2 ^ (f.mw + 1)
  normal : 2 ^ f.mw ≤ m ∨ e = f.q0
  lo : f.q0 ≤ e
  hi : f.code m e ≤ f.maxCode

theorem Fmt.code_of_lt (f : Fmt) {m : Nat} (e : Int) (h : m < 2 ^ (f.mw + 1)) :
    f.code m e = if m < 2 ^ f.mw then m else (e - f.q0 + 1).toNat * 2 ^ f.mw + (m - 2 ^ f.mw) := by
  simp [Fmt.code, Nat.ne_of_lt h]

theorem Fmt.Fits.roundFin_eq {f : Fmt} {m : Nat} {e : Int} (h : f.Fits m e) (r : Rnd) (sat n : Bool) :
    roundFin f r sat n m e = { bits := f.put n (f.code m e) } := by
  obtain ⟨hlt, hnorm, hlo, hhi⟩ := h
  have hpos := Nat.two_pow_pos f.mw
  unfold roundFin
  by_cases hm : m = 0
  · subst hm
    have hcode : f.code 0 e = 0 := by rw [Fmt.code_of_lt f e hlt, if_pos hpos]
    rw [if_pos (beq_self_eq_true 0), hcode]
  · have hlog : Nat.log2 m < f.mw + 1 := (Nat.log2_lt hm).mpr hlt
    have hq : (if e + (Nat.log2 m : Int) - f.mw < f.q0 then f.q0 else e + (Nat.log2 m : Int) - f.mw) = e := by
      by_cases hge : 2 ^ f.mw ≤ m
      · have := (Nat.le_log2 hm).mpr hge
        omega
      · omega
    have hexact : roundAt r n m e e = (m, true) := by simp [roundAt]
    simp [hm, hq, hexact, Nat.not_lt.mpr hhi]

/-- The exponent field of a code without padding. -/
def Fmt.expField (f : Fmt) (a : Nat) : Nat := a / 2 ^ f.mw % 2 ^ f.ew

/-- The fraction of a code without padding. -/
def Fmt.fraction (f : Fmt) (a : Nat) : Nat := a % 2 ^ f.mw

theorem fields_add_sign {a u v : Nat} (h : a < 2 ^ (u + v + 1)) :
    a / 2 ^ v % 2 ^ u * 2 ^ v + a % 2 ^ v + (if a.testBit (u + v) then 2 ^ (u + v) else 0) = a := by
  have hsign : a / 2 ^ (u + v) < 2 := Nat.div_lt_of_lt_mul (by rwa [← Nat.pow_succ])
  have hbit : (if a.testBit (u + v) then 2 ^ (u + v) else 0) = 2 ^ (u + v) * (a / 2 ^ (u + v)) := by
    rw [Nat.testBit_eq_decide_div_mod_eq]
    rcases Nat.le_one_iff_eq_zero_or_eq_one.mp (Nat.le_of_lt_succ hsign) with h0 | h0 <;> simp [h0]
  calc a / 2 ^ v % 2 ^ u * 2 ^ v + a % 2 ^ v + (if a.testBit (u + v) then 2 ^ (u + v) else 0)
      = 2 ^ v * (2 ^ u * (a / 2 ^ (u + v)) + a / 2 ^ v % 2 ^ u) + a % 2 ^ v := by rw [hbit, Nat.pow_add, Nat.mul_add]; ac_rfl
    _ = 2 ^ v * (a / 2 ^ v) + a % 2 ^ v := by rw [Nat.add_comm u, Nat.pow_add, ← Nat.div_div_eq_div_mul, Nat.div_add_mod]
    _ = a := Nat.div_add_mod ..

section
variable {ty : Ty} {f : Fmt} {a m : Nat} {n : Bool} {e : Int} (hf : Ty.fmt ty = f) (ht : f.top = .ieee) (hp : f.pad = 0)
  (h : decodeF ty a = .fin n m e)

include hf ht hp h

theorem fields_of_decodeF_fin :
    n = a.testBit (f.ew + f.mw) ∧ f.expField a ≠ 2 ^ f.ew - 1
      ∧ if f.expField a = 0 then m = f.fraction a ∧ e = f.q0
        else m = f.fraction a + 2 ^ f.mw ∧ e = f.q0 + ((f.expField a : Int) - 1) := by
  unfold decodeF at h
  simp only [hf, ht, hp, Nat.pow_zero, Nat.div_one, beq_iff_eq] at h
  rw [← Fmt.expField, ← Fmt.fraction] at h
  split at h
  next => split at h <;> cases h
  next hs =>
    split at h
    next h0 =>
      cases h
      exact ⟨rfl, hs, by rw [if_pos h0]; exact ⟨rfl, rfl⟩⟩
    next h0 =>
      cases h
      exact ⟨rfl, hs, by rw [if_neg h0]; exact ⟨rfl, rfl⟩⟩

theorem code_of_decodeF_fin : f.code m e = f.expField a * 2 ^ f.mw + f.fraction a ∧ f.Fits m e := by
  obtain ⟨-, hx, hme⟩ := fields_of_decodeF_fin hf ht hp h
  have hmax : f.maxCode = (2 ^ f.ew - 1) * 2 ^ f.mw - 1 := by rw [Fmt.maxCode, ht]
  have hxlt : f.expField a < 2 ^ f.ew := Nat.mod_lt _ (Nat.two_pow_pos _)
  have hylt : f.fraction a < 2 ^ f.mw := Nat.mod_lt _ (Nat.two_pow_pos _)
  have hpow : 2 ^ (f.mw + 1) = 2 ^ f.mw * 2 := Nat.pow_succ ..
  have hlt : m < 2 ^ (f.mw + 1) := by split at hme <;> omega
  have hcode : f.code m e = f.expField a * 2 ^ f.mw + f.fraction a := by
    rw [Fmt.code_of_lt _ _ hlt]
    split at hme
    next h0 =>
      rw [if_pos (by omega), h0]
      omega
    next h0 =>
      rw [if_neg (by omega), show (e - f.q0 + 1).toNat = f.expField a by omega]
      omega
  refine ⟨hcode, hlt, by split at hme <;> omega, by split at hme <;> omega, ?_⟩
  have hle : (f.expField a + 1) * 2 ^ f.mw ≤ (2 ^ f.ew - 1) * 2 ^ f.mw := Nat.mul_le_mul_right _ (by omega)
  rw [Nat.add_mul] at hle
  omega

/-- A finite value is written back as its own code. -/
theorem roundTo_of_decodeF_fin (hw : ty.width = f.ew + f.mw + 1) (ha : a < 2 ^ ty.width) (r : Rnd) (sat : Bool) :
    roundTo ty r sat (.fin n m e) = { bits := a } := by
  obtain ⟨hcode, hfits⟩ := code_of_decodeF_fin hf ht hp h
  obtain ⟨rfl, -, -⟩ := fields_of_decodeF_fin hf ht hp h
  rw [hw] at ha
  rw [roundTo, hf, hfits.roundFin_eq, hcode, Fmt.put, hp, Nat.pow_zero, Nat.mul_one, Fmt.expField, Fmt.fraction,
    fields_add_sign ha]

end

theorem layout_of_exact_types {ty : Ty} (h : ty ∈ [Ty.f32, .f64, .f16, .bf16]) :
    (Ty.fmt ty).top = .ieee ∧ (Ty.fmt ty).pad = 0 ∧ ty.width = (Ty.fmt ty).ew + (Ty.fmt ty).mw + 1 := by
  simp only [List.mem_cons, List.not_mem_nil, or_false] at h
  rcases h with rfl | rfl | rfl | rfl <;> exact ⟨rfl, rfl, rfl⟩

/-- Settles O17: each form is the issue of its sources; on finite operands the value rounded is the exact one, or one with a sticky last
bit; a value that the format represents rounds to its own code. -/
theorem floatArithmeticResults : Obligations.FloatArithmeticResults := by
  refine ⟨fun x => givesFloat_of_exec_falu2 (exec_fadd · x), fun x => givesFloat_of_exec_falu2 (exec_fadd96 · x),
    fun x => givesFloat_of_exec_falu2 (exec_fsub · x), fun x => givesFloat_of_exec_falu2 (exec_fsub96 · x),
    fun x => givesFloat_of_exec_falu2 (exec_fmul · x), fun x => givesFloat_of_exec_falu2 (exec_fmul96 · x),
    fun x => givesFloat_of_exec_falu3 (exec_ffma · x), fun x => givesFloat_of_exec_falu3 (exec_ffma96 · x),
    fun x => givesFloat_of_exec_falu2 (exec_fmin · x), fun x => givesFloat_of_exec_falu2 (exec_fmin96 · x),
    fun x => givesFloat_of_exec_falu2 (exec_fmax · x), fun x => givesFloat_of_exec_falu2 (exec_fmax96 · x),
    fun x => givesFloat_of_exec_falu1 (exec_fabs · x), fun x => givesFloat_of_exec_falu1 (exec_fabs96 · x),
    fun x => givesFloat_of_exec_falu1 (exec_fneg · x), fun x => givesFloat_of_exec_falu1 (exec_fneg96 · x),
    fun x hx => givesFloat_of_exec_falu2 (exec_fdiv_of_ne_f64 hx), fun x hx => givesFloat_of_exec_falu1 (exec_fsqrt_of_ne_f64 hx),
    fun ty r a b m1 m2 n1 n2 e1 e2 ha hb => ⟨fadd_rounds_sum ha hb, fmul_fin ha hb, fun _ _ _ _ hc => ffma_rounds_sum ha hb hc,
      fdiv_rounds_quotient ha hb, ?_⟩, ?_⟩
  · rintro rfl hm
    exact fsqrt_rounds_root ha hm
  · intro ty r sat n a m e hty ha h
    obtain ⟨ht, hp, hw⟩ := layout_of_exact_types hty
    exact roundTo_of_decodeF_fin rfl ht hp h hw ha r sat

/-- Settles O18: each form is an issue of a result, and its value is the model's function of the exact source value. -/
theorem floatComparisonsAndConversions : Obligations.FloatComparisonsAndConversions :=
  ⟨fun x => gives_of_exec_aluTeam (exec_fcmp · x), fun x => givesCount_of_exec_aluCount (exec_fclass · x),
    fun x => gives_of_exec_aluTeam (exec_cvt · x), fun x => gives_of_exec_aluTeam (exec_cvtfi · x),
    fun x => gives_of_exec_aluTeam (exec_cvtif · x), fun x => givesFloat_of_exec_falu1 (exec_frnd · x),
    fun x => gives_of_exec_aluTeam (exec_fscale · x)⟩

end Sys2Proof.Machine
end

section
/-! SUPPORT. Packed and cross-lane results (06 R160 to R184) and the manual's worked encodings: a packed issue gives two
elements' results, a cross-lane issue one read off its active members, and the printed words are those that the encoder gives. -/

namespace Sys2Proof.Machine

/-! ### Packed elements (06 R175, R176) -/

/-- A packed issue whose function acts as g on the elements of one index: g of the low and of the high elements, and both flags. -/
theorem givesHalves_of_exec_packedTeam {i : Instr} {y : Arith} {f : Ty → Nat → Nat → Nat → FRes} (g : Nat → Nat → Nat → FRes)
    (hf : ∀ a b c, f y.ty a b c = packed2 fun k => g (half a k) (half b k) (half c k))
    (he : ∀ s, exec i s = packedTeam i y f s) :
    Gives i fun s th =>
      let e (o : Opnd) (k : Nat) : Nat := half (s.packed th y o) k
      let lo := g (e y.a 0) (e y.b 0) (e y.c 0)
      let hi := g (e y.a 1) (e y.b 1) (e y.c 1)
      { d := y.d, w := 32, val := hi.bits * 65536 + lo.bits, flags := lo.flags ||| hi.flags } := by
  intro s h
  rw [he, packedTeam_runs h]
  simp only [hf, packed2]

/-- Settles O20: HADD to HMAX are packed issues of one operation on elements; DOT, PACK, UNPK and EDGE are issues of a result. -/
theorem packedResults : Obligations.PackedResults :=
  ⟨fun _ => givesHalves_of_exec_packedTeam (fun a b _ => fadd _ .rne a b) (fun _ _ _ => rfl) (exec_hadd · _),
    fun _ => givesHalves_of_exec_packedTeam (fun a b _ => fadd _ .rne a b) (fun _ _ _ => rfl) (exec_hadd96 · _),
    fun _ => givesHalves_of_exec_packedTeam (fun a b _ => fmul _ .rne a b) (fun _ _ _ => rfl) (exec_hmul · _),
    fun _ => givesHalves_of_exec_packedTeam (fun a b _ => fmul _ .rne a b) (fun _ _ _ => rfl) (exec_hmul96 · _),
    fun _ => givesHalves_of_exec_packedTeam (ffma _ .rne) (fun _ _ _ => rfl) (exec_hfma · _),
    fun _ => givesHalves_of_exec_packedTeam (ffma _ .rne) (fun _ _ _ => rfl) (exec_hfma96 · _),
    fun _ => givesHalves_of_exec_packedTeam (fun a b _ => fminmax _ false a b) (fun _ _ _ => rfl) (exec_hmin · _),
    fun _ => givesHalves_of_exec_packedTeam (fun a b _ => fminmax _ true a b) (fun _ _ _ => rfl) (exec_hmax · _),
    fun x => gives_of_exec_aluTeam (exec_dot · x), fun x => gives_of_exec_aluTeam (exec_pack · x),
    fun x => gives_of_exec_aluTeam (exec_unpk · x), fun x => gives_of_exec_aluTeam (exec_edge · x)⟩

/-! ### Lanes (06 R160 to R174, R183) -/

/-- Settles O21: each of the eight is the issue of a result that is read off the active members in the state before it. -/
theorem laneResults : Obligations.LaneResults :=
  ⟨fun x => gives_of_exec_aluTeam (exec_lead · x), fun x => gives_of_exec_aluTeam (exec_xch · x),
    fun x => gives_of_exec_aluTeam (exec_xlred · x), fun x => gives_of_exec_aluTeam (exec_xlscan · x),
    fun x => gives_of_exec_aluTeam (exec_ballot · x), fun x => gives_of_exec_aluTeam (exec_quorum · x),
    fun x => gives_of_exec_aluTeam (exec_peer · x), fun x => gives_of_exec_aluTeam (exec_qblk · x)⟩

/-! ### Worked encodings (02, 04, 06, 09) -/

/-- Words that a well-formed legal instruction encodes to decode to it: the round trip, read from the words. -/
theorem decode_of_encode_eq {ws : List Word} {i : Instr} (he : encode i = ws) (hw : i.wf = true) (hl : i.legal = true)
    (hs : i.isStep = false) : decode ws = .ok i :=
  he ▸ decodeReadsBackEncode i hw hl hs

/-- Settles O2: the encoder gives the words that the manual prints beside each instruction, and decode reads them back. -/
theorem wordsDecodeAsPrinted : Obligations.WordsDecodeAsPrinted := by
  refine ⟨?_, ?_, ?_, ?_, ?_, ?_, ?_, ?_, ?_, ?_⟩ <;> exact decode_of_encode_eq (by decide) (by decide) (by decide) (by decide)

end Sys2Proof.Machine
end

section
/-! SUPPORT. Bytes read back after a write, a state's groups after an update of one, and the issue of an
instruction by a thread alone. -/

namespace Sys2Proof.Machine

/-! ### Memory and bytes (01 R24) -/

theorem Memory.read_of_lt {m : Memory} {lo a : Nat} (h : m.wfFrom lo = true) (ha : a < lo) : m.read a = 0 := by
  induction m generalizing lo with
  | nil => rfl
  | cons c rest ih =>
    obtain ⟨x, v⟩ := c
    simp only [Memory.wfFrom, Bool.and_eq_true, decide_eq_true_eq] at h
    obtain ⟨⟨hx, -⟩, hrest⟩ := h
    rw [Memory.read, if_neg (by simpa using by omega), ih hrest (by omega)]

theorem Memory.read_write {m : Memory} {lo : Nat} (h : m.wfFrom lo = true) (a : Nat) (b : Byte) (x : Nat) :
    (m.write a b).read x = if x = a then b else m.read x := by
  induction m generalizing lo with
  | nil =>
    rw [Memory.write]
    split <;> grind [Memory.read]
  | cons c rest ih =>
    obtain ⟨y, v⟩ := c
    simp only [Memory.wfFrom, Bool.and_eq_true, decide_eq_true_eq] at h
    obtain ⟨-, hrest⟩ := h
    have hlow : x ≤ y → Memory.read rest x = 0 := fun hx => Memory.read_of_lt hrest (by omega)
    rw [Memory.write]
    split
    next hy =>
      rw [Memory.read, Memory.read, ih hrest]
      grind
    next =>
      repeat' split
      all_goals grind [Memory.read]

/-- A store changes the bytes stored and no other. -/
theorem Memory.put_store {m : Memory} (h : m.wf = true) (a : Nat) (bs : List Byte) : m.Put (m.store a bs) a bs := by
  intro x
  induction bs generalizing m a with
  | nil => rw [Memory.store, if_neg (by simp)]
  | cons b bs ih =>
    rw [Memory.store, ih (Memory.wf_write m a b h), Memory.read_write h]
    by_cases hx : x = a
    · rw [if_neg (by omega), if_pos hx, if_pos (by rw [List.length_cons]; omega), hx, Nat.sub_self]
      rfl
    · by_cases hr : a + 1 ≤ x
      · obtain ⟨k, rfl⟩ := Nat.exists_eq_add_of_le hr
        have e1 : a + 1 + k - (a + 1) = k := by omega
        have e2 : a + 1 + k - a = k + 1 := by omega
        have hin : (a + 1 ≤ a + 1 + k ∧ a + 1 + k < a + 1 + bs.length) ↔ (a ≤ a + 1 + k ∧ a + 1 + k < a + (bs.length + 1)) := by
          omega
        simp only [e1, e2, List.getD_cons_succ, List.length_cons, hx, if_false, hin]
      · rw [if_neg (by omega), if_neg hx, if_neg (by omega)]

theorem Memory.load_of_read {m : Memory} {a : Nat} {bs : List Byte}
    (h : ∀ i, i < bs.length → m.read (a + i) = bs.getD i 0) : m.load a bs.length = bs := by
  induction bs generalizing a with
  | nil => rfl
  | cons b bs ih =>
    rw [List.length_cons, Memory.load]
    congr 1
    · exact h 0 (by simp)
    · refine ih fun i hi => ?_
      rw [Nat.add_right_comm, Nat.add_assoc]
      exact h (i + 1) (by simpa using hi)

theorem Memory.load_store {m : Memory} (h : m.wf = true) (a : Nat) (bs : List Byte) : (m.store a bs).load a bs.length = bs :=
  Memory.load_of_read fun i hi => by
    rw [Memory.put_store h, if_pos (by omega), Nat.add_sub_cancel_left]

theorem length_toBytes (n v : Nat) : (toBytes n v).length = n := by
  induction n generalizing v with
  | zero => rfl
  | succ n ih => rw [toBytes, List.length_cons, ih]

theorem ofBytes_toBytes (n v : Nat) : ofBytes (toBytes n v) = v % 256 ^ n := by
  induction n generalizing v with
  | zero => rw [toBytes, ofBytes, Nat.pow_zero, Nat.mod_one]
  | succ n ih => rw [toBytes, ofBytes, ih, Nat.pow_succ', Nat.mod_mul, BitVec.toNat_ofNat]

/-! ### Groups -/

theorem group?_modGroup_self {s : State} {gid : Nat} {g : Group} (f : Group → Group) (hf : ∀ x, (f x).id = x.id)
    (h : s.group? gid = some g) : (s.modGroup gid f).group? gid = some (f g) := by
  rw [group?_modGroup s gid gid f hf, h]
  simp [group?_id h]

theorem group?_leave {s : State} {gid : Nat} {g : Group} (th : Thread) (key : Nat) (h : s.group? gid = some g) :
    ∃ ds, (s.leave th key).group? gid = some { g with kdeps := ds } := by
  unfold State.leave
  split
  · exact ⟨_, h⟩
  · rw [group?_modGroup]
    · rw [h, Option.map_some]
      split <;> exact ⟨_, rfl⟩
    · exact fun _ => rfl

/-! ### One thread alone -/

section
variable {i : Instr} {body : State → State → Thread → Res} {pre : State → Thread → Prop} {f : State → Thread → State}

theorem does_of_exec_runTeam (he : ∀ s, exec i s = runTeam i body s) (hb : ∀ s th, pre s th → body s s th = .done (f s th)) :
    Does i pre f :=
  fun s th h hp => (he s).trans (runTeam_alone_of_done h (hb s th hp))

theorem holds_of_exec_runTeam (he : ∀ s, exec i s = runTeam i body s) (hb : ∀ s th, pre s th → body s s th = .stall (f s th)) :
    Holds i pre f :=
  fun s th h hp => (he s).trans (runTeam_alone_of_stall h (hb s th hp))

end

end Sys2Proof.Machine
end

section
/-! SUPPORT. Copies (11 R256 to R261): their issue, the pieces that they move, and how they retire. -/

namespace Sys2Proof.Machine

/-! ### Issue -/

theorem issueCopy_of_room {s : State} {th : Thread} (h : th.cnt.copies < 63) (i : Instr) (kind : CmdKind)
    (slot : Option Word) (n : Nat) (rs : List (Dword × Nat)) :
    s.issueCopy th i kind slot n rs
      = .done ((s.issueCmd th i kind (slot.map (·.toNat)) [(0, n)] (accessesTo th rs)).modThread th.id fun y =>
          { y with cnt := { y.cnt with copies := y.cnt.copies + 1 } }) :=
  if_neg (by omega)

/-- A shape record that passes its checks issues the copy of its box. -/
theorem cpytRecord_issues {s : State} {th : Thread} {a : Dword} {r : List Byte} {c : List Word} (hshape : shapeOk r = true)
    (hsub : 8 ≤ (boxTy r).width ∨ coord c 0 % 32 = 0) (hin : boxOutside r c = false ∨ field r 0x0A 1 ≠ 0)
    (hfit : (a - s.img.spBase).toNat + boxBytes r ≤ s.scratch th)
    (hown : s.ownerTrap th (a - s.img.spBase).toNat (boxBytes r) true = none) (hroom : th.cnt.copies < 63) (i : Instr) (load : Bool)
    (slot : Option Word) :
    cpytRecord i load slot a c r s th
      = .done ((s.issueCmd th i (.copyt load (a - s.img.spBase).toNat r c) (slot.map (·.toNat)) [(0, boxBytes r)]
          (accessesTo th ((a, boxBytes r) :: boxRanges load (a - s.img.spBase).toNat r c))).modThread th.id fun y =>
            { y with cnt := { y.cnt with copies := y.cnt.copies + 1 } }) := by
  have hgeom : ¬ ((decide ((boxTy r).width < 8) && coord c 0 % 32 != 0 || boxOutside r c && field r 0x0A 1 == 0) = true) := by
    simp only [Bool.or_eq_true, Bool.and_eq_true, decide_eq_true_eq, bne_iff_ne, beq_iff_eq, not_or, not_and]
    exact ⟨fun hw hc => by omega, fun ho hz => by simp [ho, hz] at hin⟩
  simp only [cpytRecord, hshape, Bool.not_true, Bool.false_eq_true, if_false, if_neg hgeom, if_neg (Nat.not_lt.mpr hfit), hown]
  exact issueCopy_of_room hroom ..

theorem cpyt_issues {x : Desc} {s s2 : State} {th : Thread} {r : List Byte} (h : Alone (.cpyt x) s th)
    (hslot : s.slotBad th (s.slotOperand th x) = none) (halign : (s.a64 th x).toNat % 16 = 0)
    (hcan : canonical (s.spaceOf th) (s.a64 th x) = true) (hspad : inWindow s.img.spBase (s.a64 th x) = true)
    (hdesc : (s.b64 th x).toNat % 64 = 0) (hstk : inWindow s.img.stkBase (s.b64 th x) = false)
    (hread : s.ownRead th (s.b64 th x) 64 64 true = (s2, .ok r)) {t : State}
    (hrec : cpytRecord (.cpyt x) (!x.w2.getLsbD 1) (s.slotOperand th x) (s.a64 th x) (th.spanRegs x.c 5) r s2 th = .done t) :
    exec (.cpyt x) s = .next (t.past (.cpyt x) th) := by
  refine (exec_cpyt s x).trans (runTeam_alone_of_done h ?_)
  simp [-BitVec.getLsbD_eq_getElem, hslot, halign, hcan, hspad, hdesc, hstk, hread, Own.res, hrec]

/-! ### Progress -/

theorem copy_moves_piece {s s1 s2 : State} {g : Group} {c : Cmd} {dst src : Dword} {k o n : Nat} {r : Run} {bs : List Byte}
    (hcmd : s.cmd? s.arg.a = some (g, c)) (hkind : c.kind = .copy dst src k) (hfault : c.fault = none) (htag : c.tag = none)
    (hbefore : s.beforeDone c = true) (hpiece : s.nextPiece c = some (o, n, r)) (hconf : s.conflicts g c (pieceTouches r) = false)
    (hsrc : s.aliased g c r.src n = false) (hdst : s.aliased g c r.dst n = false)
    (hread : s.pieceRead g c.id r.src n = (s1, .ok bs)) (hwrite : s1.pieceWrite g c.id r.dst bs = (s2, .ok ())) :
    let left := takeOut o n c.left
    let s3 := (s2.farDone (.cmd c.id)).modCmd g.id c.id fun x =>
      { x with left := left, started := true, sent := if left.isEmpty then x.sent else x.sent + n }
    exec .copyProgress s = .next (match c.slot, left.isEmpty with
      | some q, false => s3.slotEvent g.id q 0 0 n (some c.issuer)
      | _, _ => s3) := by
  simp [exec_copyProgress, execCopyProgress, hcmd, hkind, hfault, htag, hbefore, hpiece, hconf, hsrc, hdst, hread, hwrite] <;> rfl

theorem pieceWrite_spad {s : State} {g : Group} (h : s.group? g.id = some g) (hwf : g.spad.wf = true) (k o : Nat) (bs : List Byte) :
    ∃ t g2, s.pieceWrite g k (.spad o) bs = (t, .ok ()) ∧ t.group? g.id = some g2 ∧ g.spad.Put g2.spad o bs ∧ t.mem = s.mem
      ∧ t.threads = s.threads ∧ g2.k = g.k ∧ s.pieceRead g k (.spad o) bs.length = (s, .ok (g.spad.load o bs.length)) :=
  ⟨_, _, rfl, group?_modGroup_self (fun y => { y with spad := y.spad.store o bs }) (fun _ => rfl) h, Memory.put_store hwf o bs,
    rfl, rfl, rfl, rfl⟩

/-! ### Retirement -/

section
variable {s : State} {g : Group} {c : Cmd} {dst src : Dword} {k : Nat} (hcmd : s.cmd? s.arg.a = some (g, c))
  (hkind : c.kind = .copy dst src k)
include hcmd hkind

theorem copy_retires (hleft : c.left = []) (hfault : c.fault = none) :
    exec .copyRetire s = .next (State.retireCopy (match c.slot with
      | some q => s.slotEvent g.id q 1 0 (k - c.sent) (some c.issuer)
      | none => s) g c) := by
  simp [exec_copyRetire, execCopyRetire, hcmd, hkind, hleft, hfault, Cmd.total] <;> rfl

theorem unfinished_copy_stays (hleft : c.left ≠ []) : exec .copyRetire s = .next s := by
  simp [exec_copyRetire, execCopyRetire, hcmd, hkind, hleft]

theorem copy_faults {f : Fail} {a : Dword} (hfault : c.fault = some (f, a)) :
    exec .copyFault s = .next ((s.cmdFault g c f a).retireCopy g c) := by
  simp [exec_copyFault, execCopyFault, hcmd, hkind, hfault]

end

theorem retireCopy_mem (s : State) (g : Group) (c : Cmd) : (s.retireCopy g c).mem = s.mem := by
  rw [State.retireCopy, farDrop_eq]
  rfl

theorem thread?_retireCopy {s : State} {c : Cmd} {th : Thread} (h : s.thread? c.thread = some th) (g : Group) :
    (s.retireCopy g c).thread? c.thread = some { th with cnt := { th.cnt with copies := th.cnt.copies - 1 } } :=
  thread?_modThread_self _ (fun _ => rfl) ((thread?_farDrop s (.cmd c.id) c.thread).trans h)

/-- Settles O46: CPY and CPYT go through issueCopy once their checks pass; a piece is read from its source and written at its
destination, in the scratchpad as a store of its bytes; a copy with nothing left sends its last event and one with a fault its
failure, and both leave their thread's counter. -/
theorem copiesMoveTheirBytes : Obligations.CopiesMoveTheirBytes := by
  refine ⟨fun x => does_of_exec_runTeam (exec_cpy · x) ?cpy, ?cpyt, ?piece,
    fun _ _ k o bs h hwf => pieceWrite_spad h hwf k o bs, ?retire, ?counter⟩
  case cpy =>
    rintro s th ⟨hslot, hpos, hmax, hdst, hsrc, hroom⟩
    have hlen : ¬ ((decide ((s.raw32 th x.toOps4 x.c).toNat < 1) || decide (2 ^ 26 < (s.raw32 th x.toOps4 x.c).toNat)) = true) := by
      simp only [Bool.or_eq_true, decide_eq_true_eq]
      omega
    simp only [hslot, hdst, hsrc, if_neg hlen]
    exact issueCopy_of_room hroom ..
  case cpyt =>
    intro x s s2 th r h hslot a o c halign hcan hspad hdesc hstk hread hshape hsub hin himg hfit hown hroom
    have ho : (a - s2.img.spBase).toNat = o := by rw [himg]
    rw [← ho] at hfit hown ⊢
    exact ⟨_, cpyt_issues h hslot halign hcan hspad hdesc hstk hread (cpytRecord_issues hshape hsub hin hfit hown hroom ..)⟩
  case piece =>
    intro s s1 s2 g c dst src k o n r bs hcmd hkind hfault htag hbefore hpiece hconf hsrc hdst hread hwrite
    exact copy_moves_piece hcmd hkind hfault htag hbefore hpiece hconf hsrc hdst hread hwrite
  case retire =>
    intro s g c dst src k hcmd hkind
    exact ⟨copy_retires hcmd hkind, unfinished_copy_stays hcmd hkind, fun _ _ => copy_faults hcmd hkind⟩
  case counter =>
    intro s g c th h
    exact ⟨_, thread?_retireCopy h g, rfl, rfl, retireCopy_mem s g c⟩

end Sys2Proof.Machine
end

section
/-! SUPPORT. Ownership of scratchpad blocks (11 R262 to R264) and tile queues (R266 to R269). -/

namespace Sys2Proof.Machine

/-! ### Lists of parts -/

theorem filterMap_eq_of_forall_mem {α β : Type} {f g : α → Option β} {l : List α} (h : ∀ a ∈ l, f a = g a) :
    l.filterMap f = l.filterMap g := by
  have hid := congrArg (List.filterMap id) (List.map_congr_left h)
  rw [List.filterMap_map, List.filterMap_map] at hid
  exact hid

theorem eq_of_nodup_map {α : Type} {key : α → Nat} {l : List α} (h : (l.map key).Nodup) {x y : α} (hx : x ∈ l) (hy : y ∈ l)
    (hxy : key x = key y) : x = y :=
  have hne := List.pairwise_map.mp h
  List.Pairwise.forall_of_forall_of_flip (R := fun x y => key x = key y → x = y) (fun _ _ _ => rfl)
    (hne.imp fun hn e => absurd e hn) (hne.imp fun hn e => absurd e.symm hn) hx hy hxy

/-! ### Block numbers in rising lists -/

theorem mem_insertNat {n b : Nat} {l : List Nat} : b ∈ insertNat n l ↔ b = n ∨ b ∈ l := by
  induction l with
  | nil => simp [insertNat]
  | cons x xs ih =>
    rw [insertNat]
    split
    · exact List.mem_cons
    · split
      next hx => simp [eq_of_beq hx]
      next => simp [ih, or_left_comm]

theorem mem_foldl_insertNat {b : Nat} {bs e : List Nat} : b ∈ bs.foldl (fun e b => insertNat b e) e ↔ b ∈ e ∨ b ∈ bs := by
  induction bs generalizing e with
  | nil => simp
  | cons n bs ih => simp [ih, mem_insertNat, or_comm, or_assoc, or_left_comm]

/-! ### Commands of a group -/

/-- The command that a member waiting for its gang is (13 R302), as cmdsWhere counts it. -/
def Thread.waitingCmd (g : Group) (x : Thread) : Option Cmd :=
  let h := g.hitched.getD { w := 0, dp := 0 }
  match x.hold with
  | .mma block slot => some
      { id := x.holdSeq, thread := x.id, pc := x.pc, words := x.holdWords, slot := slot
        kind := .grid 0 block (2 ^ h.dp) (g.idx % 2 ^ h.w) (g.idx / 2 ^ h.w) }
  | _ => none

theorem cmdsWhere_eq {s : State} {gid : Nat} {g : Group} (h : s.group? gid = some g) (p : Cmd → Bool) :
    s.cmdsWhere gid p = ((g.cmds ++ (s.live gid).filterMap (Thread.waitingCmd g)).filter p).map (·.id) := by
  rw [State.cmdsWhere, h] <;> rfl

theorem mem_cmdsWhere {s : State} {gid : Nat} {g : Group} {c : Cmd} {p : Cmd → Bool} (h : s.group? gid = some g) (hc : c ∈ g.cmds)
    (hp : p c = true) : c.id ∈ s.cmdsWhere gid p := by
  rw [cmdsWhere_eq h]
  exact List.mem_map_of_mem (List.mem_filter.mpr ⟨List.mem_append_left _ hc, hp⟩)

theorem mem_threads_of_mem_live {s : State} {gid : Nat} {x : Thread} (h : x ∈ s.live gid) : x ∈ s.threads :=
  (List.mem_filter.mp h).1

theorem live_modThread {f : Thread → Thread} (hu : ∀ x, (f x).unit = x.unit) (hg : ∀ x, (f x).group = x.group)
    (he : ∀ x, (f x).exited = x.exited) (s : State) (t gid : Nat) :
    (s.modThread t f).live gid = (s.live gid).map fun x => if x.id == t then f x else x := by
  simp only [State.live, State.modThread, List.filter_map]
  congr 2
  funext x
  by_cases hx : x.id = t <;> simp [hx, hu, hg, he]

theorem retired_nil (s : State) (gid : Nat) : s.retired gid [] = true := by
  unfold State.retired State.cmdsWhere
  split <;> simp

/-! ### TAKE (11 R264) -/

/-- The group whose blocks a TAKE has made thread-owned. -/
def Group.flipped (g : Group) (bs : List Nat) : Group :=
  { g with engine := g.engine.filter fun b => !bs.contains b, taking := g.taking.filter fun b => !bs.contains b }

theorem group?_takeFlip {s : State} {gid : Nat} {g : Group} (h : s.group? gid = some g) (bs : List Nat) :
    (s.takeFlip gid bs).group? gid = some (g.flipped bs) :=
  group?_modGroup_self _ (fun _ => rfl) h

theorem mem_flipped_engine {g : Group} {bs : List Nat} {b : Nat} : b ∈ (g.flipped bs).engine ↔ b ∈ g.engine ∧ b ∉ bs := by
  simp [Group.flipped]

theorem takeOne_flips {s : State} {th : Thread} {g : Group} {bs : List Nat} (hg : s.group? th.group = some g)
    (hc : s.cmdsWhere th.group (Cmd.inBlocks s.img.spBase (bs.filter g.engine.contains)) = [])
    (ho : s.otherTakes th.group ((bs.filter g.engine.contains).filter g.taking.contains) = []) (i : Instr) :
    takeOne i bs s th = .done (s.takeFlip th.group ((bs.filter g.engine.contains).filter fun b => !g.taking.contains b)) := by
  simp only [takeOne, hg, hc, ho, List.append_nil, List.isEmpty_nil, if_true]

theorem takeOne_waits {s : State} {th : Thread} {g : Group} {bs : List Nat} (hg : s.group? th.group = some g)
    (hw : s.cmdsWhere th.group (Cmd.inBlocks s.img.spBase (bs.filter g.engine.contains)) ≠ []
      ∨ s.otherTakes th.group ((bs.filter g.engine.contains).filter g.taking.contains) ≠ []) (i : Instr) :
    let named := bs.filter g.engine.contains
    let mine := named.filter fun b => !g.taking.contains b
    takeOne i bs s th = .stall ((s.modGroup th.group fun g =>
      { g with taking := mine.foldl (fun e b => insertNat b e) g.taking }).holdAt th.id i
        (.take mine (s.cmdsWhere th.group (Cmd.inBlocks s.img.spBase named)
          ++ s.otherTakes th.group (named.filter g.taking.contains)))) := by
  have hne : ¬ ((s.cmdsWhere th.group (Cmd.inBlocks s.img.spBase (bs.filter g.engine.contains))
      ++ s.otherTakes th.group ((bs.filter g.engine.contains).filter g.taking.contains)).isEmpty = true) := by
    rw [List.isEmpty_iff, List.append_eq_nil_iff]
    exact fun ⟨hc, ho⟩ => hw.elim (· hc) (· ho)
  simp only [takeOne, hg, if_neg hne]

/-! ### TAKE_DONE (11 R264) -/

/-- A member that waits in TAKE returns when its commands have retired: TAKE_DONE for one member. -/
def State.takeReturn (gid : Nat) (s : State) (x : Thread) : State :=
  match x.hold with
  | .take bs cmds => if s.retired gid cmds then (s.takeFlip gid bs).modThread x.id Thread.release else s
  | _ => s

theorem exec_takeDone_eq {s : State} {th : Thread} {bs cmds : List Nat} (ht : s.thread? s.arg.t = some th)
    (hh : th.hold = .take bs cmds) :
    exec .takeDone s = .next (if s.retired th.group cmds then (s.live th.group).foldl (State.takeReturn th.group) s else s) := by
  simp only [exec_takeDone, execTakeDone, ht, hh]
  rfl

theorem takeReturn_cases (gid : Nat) (s : State) (x : Thread) :
    s.takeReturn gid x = s ∨ ∃ bs cmds, x.hold = .take bs cmds ∧ s.retired gid cmds = true
      ∧ s.takeReturn gid x = (s.takeFlip gid bs).modThread x.id Thread.release := by
  unfold State.takeReturn
  split
  next bs cmds hh =>
    by_cases hr : s.retired gid cmds = true
    · exact .inr ⟨bs, cmds, hh, hr, if_pos hr⟩
    · exact .inl (if_neg hr)
  next => exact .inl rfl

/-- Members that do not wait for their gang may return from TAKE: the commands of the group stay. -/
theorem retired_release {s : State} {gid t : Nat} {g : Group} (hg : s.group? gid = some g)
    (ht : ∀ y ∈ s.threads, y.id = t → y.waitingCmd g = none) (bs cmds : List Nat) :
    ((s.takeFlip gid bs).modThread t Thread.release).retired gid cmds = s.retired gid cmds := by
  have hlive : ((s.takeFlip gid bs).modThread t Thread.release).live gid
      = (s.live gid).map fun x => if x.id == t then x.release else x :=
    live_modThread (f := Thread.release) (fun _ => rfl) (fun _ => rfl) (fun _ => rfl) (s.takeFlip gid bs) t gid
  have hwait : ((s.live gid).map fun x => if x.id == t then x.release else x).filterMap (Thread.waitingCmd (g.flipped bs))
      = (s.live gid).filterMap (Thread.waitingCmd g) := by
    rw [List.filterMap_map]
    refine filterMap_eq_of_forall_mem fun y hy => ?_
    by_cases hyt : y.id = t
    · simp only [Function.comp_apply, hyt, beq_self_eq_true, if_true, ht y (mem_threads_of_mem_live hy) hyt]
      rfl
    · simp [hyt, Thread.waitingCmd, Group.flipped]
  rw [State.retired, State.retired, cmdsWhere_eq hg,
    cmdsWhere_eq (s := (s.takeFlip gid bs).modThread t Thread.release) (group?_takeFlip hg bs), hlive, hwait]
  rfl

/-- What every return from TAKE of a group keeps, counted from the state s: commands and memory stay, and a block leaves the engine
only by a TAKE that waited for commands that have retired. -/
structure TakesReturned (s : State) (gid : Nat) (g : Group) (acc : State) : Prop where
  mem : acc.mem = s.mem
  retired : ∀ cmds, acc.retired gid cmds = s.retired gid cmds
  threads : ∀ y ∈ acc.threads, y ∈ s.threads ∨ y.hold = .none
  group : ∃ g2, acc.group? gid = some g2 ∧ g2.cmds = g.cmds ∧ g2.engine ⊆ g.engine
    ∧ ∀ b ∈ g.engine, b ∉ g2.engine →
      ∃ x ∈ s.live gid, ∃ bx cx, x.hold = .take bx cx ∧ s.retired gid cx = true ∧ b ∈ bx

theorem takesReturned_self {s : State} {gid : Nat} {g : Group} (hg : s.group? gid = some g) : TakesReturned s gid g s :=
  ⟨rfl, fun _ => rfl, fun _ hy => .inl hy, g, hg, rfl, fun _ hb => hb, fun _ hb hn => absurd hb hn⟩

section
variable {s acc : State} {gid : Nat} {g : Group}

theorem TakesReturned.takeReturn (h : TakesReturned s gid g acc) (hnd : (s.threads.map Thread.id).Nodup) {x : Thread}
    (hx : x ∈ s.live gid) : TakesReturned s gid g (acc.takeReturn gid x) := by
  obtain heq | ⟨bs, cmds, hhold, hret, heq⟩ := takeReturn_cases gid acc x
  · rwa [heq]
  · obtain ⟨hmem, hretired, hthreads, g2, hg2, hcmds, hsub, hwhy⟩ := h
    have hwait : ∀ y ∈ acc.threads, y.id = x.id → y.waitingCmd g2 = none := by
      intro y hy hyx
      obtain hys | hnone := hthreads y hy
      · rw [eq_of_nodup_map hnd hys (mem_threads_of_mem_live hx) hyx]
        simp [Thread.waitingCmd, hhold]
      · simp [Thread.waitingCmd, hnone]
    rw [heq]
    refine ⟨hmem, fun cs => (retired_release hg2 hwait bs cs).trans (hretired cs), fun y hy => ?_,
      g2.flipped bs, group?_takeFlip hg2 bs, hcmds, fun b hb => hsub (mem_flipped_engine.mp hb).1, fun b hb hn => ?_⟩
    · obtain ⟨z, hz, rfl⟩ := List.mem_map.mp hy
      split
      · exact .inr rfl
      · exact hthreads z hz
    · by_cases hb2 : b ∈ g2.engine
      · have hbs : b ∈ bs := Classical.byContradiction fun hbs => hn (mem_flipped_engine.mpr ⟨hb2, hbs⟩)
        exact ⟨x, hx, bs, cmds, hhold, (hretired cmds).symm.trans hret, hbs⟩
      · exact hwhy b hb hb2

theorem TakesReturned.foldl (h : TakesReturned s gid g acc) (hnd : (s.threads.map Thread.id).Nodup) {l : List Thread}
    (hl : ∀ x ∈ l, x ∈ s.live gid) : TakesReturned s gid g (l.foldl (State.takeReturn gid) acc) :=
  List.foldlRecOn l _ h fun _ hacc x hx => hacc.takeReturn hnd (hl x hx)

theorem thread?_foldl_takeReturn {l : List Thread} {u : Nat} (hl : ∀ x ∈ l, x.id ≠ u) (gid : Nat) (s : State) :
    (l.foldl (State.takeReturn gid) s).thread? u = s.thread? u := by
  refine List.foldlRecOn (motive := fun acc : State => acc.thread? u = s.thread? u) l _ rfl fun acc hacc x hx => ?_
  obtain heq | ⟨bs, cmds, -, -, heq⟩ := takeReturn_cases gid acc x
  · rw [heq, hacc]
  · rw [heq, thread?_modThread_ne Thread.release (fun _ => rfl) (hl x hx).symm]
    exact hacc

theorem engine_foldl_takeReturn (hg : s.group? gid = some g) (l : List Thread) :
    ∃ g2, (l.foldl (State.takeReturn gid) s).group? gid = some g2 ∧ g2.engine ⊆ g.engine := by
  refine List.foldlRecOn (motive := fun acc : State => ∃ g2, acc.group? gid = some g2 ∧ g2.engine ⊆ g.engine) l _
    ⟨g, hg, fun _ hb => hb⟩ fun acc hacc x _ => ?_
  obtain ⟨g2, hg2, hsub⟩ := hacc
  obtain heq | ⟨bs, cmds, -, -, heq⟩ := takeReturn_cases gid acc x
  · exact ⟨g2, by rw [heq, hg2], hsub⟩
  · rw [heq]
    exact ⟨g2.flipped bs, group?_takeFlip hg2 bs, fun b hb => hsub (mem_flipped_engine.mp hb).1⟩

section
variable {th : Thread} {bs cmds : List Nat} (hh : th.hold = .take bs cmds)
include hh

/-- A member's own return, among those of members before and after it: it goes on, and its blocks are not engine-owned. -/
theorem foldl_takeReturn_own {l1 l2 : List Thread} (h1 : ∀ x ∈ l1, x.id ≠ th.id) (h2 : ∀ x ∈ l2, x.id ≠ th.id)
    (ht : s.thread? th.id = some th) (hg : s.group? gid = some g) (hr : (l1.foldl (State.takeReturn gid) s).retired gid cmds = true) :
    ((l1 ++ th :: l2).foldl (State.takeReturn gid) s).thread? th.id = some th.release
      ∧ ∃ g2, ((l1 ++ th :: l2).foldl (State.takeReturn gid) s).group? gid = some g2 ∧ ∀ b ∈ g2.engine, b ∉ bs := by
  rw [List.foldl_append, List.foldl_cons]
  obtain ⟨g1, hg1, -⟩ := engine_foldl_takeReturn hg l1
  have ht1 := (thread?_foldl_takeReturn h1 gid s).trans ht
  generalize l1.foldl (State.takeReturn gid) s = acc at hr hg1 ht1 ⊢
  have hown : acc.takeReturn gid th = (acc.takeFlip gid bs).modThread th.id Thread.release := by
    simp only [State.takeReturn, hh, hr, if_true]
  have hflip : (acc.takeReturn gid th).group? gid = some (g1.flipped bs) := by
    rw [hown]
    exact group?_takeFlip hg1 bs
  obtain ⟨g2, hg2, hsub⟩ := engine_foldl_takeReturn hflip l2
  refine ⟨?_, g2, hg2, fun b hb => (mem_flipped_engine.mp (hsub hb)).2⟩
  rw [thread?_foldl_takeReturn h2, hown]
  exact thread?_modThread_self Thread.release (fun _ => rfl) ht1

theorem takeDone_returns (ht : s.thread? s.arg.t = some th) (hnd : (s.threads.map Thread.id).Nodup) (hl : th ∈ s.live th.group)
    (hg : s.group? th.group = some g) (hr : s.retired th.group cmds = true) :
    ∃ t th2 g2, exec .takeDone s = .next t ∧ t.thread? th.id = some th2 ∧ th2 = th.release ∧ t.group? th.group = some g2
      ∧ (∀ b ∈ g2.engine, b ∈ g.engine ∧ b ∉ bs)
      ∧ (∀ b ∈ g.engine, b ∉ g2.engine → ∃ x ∈ s.live th.group, ∃ bx cx, x.hold = .take bx cx
        ∧ s.retired th.group cx = true ∧ b ∈ bx)
      ∧ g2.cmds = g.cmds ∧ t.mem = s.mem := by
  obtain ⟨l1, l2, hsplit⟩ := List.append_of_mem hl
  have hids : ((s.live th.group).map Thread.id).Nodup := hnd.sublist (List.filter_sublist.map _)
  simp only [hsplit, List.map_append, List.map_cons, List.nodup_append, List.nodup_cons] at hids
  obtain ⟨-, ⟨hafter, -⟩, hbefore⟩ := hids
  have h1 : ∀ x ∈ l1, x.id ≠ th.id := fun x hx => hbefore _ (List.mem_map_of_mem hx) _ (List.mem_cons_self ..)
  have h2 : ∀ x ∈ l2, x.id ≠ th.id := fun x hx e => hafter (e ▸ List.mem_map_of_mem hx)
  have hfirst : TakesReturned s th.group g (l1.foldl (State.takeReturn th.group) s) :=
    (takesReturned_self hg).foldl hnd fun x hx => hsplit ▸ List.mem_append_left _ hx
  obtain ⟨hmem, -, -, g2, hg2, hcmds, hsub, hwhy⟩ := (takesReturned_self hg).foldl hnd (l := s.live th.group) fun _ hx => hx
  obtain ⟨hth, g3, hg3, hfree⟩ := hsplit ▸
    foldl_takeReturn_own hh h1 h2 (thread?_id ht ▸ ht) hg ((hfirst.retired cmds).trans hr)
  obtain rfl : g2 = g3 := Option.some.inj (hg2.symm.trans hg3)
  exact ⟨_, th.release, g2, (exec_takeDone_eq ht hh).trans (congrArg _ (if_pos hr)), hth, rfl, hg2,
    fun b hb => ⟨hsub hb, hfree b hb⟩, hwhy, hcmds, hmem⟩

end

end

/-! ### Tile queues (11 R266 to R269) -/

theorem queueAt_eq {s : State} {gid q : Nat} {g : Group} {t : TQueue} (hg : s.group? gid = some g) (hq : g.queues[q]? = some t) :
    s.queueAt gid q = t := by
  simp [State.queueAt, hg, hq]

theorem ownerTrap_eq_none_iff {s : State} {th : Thread} {g : Group} (hg : s.group? th.group = some g) (o n : Nat) (e : Bool) :
    s.ownerTrap th o n e = none ↔ g.ownerBad o n e = none := by
  rw [State.ownerTrap, hg]
  cases hb : g.ownerBad o n e <;> simp [hb]

/-- A push on an empty queue stores its value at the head. -/
theorem pushNow_of_empty {s : State} {th : Thread} {g : Group} {q : Nat} {t : TQueue} (hg : s.group? th.group = some g)
    (hq : g.queues[q]? = some t) (hhead : t.head < t.cap) (hcount : t.count = 0)
    (hown : s.ownerTrap th (t.ring + 8 * t.head) 8 false = none) (v : Dword) :
    ∃ s2 ds, s.pushNow th q v = (s2, none)
      ∧ s2.group? th.group = some { g with
          kdeps := ds, spad := g.spad.store (t.ring + 8 * t.head) (toBytes 8 v.toNat)
          queues := g.queues.modify q fun t => { t with count := t.count + 1 } } := by
  obtain ⟨ds, hleave⟩ := group?_leave th (320 + q) hg
  refine ⟨_, ds, ?_, group?_modGroup_self (fun g => { g with queues := g.queues.modify q fun t => { t with count := t.count + 1 } })
    (fun _ => rfl) (group?_modGroup_self (fun g => { g with spad := g.spad.store (t.ring + 8 * t.head) (toBytes 8 v.toNat) })
      (fun _ => rfl) hleave)⟩
  have htail : t.ring + 8 * ((t.head + t.count) % t.cap) = t.ring + 8 * t.head := by
    rw [hcount, Nat.add_zero, Nat.mod_eq_of_lt hhead]
  simp only [State.pushNow, queueAt_eq hg hq, htail, hown] <;> rfl

/-- A pop delivers the value that the ring holds at the head. -/
theorem popNow_of_owned {s : State} {th : Thread} {g : Group} {q : Nat} {t : TQueue} (hg : s.group? th.group = some g)
    (hq : g.queues[q]? = some t) (hown : g.ownerBad (t.ring + 8 * t.head) 8 false = none) (d : Opnd) :
    s.popNow th q d = (((s.meet th (320 + q)).modQueue th.group q fun t =>
      { t with head := (t.head + 1) % t.cap, count := t.count - 1 }).result th.id d 64
        (BitVec.ofNat 128 (ofBytes (g.spad.load (t.ring + 8 * t.head) 8))), none) := by
  simp only [State.popNow, queueAt_eq hg hq, (ownerTrap_eq_none_iff hg ..).mpr hown, hg, Option.map_some, Option.getD_some]

theorem ofBytes_load_store_toBytes {m : Memory} (h : m.wf = true) (a : Nat) (v : Dword) :
    ofBytes ((m.store a (toBytes 8 v.toNat)).load a 8) = v.toNat := by
  have hload := Memory.load_store h a (toBytes 8 v.toNat)
  rw [length_toBytes] at hload
  rw [hload, ofBytes_toBytes]
  exact Nat.mod_eq_of_lt v.isLt

/-- A value pushed into an empty queue is the next popped. -/
theorem pop_of_push_empty {s : State} {th : Thread} {g : Group} {q : Nat} {t : TQueue} (hg : s.group? th.group = some g)
    (hq : g.queues[q]? = some t) (hhead : t.head < t.cap) (hcount : t.count = 0) (hwf : g.spad.wf = true)
    (hown : s.ownerTrap th (t.ring + 8 * t.head) 8 false = none) (v : Dword) (d : Opnd) :
    ∃ s2, s.pushNow th q v = (s2, none) ∧ (s2.queueAt th.group q).count = 1 ∧ (s2.popNow th q d).2 = none
      ∧ (s2.popNow th q d).1 = ((s2.meet th (320 + q)).modQueue th.group q fun t =>
          { t with head := (t.head + 1) % t.cap, count := t.count - 1 }).result th.id d 64 (v.setWidth 128) := by
  obtain ⟨s2, ds, hpush, hg2⟩ := pushNow_of_empty hg hq hhead hcount hown v
  have hq2 : (g.queues.modify q fun t => { t with count := t.count + 1 })[q]? = some { t with count := t.count + 1 } := by
    simp [hq]
  have hpop := popNow_of_owned hg2 hq2 ((ownerTrap_eq_none_iff hg ..).mp hown) d
  rw [ofBytes_load_store_toBytes hwf, BitVec.ofNat_toNat] at hpop
  refine ⟨s2, hpush, ?_, ?_, ?_⟩
  · rw [queueAt_eq hg2 hq2]
    exact congrArg (· + 1) hcount
  · rw [hpop]
  · rw [hpop]

/-- The end of a wait whose push or pop takes place (R268). -/
theorem queueWaitServed_releases {s s2 : State} {th : Thread} (hn : s.nextServed s.arg.g s.arg.n = some th) :
    (∀ n v, th.hold = .qpush n v → s.pushNow th s.arg.n v = (s2, none) →
      exec .queueWaitServed s = .next (s2.modThread th.id fun y => y.release))
    ∧ (∀ n d, th.hold = .qpop n d → s.popNow th s.arg.n d = (s2, none) →
      exec .queueWaitServed s = .next (s2.modThread th.id fun y => y.release)) :=
  ⟨fun _ _ hh hnow => by simp only [exec_queueWaitServed, execQueueWaitServed, hn, hh, hnow],
    fun _ _ hh hnow => by simp only [exec_queueWaitServed, execQueueWaitServed, hn, hh, hnow]⟩

/-- Settles O48: GIVE, TAKE, QINIT and the queue instructions are each one issue whose checks pass; the blocks and commands of a TAKE
are lists of the group; TAKE_DONE is a fold over the members, in which only TAKEs of retired commands flip blocks; and what a push
stores at the head of an empty ring is what the next pop loads. -/
theorem blocksAndTileQueues : Obligations.BlocksAndTileQueues := by
  refine ⟨fun x bs => does_of_exec_runTeam (exec_give · x) ?give, fun x bs g => does_of_exec_runTeam (exec_take · x) ?takes,
    fun x bs g => holds_of_exec_runTeam (exec_take · x) ?takeWaits, fun x => does_of_exec_runTeam (exec_take · x) ?windows,
    fun x => holds_of_exec_runTeam (exec_take · x) ?windowsWait, fun _ _ _ _ _ hg hc hp => mem_cmdsWhere hg hc hp,
    fun s gid g bs hg => ⟨_, group?_takeFlip hg bs, fun _ => mem_flipped_engine⟩,
    fun s gid e bs => ⟨fun _ => mem_foldl_insertNat, retired_nil s gid⟩,
    fun s th g bs cmds ht hh hnd hl hg => ⟨fun hr => ?takeDoneWaits, takeDone_returns hh ht hnd hl hg⟩,
    fun x => does_of_exec_runTeam (exec_qinit · x) ?qinit,
    fun x s s2 th h hinit hrel hheld => ⟨fun hw hnow => ?push, fun hw => ?pushWaits⟩,
    fun x s s2 th h hinit => ⟨fun hw hheld hrel hnow => ?tryPush, fun hw => ?tryPushFails⟩,
    fun x s s2 th h hinit hwr hheld => ⟨fun hw hnow => ?pop, fun hw => ?popWaits⟩,
    fun x s s2 th h hinit hwr hheld => ⟨fun hw hnow => ?tryPop, fun hw => ?tryPopFails⟩,
    fun _ _ _ _ _ v d hg hq _ hhead hcount hwf hown => pop_of_push_empty hg hq hhead hcount hwf hown v d,
    fun _ _ _ hn => queueWaitServed_releases hn, ?serveFirst, ?servePush,
    fun x => holds_of_exec_runTeam (exec_qpop · x) ?popHeld, fun x => holds_of_exec_runTeam (exec_qpush · x) ?pushHeld⟩
  case give =>
    rintro s th ⟨hbs, hrel⟩
    simp only [hbs, State.afterRelease, hrel, if_true]
  case takes =>
    rintro s th ⟨hblocks, hbs, hg, hc, ho⟩
    simp only [hblocks, hbs, Bool.false_eq_true, if_false]
    exact takeOne_flips hg hc ho _
  case takeWaits =>
    rintro s th ⟨hblocks, hbs, hg, hw⟩
    simp only [hblocks, hbs, Bool.false_eq_true, if_false]
    exact takeOne_waits hg hw _
  case windows =>
    rintro s th ⟨hwin, hc⟩
    simp only [hwin, hc, List.isEmpty_nil, if_true]
  case windowsWait =>
    rintro s th ⟨hwin, hc⟩
    simp only [hwin, List.isEmpty_iff, if_neg hc, if_true]
  case takeDoneWaits =>
    rw [exec_takeDone_eq ht hh, hr]
    rfl
  case qinit =>
    rintro s th ⟨halign, hcan, hspad, hpos, hmax, hfit, hown⟩
    simp [-BitVec.toNat_sub, halign, hcan, hspad, hown, Nat.not_lt.mpr hfit, Nat.not_lt.mpr hmax, Nat.one_le_iff_ne_zero.mp hpos]
  case push =>
    refine (exec_qpush s x).trans (runTeam_alone_of_done h ?_)
    simp [hinit, hheld, hw, State.afterRelease, hrel, hnow, queueRes]
  case pushWaits =>
    refine (exec_qpush s x).trans (runTeam_alone_of_stall h ?_)
    simp [hinit, hheld, hw, State.afterRelease, hrel]
  case tryPush =>
    refine (exec_qtryPush s x).trans (runTeam_alone_of_done h ?_)
    simp [hinit, hheld, hw, State.afterRelease, hrel, hnow, queueRes]
  case tryPushFails =>
    refine (exec_qtryPush s x).trans (runTeam_alone_of_done h ?_)
    simp [hinit, hw]
  case pop =>
    refine (exec_qpop s x).trans (runTeam_alone_of_done h ?_)
    simp [hinit, hwr, hheld, hw, hnow, queueRes]
  case popWaits =>
    refine (exec_qpop s x).trans (runTeam_alone_of_stall h ?_)
    simp [hinit, hwr, hheld, hw]
  case tryPop =>
    refine (exec_qtryPop s x).trans (runTeam_alone_of_done h ?_)
    simp [hinit, hwr, hheld, hw, hnow, queueRes]
  case tryPopFails =>
    refine (exec_qtryPop s x).trans (runTeam_alone_of_done h ?_)
    simp [hinit, hwr, hheld, hw]
  case serveFirst =>
    intro s gid n a b hinit hpush hpop hsome hroom
    simp [State.nextServed, hinit, hpush, hpop, hsome, hroom]
  case servePush =>
    intro s gid n a hinit hpush hempty hcap
    simp [State.nextServed, hinit, hpush, hempty, hcap]
  case popHeld =>
    rintro s th ⟨hinit, hw⟩
    simp [hinit, hw]
  case pushHeld =>
    rintro s th ⟨hinit, hw⟩
    obtain hw | hw := hw <;> simp [hinit, hw, State.afterRelease]

end Sys2Proof.Machine
end

section
/-! SUPPORT. Harnessed lanes: HITCH and UNHITCH (12 R284, R285), and the B store with BLOAD and BSWAP (12 R278 to R281, R286 to
R288). -/

namespace Sys2Proof.Machine

/-! ### HITCH (12 R284) -/

/-- A HITCH of a member of the group g raises HARNESS. -/
def State.hitchRefused (s : State) (x : Desc) (g : Group) : Bool :=
  s.gangSize g != 2 ^ (x.fld 0 3).toNat * 2 ^ (x.fld 4 2).toNat || g.hdr.accwin == 0 || g.hdr.awin == 0 || g.hitched.isSome
    || (s.hitchWaiter g.id).isSome || s.gangBroken g

theorem hitchRefused_iff {s : State} {x : Desc} {g : Group} :
    s.hitchRefused x g = true ↔ s.gangSize g ≠ 2 ^ (x.fld 0 3).toNat * 2 ^ (x.fld 4 2).toNat ∨ g.hdr.accwin = 0 ∨ g.hdr.awin = 0
      ∨ g.hitched ≠ none ∨ s.hitchWaiter g.id ≠ none ∨ s.gangBroken g = true := by
  simp [State.hitchRefused, or_assoc, Option.isSome_iff_ne_none]

section
variable {x : Desc} {s : State} {th : Thread} {g : Group} (h : Alone (.hitch x) s th) (hg : s.group? th.group = some g)
include h hg

theorem hitch_waits (hok : s.hitchRefused x g = false) (hrel : s.released th 2 0 = true) :
    exec (.hitch x) s = .next (((s.holdAt th.id (.hitch x) (.hitch (x.fld 0 3).toNat (x.fld 4 2).toNat)).tryHitch g.gang).stay
      th (.hitch x)) := by
  rw [State.hitchRefused] at hok
  simp only [exec_hitch, execHitch, runTeam_alone _ h, hg, hok, State.afterRelease, hrel, if_true, Bool.false_eq_true, if_false]
  rfl

theorem hitch_traps (hbad : s.hitchRefused x g = true) : TrapsTo (.hitch x) s th .harness 0 0 := by
  rw [State.hitchRefused] at hbad
  simp only [TrapsTo, exec_hitch, execHitch, runTeam_alone _ h, hg, hbad, if_true]

end

/-- While some group of the gang has no waiter, none of them is hitched. -/
theorem tryHitch_of_missing {s : State} {gang : Nat} (h : ∃ g ∈ s.gangGroups gang, s.hitchWaiter g.id = none) :
    s.tryHitch gang = s := by
  unfold State.tryHitch
  dsimp only
  split
  next =>
    refine if_pos (Bool.or_eq_true_iff.mpr (.inl (bne_iff_ne.mpr (Nat.ne_of_lt ?_))))
    obtain ⟨g, hg, hnone⟩ := h
    exact List.length_filterMap_lt_length_iff_exists.mpr ⟨g, hg, by rw [hnone, Option.bind_none]⟩
  next => rfl

/-- A gang of one group is hitched by its own waiter. -/
theorem tryHitch_of_single {s : State} {g : Group} {th : Thread} {gang w dp : Nat} (hgs : s.gangGroups gang = [g])
    (hsize : s.gangSize g = 1) (hw : s.hitchWaiter g.id = some th) (hh : th.hold = .hitch w dp) :
    s.tryHitch gang = (s.modThread th.id Thread.release).modGroup g.id fun y =>
      { y with hitched := some { w := w, dp := dp }, frames := [] } := by
  simp [State.tryHitch, hgs, hsize, hw, hh]

/-! ### UNHITCH (12 R285) -/

/-- A member that waits in UNHITCH goes on: UNHITCH_COMPLETE for one member. -/
def State.unhitchReturn (s : State) (x : Thread) : State := if x.hold == .unhitch then s.modThread x.id Thread.release else s

theorem unhitchReturn_groups (s : State) (x : Thread) : (s.unhitchReturn x).groups = s.groups := by
  unfold State.unhitchReturn
  split <;> rfl

theorem unhitchReturn_mem (s : State) (x : Thread) : (s.unhitchReturn x).mem = s.mem := by
  unfold State.unhitchReturn
  split <;> rfl

theorem foldl_unhitchReturn_groups (l : List Thread) (s : State) : (l.foldl State.unhitchReturn s).groups = s.groups :=
  List.foldlRecOn (motive := fun acc : State => acc.groups = s.groups) l _ rfl
    fun acc hacc x _ => (unhitchReturn_groups acc x).trans hacc

theorem foldl_unhitchReturn_mem (l : List Thread) (s : State) : (l.foldl State.unhitchReturn s).mem = s.mem :=
  List.foldlRecOn (motive := fun acc : State => acc.mem = s.mem) l _ rfl fun acc hacc x _ => (unhitchReturn_mem acc x).trans hacc

theorem group?_of_groups_eq {s t : State} (h : t.groups = s.groups) (gid : Nat) : t.group? gid = s.group? gid := by
  rw [State.group?, State.group?, h]

/-- A gang of one group whose UNHITCH waits unhitches once no command of its own is left. -/
theorem exec_unhitchComplete_of_single {s : State} {g : Group} (hg : s.group? s.arg.g = some g) (hhit : g.hitched ≠ none)
    (hgs : s.gangGroups g.gang = [g]) (hwait : s.unhitchPending g.id = true) (hcmds : g.cmds = [])
    (hmma : ∀ th ∈ s.live g.id, ∀ b q, th.hold ≠ .mma b q) :
    exec .unhitchComplete s = .next ((s.live g.id).foldl State.unhitchReturn
      (s.modGroup g.id fun z => { z with hitched := none, frames := [] })) := by
  have hidle : ((s.live g.id).any fun x => x.hold.isMma) = false := by
    refine List.any_eq_false.mpr fun x hx => ?_
    cases hh : x.hold
    case mma b q => exact absurd hh (hmma x hx b q)
    all_goals simp [Hold.isMma]
  have hall : (g.hitched.isSome && [g].all fun y => (s.finished y || s.unhitchPending y.id) && !(y.cmds.any Cmd.tile)
      && !((s.live y.id).any fun x => x.hold.isMma)) = true := by
    simp [Option.isSome_iff_ne_none.mpr hhit, hwait, hcmds, hidle]
  simp only [exec_unhitchComplete, execUnhitchComplete, hg, hgs, hall, if_true]
  rfl

/-! ### The B store (12 R278 to R281, R286 to R288) -/

/-- A frame that is set takes the place of the one with its index. -/
theorem find?_setFrame (g : Group) (y : Frame) (f : Nat) :
    (g.setFrame y).frames.find? (fun x => x.index == f)
      = if f = y.index then some y else g.frames.find? fun x => x.index == f := by
  unfold Group.setFrame
  dsimp only
  split
  next hany =>
    rw [find?_map_key Frame.index f _ fun x => by split <;> simp_all]
    cases hfind : g.frames.find? fun x => x.index == f with
    | none =>
      have hne : f ≠ y.index := by
        rintro rfl
        obtain ⟨z, hz, he⟩ := List.any_eq_true.mp hany
        exact List.find?_eq_none.mp hfind z hz he
      rw [if_neg hne, Option.map_none]
    | some z =>
      have hz : z.index = f := by simpa using List.find?_some hfind
      by_cases hf : f = y.index <;> simp [hz, hf]
  next hnone =>
    rw [List.find?_append]
    by_cases hf : f = y.index
    · subst hf
      have hfind : (g.frames.find? fun x => x.index == y.index) = none := by simpa using hnone
      simp [hfind]
    · simp [hf, Ne.symm hf]

theorem frameAt_setFrame_self (g : Group) (y : Frame) : (g.setFrame y).frameAt y.index = y := by
  rw [Group.frameAt, find?_setFrame, if_pos rfl, Option.getD_some]

theorem frameAt_setFrame_ne {f : Nat} {y : Frame} (h : f ≠ y.index) (g : Group) : (g.setFrame y).frameAt f = g.frameAt f := by
  rw [Group.frameAt, find?_setFrame, if_neg h, Group.frameAt]

theorem bload_issues {x : Desc} {s : State} {th : Thread} (h : Alone (.bload x) s th)
    (hslot : s.slotBad th (s.slotOperand th x) = none) (hhar : s.harnessed th = true) (hmax : (s.b32 th x).toNat ≤ 511)
    (heven : x.w2.getLsbD 1 = true → (s.b32 th x).toNat % 2 = 0) (halign : (s.a64 th x).toNat % 256 = 0)
    (hrange : s.engineRange th (s.a64 th x) (if x.w2.getLsbD 1 then 8192 else 4096) = none) (hroom : th.cnt.tiles < 63) :
    exec (.bload x) s = .next ((s.issueBload th (.bload x) (s.slotOperand th x) (s.a64 th x) (s.b32 th x).toNat (x.w2.getLsbD 1)
      (x.w2.getLsbD 2)).past (.bload x) th) := by
  have hframe : (decide (511 < (s.b32 th x).toNat) || (x.w2.getLsbD 1 && (s.b32 th x).toNat % 2 != 0)) = false := by
    simpa [-BitVec.getLsbD_eq_getElem, Nat.not_lt.mpr hmax] using heven
  simp only [exec_bload, execBload, runTeam_alone _ h, hslot, hhar, hframe, halign, hrange, if_neg (Nat.not_le.mpr hroom),
    Bool.not_true, bne_self_eq_false, Bool.false_eq_true, if_false]

theorem bload_traps {x : Desc} {s : State} {th : Thread} (h : Alone (.bload x) s th)
    (hslot : s.slotBad th (s.slotOperand th x) = none) (hhar : s.harnessed th = false) : TrapsTo (.bload x) s th .harness 0 0 := by
  simp only [TrapsTo, exec_bload, execBload, runTeam_alone _ h, hslot, hhar, Bool.not_false, if_true]

/-- An operation without a fault that reads a broken copy stops with HARNESS. -/
theorem mem_grids_breakOps {s : State} {g : Group} {o : GridOp} {hit : Nat → Nat × Bool → Bool} {m : Nat} {q : Nat × Bool}
    (ho : o ∈ s.grids) (hfault : o.fault = none) (hm : (g.id, m) ∈ o.members) (hq : (g.id, q) ∈ o.planes) (hhit : hit m q = true) :
    { o with fault := some ({ cause := .harness }, 0) } ∈ (s.breakOps g hit).grids := by
  have hreads : (o.members.any fun m => m.1 == g.id && o.planes.any fun p => p.1 == g.id && hit m.2 p.2) = true :=
    List.any_eq_true.mpr ⟨_, hm, Bool.and_eq_true_iff.mpr ⟨beq_self_eq_true _,
      List.any_eq_true.mpr ⟨_, hq, Bool.and_eq_true_iff.mpr ⟨beq_self_eq_true _, hhit⟩⟩⟩⟩
  exact List.mem_map.mpr ⟨o, ho, if_pos (by rw [hfault, hreads]; rfl)⟩

theorem thread?_retireTile {s : State} {c : Cmd} {th : Thread} (h : s.thread? c.thread = some th) (gid : Nat) :
    (s.retireTile gid c).thread? c.thread = some { th with cnt := { th.cnt with tiles := th.cnt.tiles - 1 } } :=
  thread?_modThread_self _ (fun _ => rfl) ((thread?_farDrop s (.cmd c.id) c.thread).trans h)

theorem retireTile_mem (s : State) (gid : Nat) (c : Cmd) : (s.retireTile gid c).mem = s.mem := by
  rw [State.retireTile, farDrop_eq]
  rfl

section
variable {s : State} {g : Group} {c : Cmd} {f : Nat} {sp hold spad : Bool} {src : Dword} {ps : List Bool}
  (hcmd : s.cmd? s.arg.a = some (g, c))
include hcmd

theorem bload_retires {s1 : State} {bs : List Byte} (hkind : c.kind = .bload f sp hold src false ps) (hruns : engineRuns g = true)
    (hfault : c.fault = none) (htag : c.tag = none) (hbefore : s.beforeDone c = true) (hfree : s.copyBlocked g c = false)
    (hconf : s.conflicts g c (c.touches s.img.spBase) = false) (hslot : c.slot = none)
    (hread : s.agentRead (.cmd c.id) (s.groupSpace g) false 1 false 4 src (if sp then 8192 else 4096) = (s1, .ok bs)) :
    exec .bloadRetire s = .next ((s1.modGroup g.id fun y => y.fillFrames c .valid (some bs)).retireTile g.id c) := by
  simp [exec_bloadRetire, execBloadRetire, hcmd, hkind, hruns, hfault, htag, hbefore, hfree, hconf, hslot, hread]

theorem bload_faults {a : Dword} {e : Fail} (hkind : c.kind = .bload f sp hold src spad ps) (hfault : c.fault = some (e, a)) :
    exec .bloadFault s = .next ((((s.modGroup g.id fun y => y.fillFrames c .broken none).breakOps g (g.readsLoad c)).cmdFault g c e
      a).retireTile g.id c) := by
  simp only [exec_bloadFault, execBloadFault, hcmd, hkind, hfault]

end

/-- Settles O49: HITCH and UNHITCH hold their thread, and the gang of one group acts for it alone; BLOAD and BSWAP are each one issue
whose checks pass; the retirement and the fault of a BLOAD are those of its command. -/
theorem harnessHitchesAndLoadsB : Obligations.HarnessHitchesAndLoadsB := by
  refine ⟨fun x s th g h hg => ⟨?hitch, fun hbad => hitch_traps h hg (hitchRefused_iff.mpr hbad)⟩,
    fun _ _ h => tryHitch_of_missing h, ?hitched,
    fun x g => holds_of_exec_runTeam (exec_unhitch · x) ?unhitch, ?unhitchDone, ?bload,
    fun x => does_of_exec_runTeam (exec_bswap · x) ?bswap,
    fun g f y => ⟨frameAt_setFrame_self g y, fun h => frameAt_setFrame_ne h g⟩,
    fun x s th h hn => trapsTo_of_exec_runTeam h (exec_bswap s x) ?bswapTraps, fun _ _ _ h hslot hn => bload_traps h hslot hn,
    fun _ _ _ _ _ _ _ _ _ _ hcmd hkind hruns hfault htag hbefore hfree hconf hslot hread =>
      bload_retires hcmd hkind hruns hfault htag hbefore hfree hconf hslot hread,
    fun _ _ _ _ _ _ _ _ _ _ _ hcmd hkind hfault => bload_faults hcmd hkind hfault,
    fun _ _ _ _ _ _ ho hfault hm hq hhit => mem_grids_breakOps ho hfault hm hq hhit,
    fun s gid c th h => ⟨_, thread?_retireTile h gid, rfl, rfl, retireTile_mem s gid c⟩⟩
  case hitch =>
    intro hsize hacc hawin hfree hfirst hwhole hrel
    refine hitch_waits h hg (Bool.eq_false_iff.mpr (mt hitchRefused_iff.mp ?_)) hrel
    simp [hsize, hacc, hawin, hfree, hfirst, hwhole]
  case hitched =>
    intro s g th gang hgs hg hsize hw hh ht
    rw [tryHitch_of_single hgs hsize hw hh]
    exact ⟨_, th.release, group?_modGroup_self _ (fun _ => rfl) hg, rfl, rfl,
      thread?_modThread_self Thread.release (fun _ => rfl) ht, rfl, rfl⟩
  case unhitch =>
    rintro s th ⟨hg, hhit, hw⟩
    simp [hg, Option.isNone_iff_eq_none, hhit, hw]
  case unhitchDone =>
    intro s g hg hhit hgs hwait hcmds hmma
    refine ⟨_, { g with hitched := none, frames := [] }, exec_unhitchComplete_of_single hg hhit hgs hwait hcmds hmma, ?_,
      rfl, rfl, rfl, foldl_unhitchReturn_mem ..⟩
    rw [group?_of_groups_eq (foldl_unhitchReturn_groups ..)]
    exact group?_modGroup_self _ (fun _ => rfl) (group?_id hg ▸ hg)
  case bload =>
    rintro x sp s th h ⟨hslot, hhar, hmax, heven, halign, hrange, hroom⟩
    exact bload_issues h hslot hhar hmax heven halign hrange hroom
  case bswap =>
    rintro s th ⟨hhar, hpos, hmax⟩
    have hrange : (decide ((s.b32 th x).toNat < 1) || decide (512 < (s.a32 th x).toNat + (s.b32 th x).toNat)) = false := by
      simp only [Bool.or_eq_false_iff, decide_eq_false_iff_not]
      omega
    simp only [hhar, hrange, Bool.not_true, Bool.false_eq_true, if_false]
  case bswapTraps => simp [hn]

end Sys2Proof.Machine
end

section
/-! SUPPORT. Matrix operations: an MMA and its forming (13 R300 to R302), passes over the rows (12 R272, 13 R303), and how an operation
retires or faults (13 R305, R306). -/

namespace Sys2Proof.Machine

/-! ### MMA (13 R300, R301) -/

section
variable {x : Desc} {s : State} {th : Thread} {g : Group} (h : Alone (.mma x) s th)
  (hslot : s.slotBad th (s.slotOperand th x) = none) (hg : s.group? th.group = some g)
include h hslot hg

theorem exec_mma_waits (hok : s.mmaBad th g (s.blockAt th x.a) = none) (hroom : th.cnt.tiles < 63) :
    exec (.mma x) s = .next (((s.holdAt th.id (.mma x) (.mma (s.blockAt th x.a)
      ((s.slotOperand th x).map (·.toNat)))).tryForm g).stay th (.mma x)) := by
  refine (exec_mma s x).trans (runTeam_alone_of_stall h ?_)
  simp only [hslot, hg, hok, if_neg (Nat.not_le.mpr hroom)]

theorem exec_mma_traps {e : Bad} (hbad : s.mmaBad th g (s.blockAt th x.a) = some e) :
    TrapsTo (.mma x) s th e.cause e.addr e.detail :=
  trapsTo_of_exec_runTeam h (exec_mma s x) (by simp only [hslot, hg, hbad])

end

theorem mmaBad_of_unhitched {g : Group} (h : g.hitched = none) (s : State) (th : Thread) (b : List Byte) :
    s.mmaBad th g b = some { cause := .harness } := by
  rw [State.mmaBad, h]

/-! ### Forming an operation (13 R302) -/

/-- While some group of the gang has no waiter, no operation forms. -/
theorem tryForm_of_missing {s : State} {g : Group} (h : ∃ y ∈ s.gangGroups g.gang, s.mmaWaiter y.id = none) : s.tryForm g = s := by
  unfold State.tryForm
  dsimp only
  split
  next =>
    refine if_pos (bne_iff_ne.mpr (Nat.ne_of_lt ?_))
    obtain ⟨y, hy, hnone⟩ := h
    exact List.length_filterMap_lt_length_iff_exists.mpr ⟨y, hy, by rw [hnone, Option.bind_none]⟩
  next => rfl

/-- Setting frames one after the other keeps what a frame is no part of. -/
theorem foldl_setFrame_keeps {α β : Type} (part : Group → β) (hpart : ∀ g x, part (g.setFrame x) = part g)
    (f : Group → α → Frame) (l : List α) (g : Group) : part (l.foldl (fun g a => g.setFrame (f g a)) g) = part g :=
  List.foldlRecOn (motive := fun acc : Group => part acc = part g) l _ rfl fun acc hacc a _ => (hpart acc (f acc a)).trans hacc

theorem thread?_mapThreads (s : State) (u : Nat) (f : Thread → Thread) (hf : ∀ x, (f x).id = x.id) :
    (s.mapThreads f).thread? u = (s.thread? u).map f :=
  find?_map_key Thread.id u f hf s.threads

/-- A member's part of an operation is a new command of its group. -/
theorem group?_joinOp {s : State} {g : Group} {m : Member} (hg : s.group? m.g.id = some g) (op dp : Nat) :
    ∃ g2 c, (s.joinOp op m dp).1.group? m.g.id = some g2 ∧ g2.cmds = g.cmds ++ [c] ∧ c.id = s.nextId
      ∧ c.kind = .grid op m.block dp m.g.posX m.g.posZ ∧ c.slot = m.slot ∧ c.thread = m.th.id :=
  ⟨_, _, group?_modGroup_self (s := s.newId.2) _ (foldl_setFrame_keeps Group.id (fun _ _ => rfl) _ _) hg,
    congrArg (· ++ _) (foldl_setFrame_keeps Group.cmds (fun _ _ => rfl) _ _ g), rfl, rfl, rfl, rfl⟩

/-- A member's thread goes on past its MMA with one tile command more. -/
theorem thread?_joinOp {s : State} {m : Member} {th : Thread} (ht : s.thread? m.th.id = some th) (hh : th.hold.isTake = false)
    (op dp : Nat) :
    (s.joinOp op m dp).1.thread? m.th.id = some { th.release with cnt := { th.cnt with tiles := th.cnt.tiles + 1 } } := by
  refine thread?_modThread_self (fun y => { y.release with cnt := { y.cnt with tiles := y.cnt.tiles + 1 } }) (fun _ => rfl) ?_
  rw [thread?_mapThreads _ _ _ fun y => by split <;> rfl]
  refine (congrArg _ ht).trans ?_
  simp [hh]

section
variable {s : State} {g : Group} {th : Thread} {b : List Byte} {slot : Option Nat}

/-- A gang of one group forms its operation by its own waiter. -/
theorem tryForm_of_single {h : Hitched} (hgs : s.gangGroups g.gang = [g]) (hhit : g.hitched = some h)
    (hw : s.mmaWaiter g.id = some th) (hh : th.hold = .mma b slot) (hok : copiesOk g (parseParams b) (2 ^ h.dp) = true) :
    let r := s.newId.2.joinOp s.nextId { g := g, th := th, block := b, slot := slot } (2 ^ h.dp)
    s.tryForm g = { r.1 with grids := r.1.grids ++ [{
      id := s.nextId, gang := g.gang, members := [r.2], blocks := [(g.id, b)]
      planes := ((parseParams b).frames (2 ^ h.dp)).map fun f => (g.id, f, (g.frameAt f).opPlane) }] } := by
  simp [State.tryForm, hgs, hhit, hw, hh, hok]

theorem tryForm_of_unusable_copies {h : Hitched} (hgs : s.gangGroups g.gang = [g]) (hhit : g.hitched = some h)
    (hw : s.mmaWaiter g.id = some th) (hh : th.hold = .mma b slot) (hok : copiesOk g (parseParams b) (2 ^ h.dp) = false) :
    s.tryForm g = s.trapHeld th .harness 0 0 := by
  simp [State.tryForm, hgs, hhit, hw, hh, hok]

end

/-! ### Accumulator words (12 R276) -/

theorem Memory.load_congr {m m2 : Memory} {a n : Nat} (h : ∀ i, i < n → m2.read (a + i) = m.read (a + i)) :
    m2.load a n = m.load a n := by
  induction n generalizing a with
  | zero => rfl
  | succ n ih =>
    rw [Memory.load, Memory.load]
    congr 1
    · exact h 0 (Nat.succ_pos n)
    · refine ih fun i hi => ?_
      rw [Nat.add_right_comm, Nat.add_assoc]
      exact h (i + 1) (Nat.succ_lt_succ hi)

/-- An element of pieces of one length. -/
theorem getElem?_flatMap_of_length {α β : Type} {f : α → List β} {n : Nat} (hf : ∀ a, (f a).length = n) {l : List α} {c : Nat}
    {a : α} (hc : l[c]? = some a) {i : Nat} (hi : i < n) : (l.flatMap f)[n * c + i]? = (f a)[i]? := by
  induction l generalizing c with
  | nil => cases hc
  | cons x xs ih =>
    rw [List.flatMap_cons]
    cases c with
    | zero =>
      obtain rfl : x = a := Option.some.inj hc
      rw [Nat.mul_zero, Nat.zero_add, List.getElem?_append_left (by rw [hf]; exact hi)]
    | succ c =>
      have hk : n * (c + 1) + i = n + (n * c + i) := by rw [Nat.mul_succ, Nat.add_comm (n * c) n, Nat.add_assoc]
      rw [hk, List.getElem?_append_right (by rw [hf]; exact Nat.le_add_right ..), hf, Nat.add_sub_cancel_left]
      exact ih hc

/-- The bytes of a row of accumulator words. -/
def rowBytes (rs : List FRes) : List Byte := rs.flatMap fun r => toBytes 4 r.bits

theorem length_rowBytes (rs : List FRes) : (rowBytes rs).length = 4 * rs.length := by
  simp only [rowBytes, List.length_flatMap, length_toBytes]
  rw [List.map_const', List.sum_replicate_nat, Nat.mul_comm]

section
variable {g : Group} {rs : List FRes} (hwf : g.acc.wf = true) (hlen : rs.length = 16) (r : Nat)
include hwf hlen

/-- A word of a row that has been stored. -/
theorem accAt_store_self {c : Nat} {x : FRes} (hc : rs[c]? = some x) :
    Group.accAt { g with acc := g.acc.store (64 * r) (rowBytes rs) } r c = x.bits % 2 ^ 32 := by
  have hlt : c < 16 := hlen ▸ (List.getElem?_eq_some_iff.mp hc).1
  have hload : (g.acc.store (64 * r) (rowBytes rs)).load (64 * r + 4 * c) 4 = toBytes 4 x.bits := by
    have hread : ∀ i, i < (toBytes 4 x.bits).length →
        (g.acc.store (64 * r) (rowBytes rs)).read (64 * r + 4 * c + i) = (toBytes 4 x.bits).getD i 0 := by
      intro i hi
      rw [length_toBytes] at hi
      rw [Memory.put_store hwf, length_rowBytes, hlen, if_pos (by omega), Nat.add_assoc, Nat.add_sub_cancel_left,
        List.getD_eq_getElem?_getD, List.getD_eq_getElem?_getD]
      exact congrArg (Option.getD · 0)
        (getElem?_flatMap_of_length (f := fun r : FRes => toBytes 4 r.bits) (fun r => length_toBytes 4 r.bits) hc hi)
    have hload := Memory.load_of_read hread
    rwa [length_toBytes] at hload
  rw [Group.accAt, hload, ofBytes_toBytes, show 256 ^ 4 = 2 ^ 32 from rfl]

/-- A word of another row. -/
theorem accAt_store_ne {c row : Nat} (hc : c < 16) (hrow : row ≠ r) :
    Group.accAt { g with acc := g.acc.store (64 * r) (rowBytes rs) } row c = g.accAt row c := by
  refine congrArg ofBytes (Memory.load_congr fun i hi => ?_)
  rw [Memory.put_store hwf, length_rowBytes, hlen, if_neg (by omega)]

end

/-! ### Passes (12 R272, 13 R303) -/

/-- A row of an accumulating core: each of its 16 words becomes that of the pass, and the words of other rows stay. -/
theorem accAt_passRow {s : State} {o : GridOp} {p q : Params} {dp x m c : Nat} {g : Group}
    (hcell : s.cellGroup o x (dp - 1) = some (g, q)) (hg : s.group? g.id = some g) (hwf : g.acc.wf = true) (hc : c < 16)
    (sa : List Byte) (cols : List (List (Option Nat) × List Byte)) :
    ∃ g2, (s.passRow o p dp x m sa cols).group? g.id = some g2
      ∧ g2.accAt (p.accRow + m) c = (accWord p sa (cols.getD c ([], [])).2 (p.kc * dp / p.l) (s.rowA o p dp x m) (cols.getD c ([], [])).1
        (g.accAt (p.accRow + m) c)).bits % 2 ^ 32
      ∧ ∀ row, row ≠ p.accRow + m → g2.accAt row c = g.accAt row c := by
  rw [State.passRow, hcell]
  exact ⟨_, group?_modGroup_self (s := s) (fun y => { y with acc := y.acc.store (64 * (p.accRow + m)) _ }) (fun _ => rfl) hg,
    accAt_store_self hwf (by simp) _ (by simp [hc]), fun row hrow => accAt_store_ne hwf (by simp) _ hc hrow⟩

theorem blockPairs_map_some (xs ys : List Nat) : blockPairs xs (ys.map some) = xs.zip ys := by
  rw [blockPairs, List.zip_map_right, List.filterMap_map]
  exact List.filterMap_some

/-- An integer word of one block: the old value and the products, in the form that the block says. -/
theorem accWord_of_acci {p : Params} {xs ys : List Nat} (hacci : p.acci = true) (hx : xs.length = p.l) (hy : ys.length = p.l)
    (sa sb : List Byte) (old : Nat) :
    accWord p sa sb 1 xs (ys.map some) old = { bits := encodeI .i32 false (decodeI .i32 (encodeI .i32 p.isat
      (((xs.zip ys).map fun q => decodeI p.fa q.1 * decodeI p.fb q.2).foldl (· + ·) (decodeI .i32 old)))) } := by
  have hys : (ys.map some).take p.l = ys.map some := List.take_of_length_le (Nat.le_of_eq (by rw [List.length_map, hy]))
  rw [accWord, if_pos hacci, sumInt, sumInt, List.take_of_length_le (Nat.le_of_eq hx), hys, blockPairs_map_some, List.foldl_map]

/-- A pass ends with its last row. -/
theorem rowsDone_grids {s : State} {o : GridOp} (h : s.grids = [o]) (m r1 : Nat) :
    (s.rowsDone o.id m r1).grids = [if m ≤ r1 then { o with pass := o.pass + 1, rows := 0 } else { o with rows := r1 }] := by
  simp [State.rowsDone, h]

/-- Row blocks that ready members may run: their reads, then their rows. -/
theorem gridRun_runs {s s1 : State} {o : GridOp} {b0 : Nat × List Byte} {bs0 : List (Nat × List Byte)} {m0 : Group × Cmd}
    {ms0 : List (Group × Cmd)} {h : Hitched} {l : List (List Byte)} {p : Params} {w dp n r1 : Nat}
    {ra rsa rsb : List (Group × Dword × Nat × Nat)} (hblocks : o.blocks = b0 :: bs0) (hms : s.opMembers o = m0 :: ms0)
    (hhit : m0.1.hitched = some h) (hp : parseParams b0.2 = p) (hw : 2 ^ h.w = w) (hdp : 2 ^ h.dp = dp)
    (hr1 : (if n = 0 then p.m else min p.m (o.rows + 8 * n)) = r1) (hrd : s.rowReads o p w dp o.rows r1 = (ra, rsa, rsb))
    (hfault : o.fault = none) (hpass : o.pass < p.passes dp) (hhalt : s.halting m0.1 = false)
    (hready : (m0 :: ms0).all (s.memberReady o p o.rows r1) = true)
    (hreads : s.handleReads o.id (ra ++ rsa ++ rsb) = (s1, .ok l)) :
    s.gridRun o n = ((s1.farDone (.cmd o.id)).runRows o (m0 :: ms0) p w dp o.rows r1 ((l.drop ra.length).take rsa.length)
      (l.drop (ra.length + rsa.length)) ((List.range dp).map fun z => (l.drop (z * (r1 - o.rows))).take (r1 - o.rows))).rowsDone
      o.id p.m r1 := by
  have hrun : (o.fault.isSome || decide (p.passes dp ≤ o.pass) || s.halting m0.1
      || !((m0 :: ms0).all (s.memberReady o p o.rows r1))) = false := by
    rw [hfault, hhalt, hready]
    simpa using hpass
  simp only [State.gridRun, hblocks, hms, hhit, beq_iff_eq, hp, hw, hdp, hr1, hrd, hrun, hreads, Bool.false_eq_true, if_false]

/-! ### Retirement and faults (13 R305, R306) -/

/-- Every pass of the operation is done, by the block of a member's command. -/
def GridOp.passesDone (o : GridOp) (m : Group × Cmd) : Bool :=
  match m.2.kind with
  | .grid _ b dp _ _ => (parseParams b).passes dp ≤ o.pass
  | _ => false

theorem passesDone_iff {o : GridOp} {m : Group × Cmd} :
    o.passesDone m = true ↔ ∃ op b dp x z, m.2.kind = .grid op b dp x z ∧ (parseParams b).passes dp ≤ o.pass := by
  unfold GridOp.passesDone
  split
  next op b dp x z hk =>
    refine ⟨fun h => ⟨op, b, dp, x, z, hk, of_decide_eq_true h⟩, ?_⟩
    rintro ⟨op', b', dp', x', z', hk', hle⟩
    obtain ⟨rfl, rfl, rfl, rfl, rfl⟩ := CmdKind.grid.inj (hk.symm.trans hk')
    exact decide_eq_true hle
  next hk =>
    refine ⟨fun h => absurd h Bool.false_ne_true, ?_⟩
    rintro ⟨op, b, dp, x, z, hk', -⟩
    exact absurd hk' (hk op b dp x z)

/-- A member's part of an operation that has ended without a fault: its slot's event, and its command retires. -/
def State.retireMember (s : State) (m : Group × Cmd) : State :=
  State.retireTile (match m.2.slot with
    | some k => s.slotEvent m.1.id k 1 0 0 (some m.2.issuer)
    | none => s) m.1.id m.2

section
variable {s : State} {o : GridOp} (hop : s.grids.find? (fun q => q.id == s.arg.a) = some o)
include hop

theorem exec_gridOpRetire_eq :
    exec .gridOpRetire s = .next (if !(s.opMembers o).any o.passesDone || o.fault.isSome
      || !((s.opMembers o).all fun m => engineRuns m.1) then s
      else (s.opMembers o).foldl State.retireMember ((s.recordFlags o).dropOp o.id)) := by
  simp only [exec_gridOpRetire, execGridOpRetire, hop]
  rfl

theorem gridOp_retires (hfault : o.fault = none) (hruns : ∀ m ∈ s.opMembers o, engineRuns m.1 = true)
    (hdone : ∃ m ∈ s.opMembers o, o.passesDone m = true) :
    exec .gridOpRetire s = .next ((s.opMembers o).foldl State.retireMember ((s.recordFlags o).dropOp o.id)) := by
  simp only [exec_gridOpRetire_eq hop, hfault, List.all_eq_true.mpr hruns, List.any_eq_true.mpr hdone, Option.isSome_none,
    Bool.not_true, Bool.or_self, Bool.false_eq_true, if_false]

theorem unfinished_gridOp_stays (hleft : ∀ m ∈ s.opMembers o, o.passesDone m ≠ true) : exec .gridOpRetire s = .next s := by
  simp only [exec_gridOpRetire_eq hop, List.any_eq_false.mpr hleft, Bool.not_false, Bool.true_or, if_true]

theorem gridOp_faults {f : Fail} {a : Dword} (hfault : o.fault = some (f, a)) (hruns : ∀ m ∈ s.opMembers o, engineRuns m.1 = true) :
    exec .gridOpFault s = .next ((s.opMembers o).foldl (fun s m => (s.cmdFault m.1 m.2 f a).retireTile m.1.id m.2)
      ((s.recordFlags o).dropOp o.id)) := by
  simp only [exec_gridOpFault, execGridOpFault, hop, hfault, List.all_eq_true.mpr hruns, Option.isSome_some, if_true,
    Bool.not_true, Bool.false_eq_true, if_false]

theorem sound_gridOp_stays (hfault : o.fault = none) (hms : ∀ m ∈ s.opMembers o, m.2.fault = none) :
    exec .gridOpFault s = .next s := by
  simp only [exec_gridOpFault, execGridOpFault, hop, hfault, List.findSome?_eq_none_iff.mpr hms, Option.isSome_none,
    Bool.false_eq_true, if_false]

end

/-- A group with flags ORed to its tile flags. -/
def Group.orFlags (g : Group) (f : FFlags) : Group := { g with tileFlags := g.tileFlags ||| f }

theorem orFlags_orFlags (g : Group) (f : FFlags) : (g.orFlags f).orFlags f = g.orFlags f := by
  simp [Group.orFlags, BitVec.or_assoc]

/-- Flags that are recorded for a list of members reach each group named in it, however often it is named. -/
theorem group?_foldl_orFlags {s : State} {gid : Nat} {g : Group} (hg : s.group? gid = some g) (f : FFlags)
    (l : List (Nat × Nat)) :
    (l.foldl (fun s m => s.modGroup m.1 fun g => g.orFlags f) s).group? gid
      = some (if gid ∈ l.map Prod.fst then g.orFlags f else g) := by
  induction l generalizing s g with
  | nil => exact hg
  | cons m l ih =>
    rw [List.foldl_cons, List.map_cons]
    by_cases hm : m.1 = gid
    · subst hm
      rw [ih (group?_modGroup_self (fun g => g.orFlags f) (fun _ => rfl) hg), orFlags_orFlags, ite_self, if_pos List.mem_cons_self]
    · have hstays : (s.modGroup m.1 fun g => g.orFlags f).group? gid = some g := by
        rw [group?_modGroup _ _ _ (fun g => g.orFlags f) (fun _ => rfl), hg]
        simp [group?_id hg, Ne.symm hm]
      simp only [ih hstays, List.mem_cons, Ne.symm hm, false_or]

theorem recordFlags_groups (s : State) (o : GridOp) :
    (s.recordFlags o).groups = (o.members.foldl (fun s m => s.modGroup m.1 fun g => g.orFlags o.flags) s).groups := by
  unfold State.recordFlags
  dsimp only
  split <;> rfl

/-- An operation that has left is no longer listed, and nothing of groups or memory has changed. -/
theorem dropOp_leaves (s : State) (op : Nat) :
    (∀ o ∈ (s.dropOp op).grids, o.id ≠ op) ∧ (s.dropOp op).groups = s.groups ∧ (s.dropOp op).mem = s.mem := by
  rw [State.dropOp, farDrop_eq]
  exact ⟨fun o ho => by simpa using (List.mem_filter.mp ho).2, rfl, rfl⟩

/-- Settles O50: an MMA holds its thread, and the waiter of a gang of one group forms the operation alone; a pass is the reads of its
rows and then, row by row, a store of 16 words; the end of an operation is that of its members' commands. -/
theorem matrixOperationsRunAndRetire : Obligations.MatrixOperationsRunAndRetire := by
  refine ⟨fun x s th g h hslot hg => ⟨exec_mma_waits h hslot hg, fun e => exec_mma_traps h hslot hg, fun hhit => ?harness⟩,
    fun _ _ h => tryForm_of_missing h,
    fun s g h th b slot hgs hg hhit hw hh ht => ⟨fun hok => ?forms, tryForm_of_unusable_copies hgs hhit hw hh⟩,
    ?passEnd, fun _ _ _ _ _ _ _ _ sa cols _ hcell hg hwf hc => accAt_passRow hcell hg hwf hc sa cols,
    fun _ sa sb old _ _ hacci hx hy => ?integer, ?rows,
    fun s o hop hfault hruns => ⟨fun hdone => ?retires, fun hleft => ?unfinished⟩,
    fun _ _ _ _ hop hfault hruns => gridOp_faults hop hfault hruns, fun _ _ hop hfault hms => sound_gridOp_stays hop hfault hms,
    ?flags, dropOp_leaves⟩
  case harness =>
    rw [mmaBad_of_unhitched hhit]
    rfl
  case forms =>
    obtain ⟨g2, c, hg2, hcmds, hid, hkind, hslot, hthread⟩ :=
      group?_joinOp (s := s.newId.2) (m := { g := g, th := th, block := b, slot := slot }) hg s.nextId (2 ^ h.dp)
    have hth := thread?_joinOp (s := s.newId.2) (m := { g := g, th := th, block := b, slot := slot }) ht (by rw [hh]; rfl)
      s.nextId (2 ^ h.dp)
    rw [tryForm_of_single hgs hhit hw hh hok]
    exact ⟨_, c, g2, _, rfl, rfl, rfl, by rw [hid]; rfl, rfl, rfl, rfl, hg2, hcmds, hkind, hslot, hthread, hth, rfl⟩
  case passEnd =>
    intro s s1 o b0 bs0 m0 ms0 h l hop hblocks hms hhit p w dp r1 rd hfault hpass hhalt hready hreads
    simp only [exec_gridPassEnd, execGridPassEnd, hop]
    exact congrArg _ (gridRun_runs hblocks hms hhit rfl rfl rfl rfl rfl hfault hpass hhalt hready hreads)
  case integer =>
    rw [accWord_of_acci hacci hx hy]
    exact ⟨rfl, rfl⟩
  case rows =>
    rintro s op m r1 o h rfl
    exact rowsDone_grids h m r1
  case retires =>
    obtain ⟨m, hm, hd⟩ := hdone
    exact gridOp_retires hop hfault hruns ⟨m, hm, passesDone_iff.mpr hd⟩
  case unfinished =>
    refine unfinished_gridOp_stays hop fun m hm hd => ?_
    obtain ⟨op, b, dp, x, z, hk, hle⟩ := passesDone_iff.mp hd
    exact Nat.not_le.mpr (hleft m hm op b dp x z hk) hle
  case flags =>
    rintro s o g ⟨m, hm⟩ hg
    refine ⟨g.orFlags o.flags, ?_, rfl, rfl⟩
    rw [group?_of_groups_eq (recordFlags_groups s o), group?_foldl_orFlags hg, if_pos (List.mem_map_of_mem hm)]

end Sys2Proof.Machine
end

section
/-! SUPPORT. Accumulator commands (13 R308 to R311): their issue, what each does to the words of its rows, and their retirement. -/

namespace Sys2Proof.Machine

/-! ### Parts of what is loaded and stored (01 R24) -/

theorem Memory.length_load (m : Memory) (a n : Nat) : (m.load a n).length = n := by
  induction n generalizing a with
  | zero => rfl
  | succ n ih => rw [Memory.load, List.length_cons, ih]

theorem Memory.load_add (m : Memory) (a k n : Nat) : m.load a (k + n) = m.load a k ++ m.load (a + k) n := by
  induction k generalizing a with
  | zero => rw [Nat.zero_add]; rfl
  | succ k ih => rw [Nat.add_right_comm, Memory.load, Memory.load, ih, List.cons_append, Nat.add_right_comm a 1 k, Nat.add_assoc]

/-- Bytes within a range are a field of what is loaded from it. -/
theorem Memory.field_load {k n len : Nat} (h : k + n ≤ len) (m : Memory) (a : Nat) :
    field (m.load a len) k n = ofBytes (m.load (a + k) n) := by
  obtain ⟨rest, rfl⟩ := Nat.exists_eq_add_of_le h
  rw [field, Nat.add_assoc, Memory.load_add, Memory.load_add, List.drop_left' (Memory.length_load ..),
    List.take_left' (Memory.length_load ..)]

theorem Memory.ofBytes_load_store {m : Memory} (hwf : m.wf = true) {bs : List Byte} {k n : Nat} (h : k + n ≤ bs.length) (a : Nat) :
    ofBytes ((m.store a bs).load (a + k) n) = field bs k n := by
  rw [← Memory.field_load h, Memory.load_store hwf]

theorem field_replicate_zero (len k n : Nat) : field (List.replicate len 0) k n = 0 := by
  have hzero : ∀ j, ofBytes (List.replicate j 0) = 0 := fun j => by
    induction j with
    | zero => rfl
    | succ j ih => rw [List.replicate_succ, ofBytes, ih]; rfl
  rw [field, List.drop_replicate, List.take_replicate, hzero]

/-- Memory with the first n rows of a table stored from a on, `pitch` bytes apart. -/
def Memory.storeRows (m : Memory) (a pitch : Nat) (row : Nat → List Byte) (n : Nat) : Memory :=
  ((List.range n).map fun i => (i * pitch, row i)).foldl (fun m r => m.store (a + r.1) r.2) m

section
variable {m : Memory} {a pitch : Nat} {row : Nat → List Byte}

theorem Memory.storeRows_succ (m : Memory) (a pitch : Nat) (row : Nat → List Byte) (n : Nat) :
    m.storeRows a pitch row (n + 1) = (m.storeRows a pitch row n).store (a + n * pitch) (row n) := by
  rw [Memory.storeRows, List.range_succ, List.map_append, List.foldl_append]
  rfl

theorem Memory.wf_storeRows (hwf : m.wf = true) (n : Nat) : (m.storeRows a pitch row n).wf = true := by
  induction n with
  | zero => exact hwf
  | succ n ih => exact Memory.storeRows_succ .. ▸ Memory.wf_store _ _ _ ih

/-- Rows no longer than their distance do not overlap: each is read back as it was stored. -/
theorem Memory.ofBytes_load_storeRows (hwf : m.wf = true) (hlen : ∀ i, (row i).length ≤ pitch) {i n k len : Nat} (hi : i < n)
    (hk : k + len ≤ (row i).length) :
    ofBytes ((m.storeRows a pitch row n).load (a + i * pitch + k) len) = field (row i) k len := by
  induction n with
  | zero => exact absurd hi (Nat.not_lt_zero i)
  | succ n ih =>
    rw [Memory.storeRows_succ]
    obtain hlt | rfl := Nat.lt_succ_iff_lt_or_eq.mp hi
    · rw [← ih hlt]
      have hbefore : i * pitch + pitch ≤ n * pitch := Nat.succ_mul i pitch ▸ Nat.mul_le_mul_right pitch hlt
      have hrow := hlen i
      refine congrArg ofBytes (Memory.load_congr fun j hj => ?_)
      rw [Memory.put_store (Memory.wf_storeRows hwf n), if_neg (by omega)]
    · exact Memory.ofBytes_load_store (Memory.wf_storeRows hwf i) hk _

end

/-! ### Packed words as bytes (03 R73) -/

theorem toBytes_add (k n v : Nat) : toBytes (k + n) v = toBytes k v ++ toBytes n (v / 256 ^ k) := by
  induction k generalizing v with
  | zero => rw [Nat.zero_add, Nat.pow_zero, Nat.div_one]; rfl
  | succ k ih => rw [Nat.add_right_comm, toBytes, toBytes, ih, List.cons_append, Nat.div_div_eq_div_mul, ← Nat.pow_succ']

theorem field_toBytes {k n len : Nat} (h : k + n ≤ len) (v : Nat) : field (toBytes len v) k n = v / 256 ^ k % 256 ^ n := by
  obtain ⟨rest, rfl⟩ := Nat.exists_eq_add_of_le h
  rw [field, Nat.add_assoc, toBytes_add, toBytes_add, List.drop_left' (length_toBytes ..), List.take_left' (length_toBytes ..),
    ofBytes_toBytes]

theorem pack_div_mod (w : Nat) (xs : List Nat) (c : Nat) : pack w xs / 2 ^ (w * c) % 2 ^ w = xs.getD c 0 % 2 ^ w := by
  induction xs generalizing c with
  | nil => rw [pack, Nat.zero_div]; rfl
  | cons x xs ih =>
    rw [pack]
    cases c with
    | zero => rw [Nat.mul_zero, Nat.pow_zero, Nat.div_one, Nat.add_mul_mod_self_left, Nat.mod_mod]; rfl
    | succ c =>
      rw [Nat.mul_succ, Nat.add_comm (w * c) w, Nat.pow_add, ← Nat.div_div_eq_div_mul,
        Nat.add_mul_div_left _ _ (Nat.two_pow_pos w), Nat.div_eq_of_lt (Nat.mod_lt _ (Nat.two_pow_pos w)), Nat.zero_add, ih]
      rfl

theorem ofBytes_lt (bs : List Byte) : ofBytes bs < 256 ^ bs.length := by
  induction bs with
  | nil => exact Nat.one_pos
  | cons b bs ih =>
    rw [ofBytes, List.length_cons, Nat.pow_succ']
    have := b.isLt
    omega

theorem accAt_lt (g : Group) (row c : Nat) : g.accAt row c < 2 ^ 32 := by
  have h := ofBytes_lt (g.acc.load (64 * row + 4 * c) 4)
  rwa [Memory.length_load] at h

/-! ### ACCZ and ACCLD: words of whole rows (13 R310) -/

/-- Stored rows give their bytes as words; the words of other rows stay. -/
theorem accAt_store_rows {g : Group} (hwf : g.acc.wf = true) {bs : List Byte} {n : Nat} (hlen : bs.length = 64 * n) {c : Nat}
    (hc : c < 16) (r0 row : Nat) :
    Group.accAt { g with acc := g.acc.store (64 * r0) bs } row c
      = if r0 ≤ row ∧ row < r0 + n then field bs (64 * (row - r0) + 4 * c) 4 else g.accAt row c := by
  split
  next hrow =>
    have haddr : 64 * row + 4 * c = 64 * r0 + (64 * (row - r0) + 4 * c) := by omega
    rw [Group.accAt, haddr]
    exact Memory.ofBytes_load_store hwf (by omega) _
  next hrow =>
    refine congrArg ofBytes (Memory.load_congr fun i hi => ?_)
    rw [Memory.put_store hwf, if_neg (by omega)]

section
variable {g : Group} (hwf : g.acc.wf = true) {c : Nat} (hc : c < 16) (r0 n row : Nat)
include hwf hc

theorem accAt_accz : (g.accRun (.accz r0 n)).1.accAt row c = if r0 ≤ row ∧ row < r0 + n then 0 else g.accAt row c := by
  rw [Group.accRun, accAt_store_rows hwf List.length_replicate hc, field_replicate_zero]

theorem accAt_accld (a : Nat) : (g.accRun (.accld a r0 n)).1.accAt row c
    = if r0 ≤ row ∧ row < r0 + n then ofBytes (g.spad.load (a + 64 * (row - r0) + 4 * c) 4) else g.accAt row c := by
  rw [Group.accRun, accAt_store_rows hwf (Memory.length_load ..) hc]
  split
  next hrow => rw [Memory.field_load (by omega), Nat.add_assoc]
  next => rfl

end

/-! ### ACCST of words as they are (13 R311) -/

/-- A row of accumulator words as ACCST packs it under `.b32`. -/
def Group.packedRow (g : Group) (row : Nat) : List Byte := toBytes 64 (pack 32 ((List.range 16).map (g.accAt row)))

theorem field_packedRow (g : Group) (row : Nat) {c : Nat} (hc : c < 16) : field (g.packedRow row) (4 * c) 4 = g.accAt row c := by
  have hword : ((List.range 16).map (g.accAt row)).getD c 0 = g.accAt row c := by simp [hc]
  have hpow : 256 ^ (4 * c) = 2 ^ (32 * c) := (Nat.pow_mul ..).symm.trans (congrArg (2 ^ ·) (by omega : 8 * (4 * c) = 32 * c))
  calc field (g.packedRow row) (4 * c) 4
    _ = pack 32 ((List.range 16).map (g.accAt row)) / 256 ^ (4 * c) % 256 ^ 4 := field_toBytes (by omega) _
    _ = pack 32 ((List.range 16).map (g.accAt row)) / 2 ^ (32 * c) % 256 ^ 4 := by rw [hpow]
    _ = g.accAt row c := by
      rw [show 256 ^ 4 = 2 ^ 32 from rfl, pack_div_mod, hword, Nat.mod_eq_of_lt (accAt_lt ..)]

theorem accstColumn_b32 (sat : Bool) (size : Nat) (xs : List Nat) :
    accstColumn .b32 false sat size xs = ([], xs.map fun x => { bits := x }) := rfl

/-- A fold stays at a value that each step keeps. -/
theorem foldl_of_fixed {α β : Type} {f : β → α → β} {b : β} {l : List α} (h : ∀ x ∈ l, f b x = b) : l.foldl f b = b :=
  List.foldlRecOn (motive := (· = b)) l f rfl fun _ hacc x hx => (congrArg (f · x) hacc).trans (h x hx)

/-- Under `.b32`, ACCST writes the rows' words with no scale and no flag. -/
theorem accstRuns_b32 {w2 : Word} (hdt : accstDt w2 = .b32) (hmx : w2.getLsbD 1 = false) (g : Group) (r0 n : Nat) :
    accstRuns g r0 n w2
      = (((List.range n).map fun i => (i * accstPitch w2, g.packedRow (r0 + i))) ++ [(n * accstPitch w2, [])], n * 64, 0) := by
  have hrow : accstRow w2 = 64 := by rw [accstRow, hdt]; rfl
  have hscales : accstScales n w2 = 0 := by rw [accstScales, hmx, hdt]; rfl
  simp only [accstRuns, hdt, hmx, hrow, hscales, accstColumn_b32, beq_self_eq_true, if_true, List.range_zero, List.flatMap_nil,
    List.length_nil, Nat.add_zero]
  refine Prod.ext (congrArg (· ++ _) (List.map_congr_left fun i hi => ?_)) (Prod.ext rfl ?_)
  · have hcode : ∀ c, (((List.range n).map fun j => ({ bits := g.accAt (r0 + j) c } : FRes))[i]?.map FRes.bits).getD 0
        = g.accAt (r0 + i) c := fun c => by simp [List.mem_range.mp hi]
    simp only [List.map_map, Function.comp_def, hcode]
    rfl
  · simp only [List.foldl_map]
    exact foldl_of_fixed fun _ _ => foldl_of_fixed fun _ _ => BitVec.or_zero

theorem accRun_accst_b32 {w2 : Word} (hdt : accstDt w2 = .b32) (hmx : w2.getLsbD 1 = false) (g : Group) (a r0 n : Nat) :
    g.accRun (.accst a r0 n w2)
      = ({ g with spad := g.spad.storeRows a (accstPitch w2) (fun i => g.packedRow (r0 + i)) n }, n * 64, 0) := by
  simp only [Group.accRun, accstRuns_b32 hdt hmx, List.foldl_append]
  rfl

/-! ### Issue (13 R308, R309) -/

theorem issueAcc_of_room {s : State} {th : Thread} (h : th.cnt.tiles < 63) (i : Instr) (kind : CmdKind) (slot : Option Word)
    (rs : List (Dword × Nat)) :
    s.issueAcc th i kind slot rs
      = .done ((s.issueCmd th i kind (slot.map (·.toNat)) [] (accessesTo th rs)).modThread th.id fun y =>
          { y with cnt := { y.cnt with tiles := y.cnt.tiles + 1 } }) :=
  if_neg (Nat.not_le.mpr h)

/-! ### Retirement (13 R309) -/

/-- The kind of an ACCZ, ACCLD or ACCST. -/
def CmdKind.IsAcc (k : CmdKind) : Prop :=
  (∃ r0 n, k = .accz r0 n) ∨ (∃ a r0 n, k = .accld a r0 n) ∨ ∃ a r0 n w2, k = .accst a r0 n w2

/-- The words and flags of an accumulator command have their effect. -/
def State.accActs (s : State) (g : Group) (c : Cmd) : State :=
  let r := g.accRun c.kind
  (s.setGroup { r.1 with tileFlags := r.1.tileFlags ||| r.2.2 }).stickyLaunch g.launch r.2.2

/-- An accumulator command at its turn stops with its fault, or acts and sends its slot's event; either way it retires. -/
def State.endAcc (s : State) (g : Group) (c : Cmd) : State :=
  match c.fault with
  | some (f, a) => (s.cmdFault g c f a).retireTile g.id c
  | none =>
    State.retireTile (match c.slot with
      | some k => (s.accActs g c).slotEvent g.id k 1 0 (g.accRun c.kind).2.1 (some c.issuer)
      | none => s.accActs g c) g.id c

theorem exec_accCmdRetire_eq {s : State} {g : Group} {c : Cmd} (hcmd : s.cmd? s.arg.a = some (g, c)) (hkind : c.kind.IsAcc)
    (hruns : engineRuns g = true) (hbefore : s.beforeDone c = true) (hconf : s.conflicts g c (c.touches s.img.spBase) = false) :
    exec .accCmdRetire s = .next (s.endAcc g c) := by
  obtain ⟨r0, n, hk⟩ | ⟨a, r0, n, hk⟩ | ⟨a, r0, n, w2, hk⟩ := hkind <;>
    simp only [exec_accCmdRetire, execAccCmdRetire, State.endAcc, State.accActs, hcmd, hk, hruns, hbefore, hconf, Bool.not_true,
      Bool.or_self, Bool.false_eq_true, if_false] <;> rfl

/-- Settles O51: both commands store whole rows of bytes, zeros or those of the scratchpad, and a retiring ACCLD sends what it
loaded to its slot. -/
theorem accumulatorZeroAndLoad : Obligations.AccumulatorZeroAndLoad := by
  refine ⟨fun _ r0 n row _ hwf hc => ⟨accAt_accz hwf hc r0 n row, rfl⟩,
    fun _ a r0 n row _ hwf hc => ⟨accAt_accld hwf hc r0 n row a, rfl⟩, ?_⟩
  intro s g c a r0 n k hcmd hkind hslot hfault hruns hbefore hconf
  rw [exec_accCmdRetire_eq hcmd (.inr (.inl ⟨a, r0, n, hkind⟩)) hruns hbefore hconf]
  simp only [State.endAcc, State.accActs, hfault, hslot, hkind, Group.accRun, BitVec.ofNat_eq_ofNat, BitVec.or_zero]

/-- Settles O52: each of the three issues its command once its checks pass; a command at its turn faults or acts; ACCST under
`.b32` stores the packed rows, which hold the words themselves. -/
theorem accumulatorCommandsIssueAndRetire : Obligations.AccumulatorCommandsIssueAndRetire := by
  refine ⟨fun x => does_of_exec_runTeam (exec_accz · x) ?accz, fun x => does_of_exec_runTeam (exec_accld · x) ?accld,
    fun x => does_of_exec_runTeam (exec_accst · x) ?accst, fun s g c hcmd hkind hruns hbefore hconf =>
      ⟨fun f a hfault => ?faults, fun hfault hslot => ?retires⟩, ?words⟩
  case accz | accld | accst =>
    rintro s th ⟨hok, hroom⟩
    simp only [hok]
    exact issueAcc_of_room hroom ..
  case faults =>
    simp only [exec_accCmdRetire_eq hcmd hkind hruns hbefore hconf, State.endAcc, hfault]
  case retires =>
    simp only [exec_accCmdRetire_eq hcmd hkind hruns hbefore hconf, State.endAcc, State.accActs, hfault, hslot]
  case words =>
    intro g a r0 n row c w2 hdt hmx hpitch hwf hrow hc
    rw [accRun_accst_b32 hdt hmx, hpitch, Nat.mul_comm 64 row]
    have hlen : ∀ i, (g.packedRow i).length = 64 := fun i => length_toBytes ..
    exact ⟨(Memory.ofBytes_load_storeRows hwf (fun i => Nat.le_of_eq (hlen _)) hrow (by rw [hlen]; omega)).trans
      (field_packedRow g (r0 + row) hc), rfl⟩

end Sys2Proof.Machine
end

section
/-! SUPPORT. Records as byte lists, the bytes of a stack, and the parts of the module that the caches' bookkeeping leaves. -/

namespace Sys2Proof.Machine

/-! ### Fields of records (01 R24) -/

theorem field_append_left {o n : Nat} {xs : List Byte} (h : o + n ≤ xs.length) (ys : List Byte) :
    field (xs ++ ys) o n = field xs o n := by
  rw [field, List.drop_append_of_le_length (by omega), List.take_append_of_le_length (by rw [List.length_drop]; omega), field]

theorem field_append_right {o : Nat} {xs : List Byte} (h : xs.length ≤ o) (n : Nat) (ys : List Byte) :
    field (xs ++ ys) o n = field ys (o - xs.length) n := by
  rw [field, List.drop_append, List.drop_of_length_le h, List.nil_append, field]

theorem field_append_add {k : Nat} {xs : List Byte} (h : xs.length = k) (ys : List Byte) (o n : Nat) :
    field (xs ++ ys) (k + o) n = field ys o n := by
  rw [field_append_right (by omega), h, Nat.add_sub_cancel_left]

theorem field_toBytes_self (n v : Nat) : field (toBytes n v) 0 n = v % 256 ^ n := by
  simpa using field_toBytes (Nat.le_of_eq (Nat.zero_add n)) v

theorem ofNat_toNat_mod_32 (x : BitVec 32) : BitVec.ofNat 32 (x.toNat % 256 ^ 4) = x := by
  rw [show 256 ^ 4 = 2 ^ 32 from rfl, Nat.mod_eq_of_lt x.isLt, BitVec.ofNat_toNat, BitVec.setWidth_eq]

theorem ofNat_toNat_mod_64 (x : BitVec 64) : BitVec.ofNat 64 (x.toNat % 256 ^ 8) = x := by
  rw [show 256 ^ 8 = 2 ^ 64 from rfl, Nat.mod_eq_of_lt x.isLt, BitVec.ofNat_toNat, BitVec.setWidth_eq]

theorem length_flatMap_toBytes {α : Type} (n : Nat) (f : α → Nat) (l : List α) :
    (l.flatMap fun x => toBytes n (f x)).length = n * l.length := by
  induction l with
  | nil => rfl
  | cons x xs ih => rw [List.flatMap_cons, List.length_append, ih, length_toBytes, List.length_cons, Nat.mul_succ, Nat.add_comm]

/-- Entry i of a table of n-byte numbers, zero beyond its end. -/
theorem field_flatMap_toBytes {α : Type} (n : Nat) (f : α → Nat) (l : List α) (i k : Nat) :
    field ((l.flatMap fun x => toBytes n (f x)) ++ List.replicate k 0) (n * i) n = (l[i]?.map fun x => f x % 256 ^ n).getD 0 := by
  induction l generalizing i with
  | nil => exact field_replicate_zero ..
  | cons x xs ih =>
    rw [List.flatMap_cons, List.append_assoc]
    cases i with
    | zero => rw [Nat.mul_zero, field_append_left (by simp [length_toBytes]), field_toBytes_self]; rfl
    | succ i =>
      rw [field_append_right (by rw [length_toBytes]; exact Nat.le_mul_of_pos_right n i.succ_pos), length_toBytes,
        Nat.mul_succ, Nat.add_sub_cancel, ih, List.getElem?_cons_succ]

theorem field_take {o n k : Nat} (h : o + n ≤ k) (xs : List Byte) : field (xs.take k) o n = field xs o n := by
  rw [field, List.drop_take, List.take_take, Nat.min_eq_left (by omega), field]

/-! ### The bytes of a stack (07 R187) -/

theorem stackRead_stackWrite (id : Nat) (m : List Host.Cell) (o : Nat) (b : Byte) (x : Nat) :
    stackRead id (stackWrite m o b) x = if x = o then b else stackRead id m x := by
  induction m with
  | nil =>
    by_cases h : x = o
    · simp [stackWrite, stackRead, h]
    · simp [stackWrite, stackRead, h, Ne.symm h]
  | cons c rest ih =>
    obtain ⟨a, v⟩ := c
    unfold stackWrite
    split
    next hlt =>
      by_cases ha : a = x
      · simp [stackRead, ha, show x ≠ o by omega]
      · simp [stackRead, ha, ih]
    next =>
      by_cases h : x = o
      · split <;> simp [stackRead, h]
      · split
        next heq =>
          have : a ≠ x := fun e => h (e ▸ (by simpa using heq))
          simp [stackRead, this, Ne.symm h]
        next => simp [stackRead, Ne.symm h]

theorem stackRead_stackStore_of_lt (id : Nat) (m : List Host.Cell) (o : Nat) (bs : List Byte) {x : Nat} (h : x < o) :
    stackRead id (stackStore m o bs) x = stackRead id m x := by
  induction bs generalizing m o with
  | nil => rfl
  | cons b bs ih => rw [stackStore, ih _ _ (by omega), stackRead_stackWrite, if_neg (by omega)]

theorem stackLoad_stackStore (id : Nat) (m : List Host.Cell) (o : Nat) (bs : List Byte) :
    stackLoad id (stackStore m o bs) o bs.length = bs := by
  induction bs generalizing m o with
  | nil => rfl
  | cons b bs ih =>
    rw [List.length_cons, stackLoad, stackStore, stackRead_stackStore_of_lt _ _ _ _ (Nat.lt_succ_self o), stackRead_stackWrite,
      if_pos rfl, ih]

theorem length_stackLoad (id : Nat) (m : List Host.Cell) (o n : Nat) : (stackLoad id m o n).length = n := by
  induction n generalizing o with
  | zero => rfl
  | succ n ih => rw [stackLoad, List.length_cons, ih]

/-! ### Runs of v registers (01 R14) -/

/-- Registers b to b + k - 1 set in turn, but for those that are left out. -/
theorem foldl_setV {g : Thread → Nat → Thread} {b : BitVec 8} {f : Nat → Word} {c : Nat → Prop} [DecidablePred c]
    (hg : ∀ x i, g x i = if c i then x.setV (b + BitVec.ofNat 8 i) (f i) else x) (th : Thread) {k : Nat} (hk : b.toNat + k ≤ 256) :
    (∃ v, (List.range k).foldl g th = { th with v := v })
    ∧ ∀ n : BitVec 8, ((List.range k).foldl g th).getV n
      = if b.toNat ≤ n.toNat ∧ n.toNat < b.toNat + k ∧ c (n.toNat - b.toNat) then f (n.toNat - b.toNat) else th.getV n := by
  induction k with
  | zero => exact ⟨⟨th.v, rfl⟩, fun n => (if_neg (by omega)).symm⟩
  | succ k ih =>
    obtain ⟨⟨v, hv⟩, hget⟩ := ih (by omega)
    have hreg : (b + BitVec.ofNat 8 k).toNat = b.toNat + k := by simp; omega
    rw [List.range_succ, List.foldl_append, List.foldl_cons, List.foldl_nil, hg]
    refine ⟨?_, fun n => ?_⟩
    · rw [hv]
      split
      · exact ⟨_, rfl⟩
      · exact ⟨v, rfl⟩
    · by_cases hn : n.toNat = b.toNat + k
      · have hnk : n = b + BitVec.ofNat 8 k := BitVec.eq_of_toNat_eq (hn.trans hreg.symm)
        split
        next hc =>
          rw [hnk, Thread.getV_setV_self, if_pos (by rw [hreg, Nat.add_sub_cancel_left]; exact ⟨by omega, by omega, hc⟩), hreg,
            Nat.add_sub_cancel_left]
        next hc =>
          rw [hget, if_neg (by omega), if_neg (by rintro ⟨-, -, h⟩; exact hc (by rwa [hn, Nat.add_sub_cancel_left] at h))]
      · have hne : n ≠ b + BitVec.ofNat 8 k := fun e => hn (e ▸ hreg)
        have hlt : (b.toNat ≤ n.toNat ∧ n.toNat < b.toNat + (k + 1) ∧ c (n.toNat - b.toNat))
            ↔ (b.toNat ≤ n.toNat ∧ n.toNat < b.toNat + k ∧ c (n.toNat - b.toNat)) := by
          constructor <;> rintro ⟨h1, h2, h3⟩ <;> exact ⟨h1, by omega, h3⟩
        rw [if_congr hlt rfl rfl, ← hget n]
        split
        · rw [Thread.getV_setV_ne _ _ _ _ hne]
        · rfl

/-! ### What the caches' bookkeeping leaves (07 R195 to R198) -/

/-- The module without its caches' bookkeeping: cached lines, uncorrectable lines and the device's choices. -/
def State.sansCaches (s : State) : State := { s with caches := {}, poison := [], oracle := [] }

theorem eq_of_sansCaches {s t : State} (h : t.sansCaches = s.sansCaches) :
    ∃ c p o, t = { s with caches := c, poison := p, oracle := o } :=
  ⟨t.caches, t.poison, t.oracle, congrArg (fun u : State => { u with caches := t.caches, poison := t.poison, oracle := t.oracle }) h⟩

/-- What does not read that bookkeeping is the same in two such states. -/
theorem eq_of_sansCaches_eq {α : Type} {s t : State} (p : State → α) (h : t.sansCaches = s.sansCaches)
    (hp : ∀ r : State, p r.sansCaches = p r := by intro _; rfl) : p t = p s := by
  rw [← hp t, h, hp s]

theorem sansCaches_foldl {α : Type} {f : State → α → State} (h : ∀ s x, (f s x).sansCaches = s.sansCaches) (s : State)
    (l : List α) : (l.foldl f s).sansCaches = s.sansCaches := by
  induction l generalizing s with
  | nil => rfl
  | cons x xs ih => exact (ih _).trans (h s x)

theorem sansCaches_ite {s t u : State} {p : Prop} [Decidable p] (h : t.sansCaches = s.sansCaches)
    (k : u.sansCaches = s.sansCaches) : (if p then t else u).sansCaches = s.sansCaches := by
  split
  · exact h
  · exact k

theorem sansCaches_choose (s : State) (n : Nat) : (s.choose n).2.sansCaches = s.sansCaches := by
  unfold State.choose
  split <;> rfl

theorem sansCaches_fillSlc (s : State) (l : Nat) : (s.fillSlc l).sansCaches = s.sansCaches := by
  unfold State.fillSlc
  refine sansCaches_ite rfl ?_
  dsimp only
  split <;> rfl

theorem sansCaches_l1WriteBack (s : State) (l : Nat) : (s.l1WriteBack l).sansCaches = s.sansCaches :=
  sansCaches_ite (sansCaches_ite (sansCaches_fillSlc _ l) (sansCaches_fillSlc _ l)) rfl

theorem sansCaches_dropL1 (s : State) (cl l : Nat) : (s.dropL1 cl l).sansCaches = s.sansCaches :=
  sansCaches_ite (p := s.caches.l1mod.contains (cl, l) = true) (sansCaches_l1WriteBack s l) rfl

theorem sansCaches_fillL1 (s : State) (cl l : Nat) (first : Bool) : (s.fillL1 cl l first).sansCaches = s.sansCaches := by
  unfold State.fillL1
  dsimp only [State.sansCaches]
  split
  · exact sansCaches_dropL1 ..
  · rfl

theorem sansCaches_dropRegion (s : State) (r : Nat) : (s.dropRegion r).sansCaches = s.sansCaches :=
  sansCaches_foldl (f := fun s (e : Nat × Nat) => s.dropL1 e.1 e.2) (fun s e => sansCaches_dropL1 s e.1 e.2) s _

theorem sansCaches_cacheLines (s : State) (core : Nat) (ls : List Nat) (cache hint : Nat) :
    (s.cacheLines core ls cache hint).sansCaches = s.sansCaches := by
  unfold State.cacheLines
  refine sansCaches_ite rfl ((sansCaches_foldl (fun s l => ?line) _ ls).trans ?start)
  case line =>
    exact sansCaches_ite (sansCaches_fillSlc s l) (sansCaches_ite ((sansCaches_fillL1 ..).trans (sansCaches_fillSlc s l))
      ((sansCaches_fillL1 ..).trans (sansCaches_fillSlc s l)))
  case start =>
    split
    · rfl
    · exact sansCaches_ite ((sansCaches_dropRegion ..).trans (sansCaches_choose s 2)) (sansCaches_choose s 2)

theorem sansCaches_touchLine (s : State) (core : Option Nat) (unc : Bool) (pa n l : Nat) :
    (s.touchLine core unc pa n l).sansCaches = s.sansCaches := by
  have hback : State.sansCaches (if s.caches.l1mod.any fun e => e.2 == l && core.map (· / 32) != some e.1 then s.l1WriteBack l else s)
      = s.sansCaches := sansCaches_ite (sansCaches_l1WriteBack s l) rfl
  unfold State.touchLine
  dsimp only
  split
  · exact hback
  · split
    · exact sansCaches_ite (sansCaches_ite hback hback) (sansCaches_ite
        (sansCaches_ite ((sansCaches_fillSlc ..).trans hback) ((sansCaches_fillSlc ..).trans hback)) hback)
    · exact sansCaches_ite
        (sansCaches_ite ((sansCaches_fillSlc ..).trans hback) ((sansCaches_fillSlc ..).trans hback)) hback

theorem sansCaches_touchLines (s : State) (core : Option Nat) (unc : Bool) (pa n : Nat) :
    (s.touchLines core unc pa n).sansCaches = s.sansCaches :=
  sansCaches_foldl (fun s l => sansCaches_touchLine s core unc pa n l) s _

section
variable (s : State) (th : Thread) (o : Nat) (bs : List Byte)

/-- A write of a stack changes the thread's stack, and nothing else but the caches. -/
theorem writeStack_eq : ∃ c p r, s.writeStack th o bs
    = State.modThread { s with caches := c, poison := p, oracle := r } th.id fun x => { x with stk := stackStore x.stk o bs } := by
  obtain ⟨c, p, r, h⟩ := eq_of_sansCaches (sansCaches_touchLines s (s.cacheCore th) false (stackPa th.id o) bs.length)
  exact ⟨c, p, r, by rw [State.writeStack, h]⟩

@[simp] theorem writeStack_mem : (s.writeStack th o bs).mem = s.mem := by
  obtain ⟨_, _, _, h⟩ := writeStack_eq s th o bs
  rw [h]; rfl

@[simp] theorem writeStack_groups : (s.writeStack th o bs).groups = s.groups := by
  obtain ⟨_, _, _, h⟩ := writeStack_eq s th o bs
  rw [h]; rfl

@[simp] theorem writeStack_launches : (s.writeStack th o bs).launches = s.launches := by
  obtain ⟨_, _, _, h⟩ := writeStack_eq s th o bs
  rw [h]; rfl

theorem writeStack_threads : (s.writeStack th o bs).threads
    = (s.modThread th.id fun x => { x with stk := stackStore x.stk o bs }).threads := by
  obtain ⟨_, _, _, h⟩ := writeStack_eq s th o bs
  rw [h]; rfl

theorem thread?_writeStack_self {x : Thread} (h : s.thread? th.id = some x) :
    (s.writeStack th o bs).thread? th.id = some { x with stk := stackStore x.stk o bs } := by
  rw [State.thread?, writeStack_threads]
  exact thread?_modThread_self _ (fun _ => rfl) h

theorem thread?_writeStack_ne {u : Nat} (h : u ≠ th.id) : (s.writeStack th o bs).thread? u = s.thread? u := by
  rw [State.thread?, writeStack_threads]
  exact thread?_modThread_ne _ (fun _ => rfl) h

end

theorem sansCaches_readStack (s : State) (th : Thread) (o n hint : Nat) :
    (s.readStack th o n hint).1.sansCaches = s.sansCaches := by
  unfold State.readStack
  split
  · rfl
  · dsimp only
    split
    · exact sansCaches_cacheLines ..
    · rfl

section
variable (s : State) (th : Thread) (o n hint : Nat)

@[simp] theorem readStack_mem : (s.readStack th o n hint).1.mem = s.mem := eq_of_sansCaches_eq State.mem (sansCaches_readStack s th o n hint)

@[simp] theorem readStack_threads : (s.readStack th o n hint).1.threads = s.threads :=
  eq_of_sansCaches_eq State.threads (sansCaches_readStack s th o n hint)

@[simp] theorem readStack_groups : (s.readStack th o n hint).1.groups = s.groups :=
  eq_of_sansCaches_eq State.groups (sansCaches_readStack s th o n hint)

@[simp] theorem readStack_thread? (u : Nat) : (s.readStack th o n hint).1.thread? u = s.thread? u := by
  rw [State.thread?, readStack_threads, State.thread?]

end

theorem readStack_of_sound {s : State} {th : Thread} {o n : Nat} (h : s.stackBad th.id o n = false) (hint : Nat) :
    s.readStack th o n hint = ((s.readStack th o n hint).1, .ok (stackLoad th.id th.stk o n)) := by
  rw [State.readStack, h]
  rfl

/-! ### What ends with an owner's requests (20 R414) -/

@[simp] theorem farDrop_mem (s : State) (o to_ : Owner) : (s.farDrop o to_).mem = s.mem := by rw [farDrop_eq]
@[simp] theorem farDrop_threads (s : State) (o to_ : Owner) : (s.farDrop o to_).threads = s.threads := by rw [farDrop_eq]
@[simp] theorem farDrop_groups (s : State) (o to_ : Owner) : (s.farDrop o to_).groups = s.groups := by rw [farDrop_eq]
@[simp] theorem farDrop_launches (s : State) (o to_ : Owner) : (s.farDrop o to_).launches = s.launches := by rw [farDrop_eq]

/-! ### What a member that has executed its instruction keeps (01 R27) -/

theorem executed_eq {s : State} {th : Thread} (hu : th.unit ≠ .intersection) : s.executed th
    = if th.relAt.isSome then (s.farDrop (.thread th.id)).modThread th.id fun x => { x with relAt := none }
      else s.farDrop (.thread th.id) := by
  rw [State.executed, tick_eq_self hu]

section
variable {s : State} {th : Thread} (hu : th.unit ≠ .intersection)
include hu

theorem executed_mem : (s.executed th).mem = s.mem := by rw [executed_eq hu]; split <;> simp
theorem executed_groups : (s.executed th).groups = s.groups := by rw [executed_eq hu]; split <;> simp

theorem thread?_executed_self {x : Thread} (h : s.thread? th.id = some x) :
    ∃ r, (s.executed th).thread? th.id = some { x with relAt := r } := by
  rw [executed_eq hu]
  split
  · exact ⟨none, thread?_modThread_self _ (fun _ => rfl) ((thread?_farDrop ..).trans h)⟩
  · exact ⟨x.relAt, (thread?_farDrop ..).trans h⟩

end

/-! ### Writes of physical memory (08 R206) -/

theorem notify_eq (s : State) (pa n : Nat) : ∃ qs, s.notify pa n = { s with queues := qs } := by
  unfold State.notify
  split
  · exact ⟨s.queues, rfl⟩
  · generalize List.range 64 = l
    suffices ∀ t : State, (∃ qs, t = { s with queues := qs }) → ∃ qs, l.foldl (fun t q =>
        let d := (t.img.qdesc.getD q 0).toNat
        if meets pa n (d + 0x68) 8 then
          let e : Event := { kind := 1, datum := BitVec.ofNat 64 (ofBytes (t.mem.load (d + 0x68) 8)) }
          { t with queues := t.queues.modify q fun x =>
              if x.events.any (fun y => y.kind == 1) then
                { x with events := x.events.map fun y => if y.kind == 1 then e else y }
              else { x with events := x.events ++ [e] } }
        else t) t = { s with queues := qs } from this s ⟨s.queues, rfl⟩
    induction l with
    | nil => exact fun t h => h
    | cons q l ih =>
      rintro _ ⟨qs, rfl⟩
      rw [List.foldl_cons]
      refine ih _ ?_
      dsimp only
      split
      · exact ⟨_, rfl⟩
      · exact ⟨qs, rfl⟩

/-- A write of physical memory outside the access table stores its bytes; besides, only caches, the code-write log and the event lists
of queues change. -/
theorem writePhys_eq {s : State} {pa : Nat} (h : ¬(tableBase ≤ pa ∧ pa < tableBase + 8192)) (core : Option Nat) (bs : List Byte)
    (unc : Bool) : ∃ c p r code qs, s.writePhys core pa bs unc
      = { s with mem := s.mem.store pa bs, caches := c, poison := p, oracle := r, code := code, queues := qs } := by
  have hs : (if unc then (s.touchLines core unc pa bs.length).throughDirty pa bs else s.touchLines core unc pa bs.length).sansCaches
      = s.sansCaches := sansCaches_ite (sansCaches_touchLines ..) (sansCaches_touchLines ..)
  obtain ⟨c, p, r, hs⟩ := eq_of_sansCaches hs
  unfold State.writePhys
  rw [if_neg (by simpa using h)]
  dsimp only
  rw [hs]
  obtain ⟨qs, hq⟩ := notify_eq { s with
    caches := c, poison := p, oracle := r, mem := s.mem.store pa bs
    code := ((List.range bs.length).map fun i => { pa := pa + i, old := s.mem.read (pa + i) }) ++ s.code } pa bs.length
  exact ⟨c, p, r, _, qs, hq⟩

end Sys2Proof.Machine
end

section
/-! SUPPORT. Traps and their handlers (17 R361 to R379): the frame and its fields, the entry, escalation, RTE, the indexed operands of a
handler, regions and YIELD. -/

namespace Sys2Proof.Machine

/-! ### The trap frame (17 R362) -/

theorem length_iwords (ws : List Word) : (iwords ws).length = 20 := by simp [iwords]

theorem field_iwords (ws : List Word) {i : Nat} (h : i < 5) :
    BitVec.ofNat 32 (field (iwords ws) (4 * i) 4) = ws.getD i 0 := by
  rw [iwords, field_take (by omega), wordsBytes, field_flatMap_toBytes, List.getD_eq_getElem?_getD]
  cases ws[i]? with
  | none => rfl
  | some w => exact ofNat_toNat_mod_32 w

theorem Cause.code_lt (c : Cause) : c.code < 256 := by cases c <;> decide

theorem Thread.p_lt (th : Thread) : th.p.toNat < 256 ^ 2 := Nat.lt_trans th.p.isLt (by decide)

section
variable (th : Thread) (tr : Trap)

/-- The frame's registers v0 to v7, zero beyond the allocation. -/
def Thread.frameRegs (i : Nat) : Word := if i < th.alloc then th.getV (BitVec.ofNat 8 i) else 0

/-- The frame up to IWORDS. -/
def Thread.frameHead : List Byte :=
  toBytes 1 tr.cause.code ++ (toBytes 1 ((if tr.defer then 1 else 0) + (if th.sup then 2 else 0)) ++ (toBytes 2 0
    ++ (toBytes 4 th.cnt.word.toNat ++ (toBytes 2 th.p.toNat ++ (toBytes 2 0 ++ (toBytes 4 th.status.toNat
    ++ (toBytes 8 tr.pc.toNat ++ (toBytes 8 th.pc.toNat ++ toBytes 8 tr.addr.toNat))))))))

theorem length_frameHead : (th.frameHead tr).length = 0x28 := by
  simp only [Thread.frameHead, List.length_append, length_toBytes]

theorem frame_eq : th.frame tr = th.frameHead tr ++ (iwords tr.words ++ ((toBytes 4 tr.detail.toNat ++ toBytes 16 0)
    ++ ((List.range 8).flatMap (fun i => toBytes 4 (th.frameRegs i).toNat) ++ (toBytes 8 th.y0.toNat ++ toBytes 8 th.y1.toNat)))) := by
  simp only [Thread.frame, Thread.frameHead, Thread.frameRegs, List.append_assoc, apply_ite BitVec.toNat, BitVec.ofNat_eq_ofNat,
    BitVec.toNat_ofNat, Nat.zero_mod]

theorem length_frame : (th.frame tr).length = 128 := by
  simp only [frame_eq, List.length_append, length_frameHead, length_toBytes, length_iwords, length_flatMap_toBytes, List.length_range]

theorem field_frame_head {o n : Nat} (h : o + n ≤ 0x28) : field (th.frame tr) o n = field (th.frameHead tr) o n := by
  rw [frame_eq, field_append_left (by rw [length_frameHead]; exact h)]

theorem field_frame_words {o n : Nat} (h : o + n ≤ 20) : field (th.frame tr) (0x28 + o) n = field (iwords tr.words) o n := by
  rw [frame_eq, field_append_add (length_frameHead th tr), field_append_left (by rw [length_iwords]; exact h)]

theorem field_frame_detail : field (th.frame tr) 0x3C 4 = tr.detail.toNat % 256 ^ 4 := by
  rw [frame_eq, field_append_add (k := 0x28) (o := 20) (length_frameHead th tr), field_append_add (o := 0) (length_iwords _),
    field_append_left (by simp [length_toBytes]), field_append_left (by simp [length_toBytes]), field_toBytes_self]

theorem field_frame_regs (o n : Nat) : field (th.frame tr) (0x50 + o) n
    = field ((List.range 8).flatMap (fun i => toBytes 4 (th.frameRegs i).toNat) ++ (toBytes 8 th.y0.toNat ++ toBytes 8 th.y1.toNat)) o n := by
  rw [frame_eq, show 0x50 + o = 0x28 + (20 + (20 + o)) by omega, field_append_add (length_frameHead th tr),
    field_append_add (length_iwords _), field_append_add (by simp [length_toBytes])]

theorem word_frame_reg {i : Nat} (h : i < 8) : word (th.frame tr) (0x50 + 4 * i) = th.frameRegs i := by
  have hf := field_flatMap_toBytes 4 (fun i => (th.frameRegs i).toNat) (List.range 8) i 0
  rw [List.replicate_zero, List.append_nil, List.getElem?_range h] at hf
  rw [word, field_frame_regs, field_append_left (by rw [length_flatMap_toBytes, List.length_range]; omega), hf]
  exact ofNat_toNat_mod_32 _

theorem field_frame_y (o n : Nat) : field (th.frame tr) (0x70 + o) n = field (toBytes 8 th.y0.toNat ++ toBytes 8 th.y1.toNat) o n := by
  rw [show 0x70 + o = 0x50 + (32 + o) by omega, field_frame_regs, field_append_add (by rw [length_flatMap_toBytes, List.length_range])]

/-- What stands where in the frame. -/
theorem frame_fields :
    field (th.frame tr) 0 1 = tr.cause.code ∧ field (th.frame tr) 1 1 = (if tr.defer then 1 else 0) + (if th.sup then 2 else 0)
    ∧ word (th.frame tr) 4 = th.cnt.word ∧ field (th.frame tr) 8 2 = th.p.toNat ∧ word (th.frame tr) 0xC = th.status
    ∧ dword (th.frame tr) 0x10 = tr.pc ∧ dword (th.frame tr) 0x18 = th.pc ∧ dword (th.frame tr) 0x20 = tr.addr := by
  simp (disch := simp [length_toBytes]) only [word, dword, field_frame_head, Thread.frameHead, field_append_right, field_append_left,
    length_toBytes, field_toBytes_self, ofNat_toNat_mod_32, ofNat_toNat_mod_64, Nat.reduceSub]
  refine ⟨Nat.mod_eq_of_lt (by simpa using tr.cause.code_lt), ?_, trivial, Nat.mod_eq_of_lt th.p_lt, by simp only [and_self]⟩
  split <;> split <;> rfl

end

/-! ### Taking a trap (17 R363, R369, R370) -/

section
variable {s : State} {th : Thread} (tr : Trap) (h : s.thread? th.id = some th) (hr : ∀ a n, th.region ≠ .opened a n)
include h hr

/-- What a trap does for a thread without an OPEN region that is not on an intersection core. -/
theorem trap_eq (hu : th.unit ≠ .intersection) : s.trap th.id tr =
    if th.tstate.getLsbD 0 then s.escalate th.id tr true
    else if (if tr.cause == .svc then s.img.kvec else s.tvec th) == 0 || s.tframe th == 0 then s.escalate th.id tr false
    else s.enter th tr (if tr.cause == .svc then s.img.kvec else s.tvec th) := by
  simp only [State.trap, closeRegion_none h hr, h]

theorem trap_of_intersection (hu : th.unit = .intersection) : s.trap th.id tr = s.escalate th.id tr false := by
  simp only [State.trap, closeRegion_none h hr, h, hu]

end

/-- A thread as its trap leaves it, with its frame in its stack from byte o on. -/
def Thread.entered (th : Thread) (tr : Trap) (vec : Dword) (o : Nat) : Thread :=
  { th with
    stk := stackStore th.stk o (th.frame tr)
    pend := th.pend.filter fun y => y.order != tr.order
    relAt := none
    ready := none
    tstate := BitVec.ofNat 32 (tr.cause.code * 256 + (if th.sup then 2 else 0) + 1)
    sup := th.sup || tr.cause == .svc
    pc := vec
    hold := .none }

/-- The entry of a device thread whose frame can be written: the thread changes, and nothing else but caches and requests. -/
theorem enter_device {s : State} {th : Thread} (tr : Trap) (vec : Dword) (h : s.thread? th.id = some th) (hu : th.unit = .device)
    (hb : s.stackBad th.id (s.tframe th - s.img.stkBase).toNat 128 = false) :
    (s.enter th tr vec).thread? th.id = some (th.entered tr vec (s.tframe th - s.img.stkBase).toNat)
    ∧ (∀ u, u ≠ th.id → (s.enter th tr vec).thread? u = s.thread? u) ∧ (s.enter th tr vec).mem = s.mem
    ∧ (s.enter th tr vec).groups = s.groups ∧ (s.enter th tr vec).launches = s.launches := by
  have hw : s.frameWrite th (th.frame tr) = (s.writeStack th (s.tframe th - s.img.stkBase).toNat (th.frame tr), .ok ()) := by
    simp only [State.frameWrite, hu, length_frame, hb, Bool.false_eq_true, if_false]
  rw [State.enter, hw]
  dsimp only
  refine ⟨?_, fun u hu => ?_, ?_, ?_, ?_⟩
  · rw [thread?_modThread_self (th := { th with stk := stackStore th.stk (s.tframe th - s.img.stkBase).toNat (th.frame tr) })]
    · simp only [Thread.entered]
    · exact fun _ => rfl
    · rw [thread?_farDrop, thread?_writeStack_self _ _ _ _ h]
  · rw [thread?_modThread_ne _ (by exact fun _ => rfl) hu, thread?_farDrop, thread?_writeStack_ne _ _ _ _ hu]
  · rw [modThread_mem, farDrop_mem, writeStack_mem]
  · rw [modThread_groups, farDrop_groups, writeStack_groups]
  · rw [modThread_launches, farDrop_launches, writeStack_launches]

/-- Settles O29: the trap is an entry, whose frame is what the stack then holds; the frame's fields are those of its parts. -/
theorem trapEntersTheHandler : Obligations.TrapEntersTheHandler := by
  refine ⟨fun s th tr h hu hr hn hf hb hv => ?enters, fun th tr => ?fields⟩
  case enters =>
    have ht : s.trap th.id tr = s.enter th tr (if tr.cause = .svc then s.img.kvec else s.tvec th) := by
      simp only [trap_eq tr h hr (by simp [hu]), hn, Bool.false_eq_true, if_false, beq_iff_eq, hv, hf, Bool.or_eq_true, or_self]
    rw [ht]
    obtain ⟨hth, hrest⟩ := enter_device tr (if tr.cause = .svc then s.img.kvec else s.tvec th) h hu hb
    have hstk := stackLoad_stackStore th.id th.stk (s.tframe th - s.img.stkBase).toNat (th.frame tr)
    rw [length_frame] at hstk
    refine ⟨⟨_, hth, rfl, rfl, rfl, ?_, rfl, rfl, rfl, rfl, rfl, rfl, rfl, rfl, rfl⟩, hrest⟩
    simpa only [Thread.entered] using hstk
  case fields =>
    obtain ⟨hcause, hflags, hcnt, hp, hstatus, htpc, hpc, haddr⟩ := frame_fields th tr
    refine ⟨length_frame th tr, hcause, hflags, hcnt, hp, hstatus, htpc, hpc, haddr, fun i hi => ?_, ?_,
      fun i hi => word_frame_reg th tr hi, ?_, ?_⟩
    · rw [word, field_frame_words th tr (by omega), field_iwords _ hi]
    · rw [word, field_frame_detail, ofNat_toNat_mod_32]
    · rw [dword, field_frame_y th tr 0, field_append_left (by simp [length_toBytes]), field_toBytes_self, ofNat_toNat_mod_64]
    · rw [dword, field_frame_y th tr 8, field_append_add (o := 0) (length_toBytes ..), field_toBytes_self, ofNat_toNat_mod_64]

section
variable {s : State} {th : Thread} (h : s.thread? th.id = some th) (tr : Trap) (nested : Bool)
include h

theorem escalate_of_service (hu : th.unit = .service) : s.escalate th.id tr nested
    = State.logEntry (s.modThread th.id fun x => { x with halted := some tr, nested := nested, haltAt := s.cycle, pend := [] })
      (.firmwareHalt th.tid) := by
  simp only [State.escalate, h, hu]

theorem escalate_of_intersection (hu : th.unit = .intersection) : s.escalate th.id tr nested
    = s.modThread th.id fun x => { x with halted := some tr, nested := nested, haltAt := s.cycle, pend := [] } := by
  simp only [State.escalate, h, hu]

theorem escalate_of_device (hu : th.unit = .device) : s.escalate th.id tr nested
    = State.settleGroup (s.modThread th.id fun x => { x with halted := some tr, nested := nested, haltAt := s.cycle, pend := [] })
      th.group := by
  simp only [State.escalate, h, hu]

end

theorem settleGroup_of_unsettled {s : State} {g : Nat} (h : s.settled g = false) : s.settleGroup g = s := by
  rw [State.settleGroup, h]
  rfl

theorem collectProgram_of_halted {s : State} {r : Ray} {th : Thread} {tr : Trap} (hp : r.prog = some th.id)
    (h : s.thread? th.id = some th) (ht : th.halted = some tr) :
    s.collectProgram r = s.endProgram th (.fault tr.cause.code (progAddr tr)) := by
  simp only [State.collectProgram, hp, Option.bind_some, h, ht]

theorem rayStatus_ask_of_fault {x : RayRun} {reason : Nat} {a : Dword} {vs : List Verdict} (h : x.verdicts = .fault reason a :: vs)
    (cluster : Nat) (c : Cand) : rayStatus (x.ask cluster c) = some (6, reason, a) := by
  simp only [RayRun.ask, h, RayRun.halt, rayStatus]

/-- Settles O30: without a handler a trap is an escalation, which halts the thread; a program's halt is the verdict at which its walk
ends. -/
theorem trapWithoutHandlerHalts : Obligations.TrapWithoutHandlerHalts := by
  refine ⟨fun s th tr h hu hr => ⟨fun hn => ?nested, fun hn hv => ?unhandled⟩,
    fun s th tr nested h => ⟨fun hu hs => ?device, fun hu => ?service⟩, fun s th tr h hu hr => ?intersection,
    fun s r th tr hp h ht => collectProgram_of_halted hp h ht, fun x cluster reason c a vs h => rayStatus_ask_of_fault h cluster c⟩
  case nested => rw [trap_eq tr h hr hu, if_pos hn]
  case unhandled =>
    have hz : ((if tr.cause == .svc then s.img.kvec else s.tvec th) == 0 || s.tframe th == 0) = true := by simpa using hv
    rw [trap_eq tr h hr hu, if_neg (by simp only [hn, Bool.false_eq_true, not_false_iff]), if_pos hz]
  case device => exact (escalate_of_device h tr nested hu).trans (settleGroup_of_unsettled hs)
  case service => exact escalate_of_service h tr nested hu
  case intersection => exact (trap_of_intersection tr h hr hu).trans (escalate_of_intersection h tr false hu)

/-! ### RTE (17 R366) -/

theorem ownFrame_of_sound {s : State} {th : Thread} {o n : Nat} (hu : th.unit = .device) (hw : th.writing = false)
    (hb : s.stackBad th.id ((s.tframe th - s.img.stkBase).toNat + o) n = false) :
    s.ownFrame th o n = ((s.readStack th ((s.tframe th - s.img.stkBase).toNat + o) n).1,
      .ok (stackLoad th.id th.stk ((s.tframe th - s.img.stkBase).toNat + o) n)) := by
  simp only [State.ownFrame, hu, hw, State.frameRead, Bool.false_eq_true, if_false]
  rw [readStack_of_sound hb]

/-- What RTE does with a frame that it has read. -/
theorem rteOne_of_sound {s : State} {th : Thread} (x : Desc) (ht : th.tstate.getLsbD 0 = true) (hu : th.unit = .device)
    (hbusy : th.busy (List.range 8) = false) (hflags : th.flagsDue = false) (hw : th.writing = false)
    (hb : s.stackBad th.id (s.tframe th - s.img.stkBase).toNat 128 = false) :
    let s1 := (s.readStack th (s.tframe th - s.img.stkBase).toNat 128).1
    let fr := stackLoad th.id th.stk (s.tframe th - s.img.stkBase).toNat 128
    rteOne x s th = if !frameOk fr then .trap s1 .desc 0 0
      else match s.targetTrap th (rteTarget (x.w2.getLsbD 0) fr) with
        | some c => .trap s1 c (rteTarget (x.w2.getLsbD 0) fr) 0
        | none => .jump (s1.modThread th.id fun y => y.restore fr (rteTarget (x.w2.getLsbD 0) fr)) := by
  obtain ⟨c, p, r, hs⟩ := eq_of_sansCaches (sansCaches_readStack s th (s.tframe th - s.img.stkBase).toNat 128 0)
  simp only [rteOne, ht, hbusy, hflags, ownFrame_of_sound (o := 0) hu hw hb, Bool.not_true, Bool.or_self, Bool.false_eq_true, if_false,
    Own.res, Nat.add_zero]
  rw [hs]
  rfl

/-- The thread that RTE restores: its y, predicates, status, mode, TSTATE and PC, with v0 to v7 within its allocation. -/
theorem restore_fields (th : Thread) (fr : List Byte) (target : Dword) :
    (∃ v, th.restore fr target = { th with
      v := v, y0 := dword fr 0x70, y1 := dword fr 0x78, p := BitVec.ofNat 7 (field fr 8 2), status := word fr 0xC &&& 0x31F#32
      sup := th.sup && (field fr 1 1).testBit 1, tstate := 0, pc := target })
    ∧ ∀ n : BitVec 8, (th.restore fr target).getV n
      = if n.toNat < 8 ∧ n.toNat < th.alloc then word fr (0x50 + 4 * n.toNat) else th.getV n := by
  obtain ⟨⟨v, hv⟩, hget⟩ := foldl_setV (b := 0) (f := fun i => word fr (0x50 + 4 * i)) (c := fun i => i < th.alloc)
    (g := fun x i => if i < th.alloc then x.setV (BitVec.ofNat 8 i) (word fr (0x50 + 4 * i)) else x)
    (fun x i => by rw [BitVec.ofNat_eq_ofNat, BitVec.zero_add]) th (k := 8) (by decide)
  refine ⟨⟨v, ?_⟩, fun n => ?_⟩
  · rw [Thread.restore, hv]
  · simpa [Thread.getV, Thread.restore] using hget n

theorem restore_id (th : Thread) (fr : List Byte) (target : Dword) : (th.restore fr target).id = th.id := by
  obtain ⟨⟨v, hv⟩, -⟩ := restore_fields th fr target
  rw [hv]

/-- Settles O31: RTE reads the frame, checks it and its target, and restores what the frame holds. -/
theorem returnFromTrapRestores : Obligations.ReturnFromTrapRestores := by
  refine fun x s th h => ⟨fun ht => ?outside, fun ht hu hbusy hflags hw => ?inside⟩
  case outside => exact trapsTo_of_exec_runTeam h (exec_rte s x) (by simp only [rteOne, ht, Bool.not_false, if_true])
  case inside =>
    intro base hb fr s1 target
    have hone : rteOne x s th = if !frameOk fr then .trap s1 .desc 0 0
        else match s.targetTrap th target with
          | some c => .trap s1 c target 0
          | none => .jump (s1.modThread th.id fun y => y.restore fr target) := rteOne_of_sound x ht hu hbusy hflags hw hb
    have hwait : th.frameWaits = false := by simp only [Thread.frameWaits, hbusy, hflags, Bool.or_self, Bool.and_false]
    have hexec := (exec_rte s x).trans (runTeam_alone (fun _ s1 th => rteOne x s1 th) h)
    refine ⟨fun hf => ?_, fun c hf hc => ?_, fun hf hc => ?_⟩
    · rw [hexec, hone]
      simp only [hf, hwait, Bool.not_false, if_true, Bool.false_eq_true, if_false]
    · rw [hexec, hone]
      simp only [hf, hc, hwait, Bool.not_true, Bool.false_eq_true, if_false]
    · have hne : th.unit ≠ .intersection := by simp [hu]
      have hth : (s1.modThread th.id fun y => y.restore fr target).thread? th.id = some (th.restore fr target) :=
        thread?_modThread_self _ (fun x => restore_id x fr target) ((readStack_thread? ..).trans h.2.here)
      obtain ⟨⟨v, hv⟩, hget⟩ := restore_fields th fr target
      obtain ⟨q, hq⟩ := thread?_executed_self hne hth
      refine ⟨State.executed (s1.modThread th.id fun y => y.restore fr target) th, _, ?_, hq, ?_⟩
      · rw [hexec, hone]
        simp only [hf, hc, Bool.not_true, Bool.false_eq_true, if_false]
      · refine ⟨?_, ?_, ?_, ?_, ?_, ?_, ?_, hget, ?_, ?_, ?_, ?_, ?_⟩
        case refine_11 => rw [executed_mem hne, modThread_mem, readStack_mem]
        case refine_12 => rw [executed_groups hne, modThread_groups, readStack_groups]
        all_goals rw [hv]

/-! ### MOVIX and SETIX (17 R367, R368) -/

theorem isLit_of_frameAt {o : Opnd} {off : Nat} (h : frameAt o = some off) : isLit o = false := by
  cases o with
  | lit | litLo | litHi => cases h
  | _ => rfl

section
variable {x : Desc} {a : Word} {b : Dword} {ctx : Bool} {s : State} {th : Thread} {o : Opnd} {w off : Nat}

theorem movixGo_of_unnamed (h : indexOperand a = none) : movixGo x a ctx s th = .trap s .range 0 0 := by
  simp only [movixGo, h]

theorem movixGo_of_refused (h : indexOperand a = some (o, w))
    (hr : indexRange o w th.alloc (s.uniforms th) = true ∨ isLit o = true ∧ ctx = false) :
    movixGo x a ctx s th = .trap s .range 0 0 := by
  have : (indexRange o w th.alloc (s.uniforms th) || (isLit o && !ctx)) = true := by simpa using hr
  simp only [movixGo, h, this, if_true]

/-- A live operand, delivered at its width. -/
theorem movixGo_of_live (h : indexOperand a = some (o, w)) (hr : indexRange o w th.alloc (s.uniforms th) = false)
    (hl : isLit o = false) (hf : (if ctx then frameAt o else none) = none) (hs : th.stalled [.src o w] = false) :
    movixGo x a ctx s th = .done (s.result th.id x.d 64
      ((if w == 32 then s.src th 0 o w &&& 0xFFFFFFFF#64 else s.src th 0 o w).setWidth 128)) := by
  simp only [movixGo, h, hr, hl, hf, hs, Bool.or_self, Bool.false_and, Bool.false_eq_true, if_false]

/-- The frame's copy of an operand. -/
theorem movixGo_of_frame (h : indexOperand a = some (o, w)) (hr : indexRange o w th.alloc (s.uniforms th) = false)
    (hf : frameAt o = some off) (hu : th.unit = .device) (hw : th.writing = false)
    (hb : s.stackBad th.id ((s.tframe th - s.img.stkBase).toNat + off) (w / 8) = false) :
    let v : Dword := BitVec.ofNat 64 (ofBytes (stackLoad th.id th.stk ((s.tframe th - s.img.stkBase).toNat + off) (w / 8)))
    movixGo x a true s th = .done ((s.readStack th ((s.tframe th - s.img.stkBase).toNat + off) (w / 8)).1.result th.id x.d 64
      ((if w == 32 then v &&& 0xFFFFFFFF#64 else v).setWidth 128)) := by
  simp only [movixGo, h, hr, isLit_of_frameAt hf, hf, ownFrame_of_sound hu hw hb, Own.res, Bool.or_self, Bool.false_and,
    Bool.false_eq_true, if_false, if_true]

/-- A literal code in a handler: the literal of the frame's instruction words, when they have one. -/
theorem movixGo_of_literal (h : indexOperand a = some (o, w)) (hl : isLit o = true) (hu : th.unit = .device) (hw : th.writing = false)
    (hb : s.stackBad th.id ((s.tframe th - s.img.stkBase).toNat + 0x28) 20 = false) :
    let s1 := (s.readStack th ((s.tframe th - s.img.stkBase).toNat + 0x28) 20).1
    movixGo x a true s th
      = match frameLit (stackLoad th.id th.stk ((s.tframe th - s.img.stkBase).toNat + 0x28) 20) with
        | none => .trap s1 .range 0 0
        | some l => .done (s1.result th.id x.d 64
          ((if w == 32 then s1.src th l o w &&& 0xFFFFFFFF#64 else s1.src th l o w).setWidth 128)) := by
  have hr : indexRange o w th.alloc (s.uniforms th) = false := by
    cases o with
    | lit | litLo | litHi => rfl
    | _ => cases hl
  simp only [movixGo, h, hr, hl, ownFrame_of_sound hu hw hb, Own.res, Bool.not_true, Bool.and_false, Bool.or_self,
    Bool.false_eq_true, if_false, if_true] <;> rfl

theorem setixGo_of_unnamed (h : indexOperand a = none) : setixGo x a b ctx s th = .trap s .range 0 0 := by
  simp only [setixGo, h]

/-- An operand that SETIX does not write. -/
theorem setixGo_of_refused (h : indexOperand a = some (o, w))
    (hr : isLit o = true ∨ (∃ b, o = .imm b) ∨ (ctx = false ∧ (o = .y0 ∨ o = .y1))) :
    setixGo x a b ctx s th = .trap s .range 0 0 := by
  rw [setixGo, h]
  refine if_pos ?_
  obtain hl | ⟨i, rfl⟩ | ⟨rfl, rfl | rfl⟩ := hr
  · simp only [hl, Bool.or_true, Bool.true_or]
  all_goals simp only [Bool.not_false, Bool.or_true, Bool.true_or]

theorem setixGo_outside (ht : th.tstate.getLsbD 0 = false) : setixGo x a b true s th = .trap s .range 0 0 := by
  rw [setixGo]
  split
  · rfl
  · exact if_pos (by simp only [ht, Bool.not_false, Bool.and_true, Bool.or_true])

/-- A live register. -/
theorem setixGo_of_live (h : indexOperand a = some (o, w)) (hr : indexRange o w th.alloc (s.uniforms th) = false)
    (hl : isLit o = false) (hi : ∀ b, o ≠ .imm b) (hy : ctx = false → o ≠ .y0 ∧ o ≠ .y1)
    (ht : ctx = true → th.tstate.getLsbD 0 = true) (hf : (if ctx then frameAt o else none) = none)
    (hs : th.stalled [.dst o w] = false) :
    setixGo x a b ctx s th = .done (s.deliver th.id o w ((if w == 32 then b &&& 0xFFFFFFFF#64 else b).setWidth 128)) := by
  have hc : (ctx && !th.tstate.getLsbD 0) = false := by
    cases ctx
    · rfl
    · simp only [ht rfl, Bool.not_true, Bool.and_false]
  rw [setixGo, h]
  simp only [hf, hs, hc, hr, hl, Bool.or_false, Bool.false_or, Bool.false_eq_true, if_false]
  refine if_neg ?_
  cases o with
  | imm b => exact absurd rfl (hi b)
  | y0 | y1 => cases ctx <;> simp_all
  | _ => exact Bool.false_ne_true

/-- The frame's copy of a register. -/
theorem setixGo_of_frame (h : indexOperand a = some (o, w)) (hr : indexRange o w th.alloc (s.uniforms th) = false)
    (hf : frameAt o = some off) (hu : th.unit = .device) (ht : th.tstate.getLsbD 0 = true)
    (hd : s.stackDead th.id ((s.tframe th - s.img.stkBase).toNat + off) (if off < 0x70 then w / 8 else 8) = false) :
    setixGo x a b true s th = .done (s.writeStack th ((s.tframe th - s.img.stkBase).toNat + off)
      (toBytes (if off < 0x70 then w / 8 else 8) (if w == 32 then b &&& 0xFFFFFFFF#64 else b).toNat)) := by
  have hp (bs : List Byte) (hbs : bs.length = if off < 0x70 then w / 8 else 8) : s.putFrame th (.setix x) off bs
      = .done (s.writeStack th ((s.tframe th - s.img.stkBase).toNat + off) bs) := by
    simp only [State.putFrame, hu, hbs, hd, Bool.false_eq_true, if_false]
  rw [setixGo, h]
  simp only [hr, isLit_of_frameAt hf, ht, hf, hu, if_true, Bool.not_true, Bool.and_false, Bool.or_false, Bool.false_or,
    show (UnitKind.device == UnitKind.service) = false from rfl, Bool.false_eq_true, if_false]
  rw [if_neg, hp _ (length_toBytes ..)]
  cases o with
  | imm => cases hf
  | _ => exact Bool.false_ne_true

end

section
variable {x : Desc} {a : Word} {s : State} {th : Thread}

theorem movix_body_of_plain (hc : x.w2.getLsbD 0 = false) :
    (if x.w2.getLsbD 0 && !th.tstate.getLsbD 0 then Res.trap s .range 0 0 else movixGo x a (x.w2.getLsbD 0) s th)
      = movixGo x a false s th := by
  simp only [hc, Bool.false_and, Bool.false_eq_true, if_false]

theorem movix_body_of_ctx (hc : x.w2.getLsbD 0 = true) (ht : th.tstate.getLsbD 0 = true) :
    (if x.w2.getLsbD 0 && !th.tstate.getLsbD 0 then Res.trap s .range 0 0 else movixGo x a (x.w2.getLsbD 0) s th)
      = movixGo x a true s th := by
  simp only [hc, ht, Bool.not_true, Bool.and_false, Bool.false_eq_true, if_false]

theorem movix_body_outside (hc : x.w2.getLsbD 0 = true) (ht : th.tstate.getLsbD 0 = false) :
    (if x.w2.getLsbD 0 && !th.tstate.getLsbD 0 then Res.trap s .range 0 0 else movixGo x a (x.w2.getLsbD 0) s th)
      = .trap s .range 0 0 := by
  simp only [hc, ht, Bool.not_false, Bool.and_true, if_true]

end

/-- Settles O32: the two instructions go through the operand that their index names: a live one, the frame's copy of it, or none. -/
theorem indexedOperandAccess : Obligations.IndexedOperandAccess := by
  refine ⟨fun x o w => does_of_exec_runTeam (exec_movix · x) ?live, fun x o w off => does_of_exec_runTeam (exec_movix · x) ?copy,
    fun x o w => does_of_exec_runTeam (exec_setix · x) ?setLive, fun x o w off => does_of_exec_runTeam (exec_setix · x) ?setCopy,
    fun s th o bs h => ⟨thread?_writeStack_self _ _ _ _ h, writeStack_mem .., readStack_mem .., readStack_threads ..⟩,
    fun x s th h hc hi => trapsTo_of_exec_runTeam h (exec_movix s x) ((movix_body_of_plain hc).trans (movixGo_of_unnamed hi)),
    fun x s th h hi => trapsTo_of_exec_runTeam h (exec_setix s x) (setixGo_of_unnamed hi),
    fun x o w => does_of_exec_runTeam (exec_movix · x) ?other, fun x o w s th h hc hu ht hi hl hw => ?literal,
    fun x o w s th h hc hi hl => trapsTo_of_exec_runTeam h (exec_movix s x)
      ((movix_body_of_plain hc).trans (movixGo_of_refused hi (.inr ⟨hl, rfl⟩))),
    fun x o w => does_of_exec_runTeam (exec_setix · x) ?setOther,
    fun x o w s th h hi hr => trapsTo_of_exec_runTeam h (exec_setix s x) (setixGo_of_refused hi hr),
    fun x s th h hc ht => trapsTo_of_exec_runTeam h (exec_movix s x) (movix_body_outside hc ht),
    fun x s th h hc ht => trapsTo_of_exec_runTeam h (exec_setix s x) ?setOutside⟩
  case live =>
    rintro s th ⟨hc, hi, hr, hl, hs⟩
    exact (movix_body_of_plain hc).trans (movixGo_of_live hi hr hl rfl hs)
  case copy =>
    rintro s th ⟨hc, hu, ht, hi, hr, hl, hf, hw, hb⟩
    exact (movix_body_of_ctx hc ht).trans (movixGo_of_frame hi hr hf hu hw hb)
  case setLive =>
    rintro s th ⟨hc, hi, hr, hl, hm, h0, h1, hs⟩
    rw [hc]
    exact setixGo_of_live hi hr hl hm (fun _ => ⟨h0, h1⟩) (fun h => nomatch h) rfl hs
  case setCopy =>
    rintro s th ⟨hc, hu, ht, hi, hr, hf, hd⟩
    rw [hc]
    exact setixGo_of_frame hi hr hf hu ht hd
  case other =>
    rintro s th ⟨hc, ht, hi, hr, hl, hf, hs⟩
    exact (movix_body_of_ctx hc ht).trans (movixGo_of_live hi hr hl hf hs)
  case setOther =>
    rintro s th ⟨hc, ht, hi, hr, hl, hm, hf, hs⟩
    rw [hc]
    exact setixGo_of_live hi hr hl hm (fun h => nomatch h) (fun _ => ht) hf hs
  case literal =>
    intro at_ hb
    have hgo := (movix_body_of_ctx hc ht).trans (movixGo_of_literal hi hl hu hw hb)
    have hexec := (exec_movix s x).trans (runTeam_alone _ h)
    refine ⟨fun l hf => ?_, fun hf => ?_⟩
    · rw [hexec, hgo, hf]
    · rw [hexec, hgo, hf]
  case setOutside =>
    rw [hc]
    exact setixGo_outside ht

/-! ### Regions and YIELD (17 R378, R379) -/

/-- Settles O34: each of the three is one issue, and the expiry releases the thread. -/
theorem regionsAndYields : Obligations.RegionsAndYields := by
  refine ⟨fun x => does_of_exec_runTeam (exec_regionOpen · x) fun _ _ _ => rfl,
    fun x => does_of_exec_runTeam (exec_regionClose · x) fun _ _ _ => rfl,
    fun x => does_of_exec_runTeam (exec_yield · x) fun s th h0 => by simp [h0],
    fun x => holds_of_exec_runTeam (exec_yield · x) fun s th h0 => ?held, fun s th n h hh hr ht => ?expires⟩
  case held =>
    have : (s.a32 th x).toNat ≠ 0 := fun e => h0 (BitVec.eq_of_toNat_eq e)
    exact if_neg (by simp; omega)
  case expires =>
    have hid := thread?_id h
    refine ⟨s.modThread th.id fun y => y.release, th.release, ?_, thread?_modThread_self _ (fun _ => rfl) (hid ▸ h),
      rfl, rfl, rfl, rfl, rfl⟩
    simp only [exec_yieldExpiry, execYieldExpiry, h, hh, hr, ht, decide_true, Bool.and_self, if_true]

end Sys2Proof.Machine
end

section
/-! SUPPORT. The module without power, at reset, and at its start (23 R435, R436, R438). -/

namespace Sys2Proof.Machine

theorem step_of_unpowered {s : State} (hp : s.power = .off)
    (ha : ∀ dt arg rest, s.agenda ≠ (dt, .event .powerStateRequest arg) :: rest) : step s = .fault .poweredOff := by
  refine if_pos ?_
  have hhead : (s.agenda.head?.map fun x => x.2.isPower).getD false = false := by
    match hs : s.agenda with
    | [] => rfl
    | (_, .issue ..) :: _ | (_, .firmware _) :: _ => rfl
    | (dt, .event i arg) :: rest =>
      cases i with
      | powerStateRequest => exact absurd hs (ha dt arg rest)
      | _ => rfl
  rw [hp, hhead]
  rfl

theorem step_of_unbooted {s : State} (hp : s.power ≠ .off) (hb : s.booted = false) : step s = exec .moduleReset s := by
  unfold step State.step1
  simp only [hp, hb, beq_iff_eq, bne_iff_ne, Bool.and_eq_true, false_and, if_false, Bool.not_false, ne_eq, not_false_iff, and_self, if_true]

theorem trainLinks_keeps (s : State) :
    s.trainLinks.booted = s.booted ∧ s.trainLinks.mem = s.mem ∧ s.trainLinks.flash = s.flash := by
  have h := sansCaches_choose s (2 ^ 28)
  unfold State.trainLinks
  generalize s.choose (2 ^ 28) = q at h
  exact ⟨eq_of_sansCaches_eq (t := q.2) State.booted h, eq_of_sansCaches_eq (t := q.2) State.mem h,
    eq_of_sansCaches_eq (t := q.2) State.flash h⟩

/-- What a start keeps of the module: memory and flash, as in a module that is started. -/
def State.StartedFrom (s t : State) : Prop := t.booted = true ∧ t.mem = s.mem ∧ t.flash = s.flash

/-- Whatever the images hold, the start leaves the module started, with memory and flash as they were. -/
theorem exec_moduleReset_starts (s : State) : ∃ t, exec .moduleReset s = .next t ∧ s.StartedFrom t := by
  have hlog (slot0 slot1 : Option Nat) : s.StartedFrom { (match slot1 with
      | some r => State.logEntry (match slot0 with
        | some r => s.cleared.logEntry (.bootReject 0 r)
        | none => s.cleared) (.bootReject 1 r)
      | none => match slot0 with
        | some r => s.cleared.logEntry (.bootReject 0 r)
        | none => s.cleared) with booted := true } := by
    cases slot0 <;> cases slot1 <;> exact ⟨rfl, rfl, rfl⟩
  rw [exec_moduleReset, execModuleReset]
  dsimp only
  split
  · exact ⟨_, rfl, hlog ..⟩
  · obtain ⟨hb, hm, hf⟩ := hlog (imageFault s.flash.slot0) (imageFault s.flash.slot1)
    obtain ⟨kb, km, kf⟩ := trainLinks_keeps _
    exact ⟨_, rfl, kb.trans hb, km.trans hm, kf.trans hf⟩

/-- Settles O6: a step asks first for power, then for the start. -/
theorem powerAndStartUp : Obligations.PowerAndStartUp :=
  ⟨fun _ hp ha => step_of_unpowered hp ha, fun s hp hb => ⟨step_of_unbooted hp hb, exec_moduleReset_starts s⟩⟩

/-- Settles O8: each part of the reset state is its default. -/
theorem resetState : Obligations.ResetState :=
  ⟨rfl, rfl, rfl, rfl, rfl, rfl, rfl, rfl, rfl, rfl, rfl, rfl⟩

end Sys2Proof.Machine
end

section
/-! SUPPORT. The instructions of an intersection core, and ISLOAD (14 R333 to R335). -/

namespace Sys2Proof.Machine

/-! ### The registers that ISRAY and ISCAND write -/

/-- Words put into v registers from b on. -/
theorem putWords_registers {s : State} {th : Thread} {b : BitVec 8} {ws : List Word} (h : s.thread? th.id = some th)
    (hb : b.toNat + ws.length ≤ 255) :
    ∃ th2, (s.putWords th.id (.v b) ws).thread? th.id = some th2 ∧ (∀ i : Nat, i < ws.length → th2.getV (b + BitVec.ofNat 8 i) = ws.getD i 0)
      ∧ (∀ n : BitVec 8, n.toNat < b.toNat ∨ b.toNat + ws.length ≤ n.toNat → th2.getV n = th.getV n) ∧ th2.y0 = th.y0 := by
  have hrun := fun x => foldl_setV (g := fun (th : Thread) i => th.setV (b + BitVec.ofNat 8 i) (ws.getD i 0)) (b := b)
    (f := fun i => ws.getD i 0) (c := fun _ => True) (fun _ _ => (if_pos trivial).symm) x (k := ws.length) (by omega)
  obtain ⟨⟨v, hv⟩, hget⟩ := hrun th
  refine ⟨_, thread?_modThread_self _ (fun x => ?_) h, fun i hi => ?_, fun n hn => ?_, by rw [hv]⟩
  · obtain ⟨v, hv⟩ := (hrun x).1
    rw [hv]
  · have hreg : (b + BitVec.ofNat 8 i).toNat = b.toNat + i := by simp; omega
    rw [hget, if_pos ⟨by omega, by omega, trivial⟩, hreg, Nat.add_sub_cancel_left]
  · rw [hget, if_neg (by omega)]

/-! ### The end of a program -/

/-- A forgotten access leaves only its thread, and what has left of it. -/
theorem forget_eq (s : State) (t : Nat) (a : Access) (o : Owner) :
    ∃ ths far un, s.forget t a o = { s with threads := ths, far := far, unacked := un } := by
  unfold State.forget
  split
  dsimp only
  split
  · exact ⟨_, _, _, rfl⟩
  · exact ⟨_, _, _, rfl⟩

theorem foldl_forget_eq (l : List Access) (t : Nat) (o : Owner) (s : State) :
    ∃ ths far un, l.foldl (fun s a => s.forget t a o) s = { s with threads := ths, far := far, unacked := un } := by
  induction l generalizing s with
  | nil => exact ⟨_, _, _, rfl⟩
  | cons a l ih =>
    obtain ⟨_, _, _, ha⟩ := forget_eq s t a o
    obtain ⟨ths, far, un, hl⟩ := ih (s.forget t a o)
    exact ⟨ths, far, un, hl.trans (by rw [ha])⟩

theorem forgetThread_eq (s : State) (th : Thread) (o : Owner) :
    ∃ ths far un, s.forgetThread th o = { s with threads := ths, far := far, unacked := un } := by
  obtain ⟨ths, far, un, h⟩ := foldl_forget_eq th.ops th.id o s
  unfold State.forgetThread
  rw [h, farDrop_eq, farDrop_eq]
  exact ⟨_, _, _, rfl⟩

theorem endProgram_mem (s : State) (th : Thread) (v : Verdict) : (s.endProgram th v).mem = s.mem := by
  obtain ⟨_, _, _, h⟩ := forgetThread_eq s th .module
  rw [State.endProgram, h]

theorem thread?_endProgram (s : State) (th : Thread) (v : Verdict) : (s.endProgram th v).thread? th.id = none :=
  List.find?_eq_none.2 fun x hx => by simpa using (List.mem_filter.1 hx).2

/-- The verdict is kept with the ray, which waits for no program any more. -/
theorem ray?_endProgram {s : State} {th : Thread} {r : Ray} {v : Verdict} (h : s.ray? th.group = some r) (hp : r.prog = some th.id) :
    (s.endProgram th v).ray? th.group = some { r with verdicts := r.verdicts ++ [v], prog := none, cand := none } := by
  have hid : r.id = th.group := by simpa using List.find?_some h
  obtain ⟨_, _, _, he⟩ := forgetThread_eq s th .module
  simp only [State.endProgram, State.ray?, he]
  refine (find?_map_key Ray.id th.group _ (fun x => by split <;> rfl) s.rays).trans ?_
  rw [show s.rays.find? (fun x => x.id == th.group) = some r from h, Option.map_some, hid, hp]
  simp

theorem reportTeam_alone {i : Instr} {s : State} {th : Thread} (x : Desc) (last : Bool) (h : Alone i s th) :
    reportTeam i x last s
      = .next ((s.endProgram th (.acc (BitVec.ofNat 32 (s.arg' th (litOf x.toOps4) .f32 x.a)) (s.b32 th x) last)).executed th) :=
  runTeam_alone_of_jump h rfl

/-! ### ISLOAD -/

section
variable {x : Desc} {s : State} {th : Thread}

theorem isload_body_of_image (ha : (s.a64 th x).toNat % 256 = 0) (h1 : 256 ≤ (s.b32 th x).toNat)
    (h2 : (s.b32 th x).toNat ≤ 16384) (h4 : (s.b32 th x).toNat % 4 = 0) {p q r : Res} :
    (if (s.a64 th x).toNat % 256 != 0 then p
      else if (s.b32 th x).toNat < 256 || 16384 < (s.b32 th x).toNat || (s.b32 th x).toNat % 4 != 0 then q else r) = r := by
  rw [if_neg (by simpa using ha), if_neg (by simp; omega)]

end

/-- Settles O54: each instruction is one issue of its core or thread, and the waiting ISLOAD changes every store at once. -/
theorem intersectionProgramsReport : Obligations.IntersectionProgramsReport := by
  refine ⟨fun x r c => does_of_exec_runTeam (exec_isray · x) fun s th h => by rw [h],
    fun x r c => does_of_exec_runTeam (exec_iscand · x) fun s th h => by rw [h],
    fun s th b ws h hb => putWords_registers h hb,
    fun x s th h => (exec_isacc s x).trans (reportTeam_alone x false h),
    fun x s th h => (exec_isend s x).trans (reportTeam_alone x true h),
    fun x s th h => (exec_isrej s x).trans (runTeam_alone_of_jump h rfl),
    fun s th r v h hp => ⟨_, ray?_endProgram h hp, rfl, rfl, rfl, thread?_endProgram s th v, endProgram_mem s th v⟩,
    fun x => holds_of_exec_runTeam (exec_isload · x) ?waits,
    fun x s th h ha h1 h2 h4 hl => trapsTo_of_exec_runTeam h (exec_isload s x) ?locked,
    fun s s1 th a n lock bs h hh hi hl hr => ⟨?apply, rfl, fun u hu => ?store⟩⟩
  case waits =>
    rintro s th ⟨ha, h1, h2, h4, hl⟩
    exact (isload_body_of_image ha h1 h2 h4).trans (if_neg (by simp [hl]))
  case locked => exact (isload_body_of_image ha h1 h2 h4).trans (if_pos hl)
  case apply =>
    have hnone : (s.threads.any fun x => x.unit == .intersection) = false := by simpa using hi
    simp only [exec_isloadApply, execIsloadApply, h, hh, hnone, hl, hr, Bool.false_eq_true, if_false]
  case store => exact List.getElem?_replicate_of_lt hu

end Sys2Proof.Machine
end

section
/-! SUPPORT. What an access of an engine, a walk, the memory side or firmware leaves as it was: everything but memory, the caches,
translations, page requests and requests on their way (18 R388 to R392, 20 R414). -/

namespace Sys2Proof.Machine

/-- A state without what accesses of agents change. -/
def State.sansAgent (s : State) : State :=
  { s with caches := {}, poison := [], oracle := [], mem := [], code := [], queues := [], img := {}, nextId := 0, tlb := [], walkc := []
           far := [], replies := [], unacked := [], control := [], preqs := [] }

theorem foldl_keeps {α β σ : Type} {p : σ → β} {f : σ → α → σ} (h : ∀ s x, p (f s x) = p s) (l : List α) (s : σ) :
    p (l.foldl f s) = p s := by
  induction l generalizing s with
  | nil => rfl
  | cons x l ih => exact (ih _).trans (h s x)

/-- What reads none of that is the same in two such states. -/
theorem eq_of_sansAgent_eq {α : Type} {s t : State} (p : State → α) (h : t.sansAgent = s.sansAgent)
    (hp : ∀ r : State, p r.sansAgent = p r := by intro _; rfl) : p t = p s := by
  rw [← hp t, h, hp s]

theorem sansAgent_of_sansCaches {s t : State} (h : t.sansCaches = s.sansCaches) : t.sansAgent = s.sansAgent := by
  obtain ⟨_, _, _, h⟩ := eq_of_sansCaches h
  rw [h]
  rfl

theorem sansAgent_ite {s t u : State} {p : Prop} [Decidable p] (h : t.sansAgent = s.sansAgent) (k : u.sansAgent = s.sansAgent) :
    (if p then t else u).sansAgent = s.sansAgent := by
  split
  · exact h
  · exact k

theorem sansAgent_choose (s : State) (n : Nat) : (s.choose n).2.sansAgent = s.sansAgent :=
  sansAgent_of_sansCaches (sansCaches_choose s n)

theorem sansAgent_writePhys (s : State) (core : Option Nat) (pa : Nat) (bs : List Byte) (unc : Bool) :
    (s.writePhys core pa bs unc).sansAgent = s.sansAgent := by
  by_cases h : tableBase ≤ pa ∧ pa < tableBase + 8192
  · rw [State.writePhys, if_pos (by simpa using h)]
    rfl
  · obtain ⟨_, _, _, _, _, h⟩ := writePhys_eq h (s := s) (core := core) (bs := bs) (unc := unc)
    rw [h]
    rfl

/-- The state of an outcome that is taken apart. -/
theorem sansAgent_fst {α : Type} {s t : State} {q : State × α} {e : α} (h : q.1.sansAgent = s.sansAgent) (he : q = (t, e)) :
    t.sansAgent = s.sansAgent := by
  rwa [he] at h

/-! ### Translation and page requests -/

theorem sansAgent_walkStart (s : State) (sp : Space) (va : Dword) : (s.walkStart sp va).1.sansAgent = s.sansAgent := by
  unfold State.walkStart
  dsimp only
  split
  · rfl
  · split <;> exact sansAgent_choose ..

/-- What is cached of translations does not count. -/
theorem sansAgent_cached {s t : State} (h : t.sansAgent = s.sansAgent) (a : List Tlb) (b : List WalkEntry) :
    State.sansAgent { t with tlb := a, walkc := b } = s.sansAgent := h

theorem sansAgent_walkTable (s : State) (sp : Space) (va : Dword) (k : Kind) (sup : Bool) :
    (s.walkTable sp va k sup).1.sansAgent = s.sansAgent := by
  have hstart := sansAgent_walkStart s sp va
  unfold State.walkTable
  generalize s.walkStart sp va = q at hstart ⊢
  dsimp only
  split
  · exact sansAgent_cached (t := @ite State _ _ _ _) (sansAgent_ite hstart ((sansAgent_writePhys ..).trans hstart)) _ _
  · exact hstart

theorem sansAgent_walkNow (s : State) (sp : Space) (va : Dword) (k : Kind) (sup : Bool) :
    (s.walkNow sp va k sup).1.sansAgent = s.sansAgent := by
  unfold State.walkNow
  split
  · rfl
  · exact sansAgent_walkTable ..

theorem sansAgent_translate (s : State) (sp : Space) (va : Dword) (k : Kind) (sup : Bool) :
    (s.translate sp va k sup).1.sansAgent = s.sansAgent := by
  unfold State.translate
  split
  · exact sansAgent_walkNow ..
  · dsimp only
    split
    · exact (sansAgent_walkNow ..).trans (sansAgent_choose ..)
    · split
      · exact sansAgent_choose ..
      · exact (sansAgent_walkNow ..).trans (sansAgent_choose ..)

theorem sansAgent_sendReq (s : State) (r : PageReq) : (s.sendReq r).sansAgent = s.sansAgent := by
  unfold State.sendReq
  dsimp only
  split
  · exact sansAgent_writePhys ..
  · rfl

theorem sansAgent_requestPage (s : State) (sp : Space) (va : Dword) (k : Kind) (src : Nat) :
    (s.requestPage sp va k src).1.sansAgent = s.sansAgent := by
  unfold State.requestPage
  split
  · rfl
  · dsimp only
    split
    · rfl
    · exact sansAgent_sendReq ..

/-! ### Requests that leave the module -/

theorem sansAgent_pumpFar (s : State) : s.pumpFar.sansAgent = s.sansAgent := by
  refine foldl_keeps (p := State.sansAgent) (fun s x => ?_) _ _
  exact sansAgent_ite rfl rfl

theorem sansAgent_farAsk (s : State) (o : Owner) (va : Dword) (p : Place) (r : Request) (n : Nat) :
    (s.farAsk o va p r n).1.sansAgent = s.sansAgent := by
  unfold State.farAsk
  split
  · rfl
  · exact sansAgent_pumpFar _

theorem sansAgent_hostSays (s : State) (o : Owner) (p : Place) (r : Request) (site n : Nat) :
    (s.hostSays o p r site n).1.sansAgent = s.sansAgent := by
  unfold State.hostSays State.hostWait
  dsimp only
  split
  · rfl
  · split
    · rfl
    · split
      · rfl
      · split
        · split <;> rfl
        · rfl

theorem sansAgent_readNear (s : State) (o : Owner) (p : Place) (n : Nat) : (s.readNear o p n).1.sansAgent = s.sansAgent := by
  unfold State.readNear
  split
  · split <;> rfl
  next site pa cache =>
    have hsays := sansAgent_hostSays s o (.host site pa cache) (.read pa n) site n
    split
    next heq => exact sansAgent_fst hsays heq
    next heq => exact sansAgent_fst hsays heq
  all_goals rfl

theorem sansAgent_eachPiece {go : State → Nat → Nat → State × Except (Option Fail) (List Byte)}
    (hgo : ∀ s x m, (go s x m).1.sansAgent = s.sansAgent) (s : State) (l : List (Nat × Nat)) :
    (s.eachPiece go l).1.sansAgent = s.sansAgent := by
  induction l generalizing s with
  | nil => rfl
  | cons y rest ih =>
    obtain ⟨x, m⟩ := y
    have h1 := hgo s x m
    unfold State.eachPiece
    split
    next heq => exact sansAgent_fst h1 heq
    next heq => exact (ih _).trans (sansAgent_fst h1 heq)
    next s1 b heq =>
      rw [heq] at h1
      have h2 := (ih s1).trans h1
      split
      next heq2 => exact sansAgent_fst h2 heq2
      next heq2 => exact sansAgent_fst h2 heq2

theorem sansAgent_writeNear (s : State) (o : Owner) (p : Place) (bs : List Byte) : (s.writeNear o p bs).1.sansAgent = s.sansAgent := by
  unfold State.writeNear
  split
  · exact sansAgent_writePhys ..
  · exact sansAgent_writePhys ..
  next site pa cache =>
    have hsays := sansAgent_hostSays s o (.host site pa cache) (.write pa bs false) site bs.length
    split
    next heq => exact (sansAgent_writePhys ..).trans (sansAgent_fst hsays heq)
    next heq => exact sansAgent_fst hsays heq
  all_goals rfl

theorem sansAgent_readPlace (s : State) (o : Owner) (va : Dword) (p : Place) (n : Nat) :
    (s.readPlace o va p n).1.sansAgent = s.sansAgent := by
  unfold State.readPlace
  split
  · exact sansAgent_readNear ..
  · split
    · rfl
    · refine sansAgent_eachPiece (fun s x m => ?_) _ _
      dsimp only
      split
      · have hask := sansAgent_farAsk s o (va + BitVec.ofNat 64 x) (p.plus x) (.read (farPa p + x) m) m
        split
        next heq => exact sansAgent_fst hask heq
        next heq => exact sansAgent_fst hask heq
      · exact sansAgent_readNear ..

theorem sansAgent_writePlace (s : State) (o : Owner) (va : Dword) (p : Place) (bs : List Byte) :
    (s.writePlace o va p bs).1.sansAgent = s.sansAgent := by
  unfold State.writePlace
  split
  · exact sansAgent_writeNear ..
  · split
    · rfl
    · split
      all_goals
        refine sansAgent_fst (sansAgent_eachPiece (fun s x m => ?_) s _) (by assumption)
        dsimp only
        split
        · have hask := sansAgent_farAsk s o (va + BitVec.ofNat 64 x) (p.plus x) (.write (farPa p + x) ((bs.drop x).take m) false) m
          split
          next heq => exact sansAgent_fst hask heq
          next heq => exact sansAgent_fst hask heq
        · have hnear := sansAgent_writeNear s o (p.plus x) ((bs.drop x).take m)
          split
          next heq => exact sansAgent_fst hnear heq
          next heq => exact sansAgent_fst hnear heq

/-! ### Reads and writes -/

theorem sansAgent_agentRead (s : State) (o : Owner) (sp : Space) (sup : Bool) (src : Nat) (svc : Bool) (fuel : Nat) (va : Dword)
    (n : Nat) : (s.agentRead o sp sup src svc fuel va n).1.sansAgent = s.sansAgent := by
  induction fuel generalizing s va n with
  | zero => rfl
  | succ fuel ih =>
    have htr := sansAgent_translate s sp va .read sup
    unfold State.agentRead
    split
    · rfl
    · dsimp only
      split
      next s1 heq => exact (sansAgent_requestPage ..).trans (sansAgent_fst htr heq)
      next heq => exact sansAgent_fst htr heq
      next s1 e lv heq =>
        rw [heq] at htr
        have hread := (sansAgent_readPlace s1 o va (s1.physPlace e (leafPa e lv va) (inPage va n) false svc) (inPage va n)).trans htr
        split
        next heq => exact sansAgent_fst hread heq
        next heq => exact sansAgent_fst hread heq
        next s2 bs heq =>
          rw [heq] at hread
          have hrest := (ih s2 (va + BitVec.ofNat 64 (inPage va n)) (n - inPage va n)).trans hread
          split
          next heq => exact sansAgent_fst hrest heq
          next => exact hrest

theorem sansAgent_agentWrite (s : State) (o : Owner) (sp : Space) (sup : Bool) (src : Nat) (svc : Bool) (fuel : Nat) (va : Dword)
    (bs : List Byte) : (s.agentWrite o sp sup src svc fuel va bs).1.sansAgent = s.sansAgent := by
  induction fuel generalizing s va bs with
  | zero => rfl
  | succ fuel ih =>
    have htr := sansAgent_translate s sp va .write sup
    unfold State.agentWrite
    split
    · rfl
    · dsimp only
      split
      next s1 heq => exact (sansAgent_requestPage ..).trans (sansAgent_fst htr heq)
      next heq => exact sansAgent_fst htr heq
      next s1 e lv heq =>
        rw [heq] at htr
        have hwrite := (sansAgent_writePlace s1 o va (s1.physPlace e (leafPa e lv va) (inPage va bs.length) true svc)
          (bs.take (inPage va bs.length))).trans htr
        split
        next heq => exact sansAgent_fst hwrite heq
        next heq => exact sansAgent_fst hwrite heq
        next heq => exact (ih ..).trans (sansAgent_fst hwrite heq)

theorem sansAgent_svcRead (s : State) (o : Owner) (sp : Space) (a : Dword) (n : Nat) : (s.svcRead o sp a n).1.sansAgent = s.sansAgent := by
  unfold State.svcRead
  split
  · exact sansAgent_agentRead ..
  · rfl

end Sys2Proof.Machine
end

section
/-! SUPPORT. QWAIT, LAUNCH and the completion ring (21 R423 to R427, 20 R411). -/

namespace Sys2Proof.Machine

/-! ### QWAIT (21 R423) -/

section
variable {x : Desc} {s : State} {th : Thread}

theorem extractLsb'_eq_zero_iff (m : Word) : m.extractLsb' 6 26 = 0#26 ↔ m.toNat < 64 := by
  have hm := m.isLt
  rw [← BitVec.toNat_inj, BitVec.extractLsb'_toNat, Nat.shiftRight_eq_div_pow]
  simp only [BitVec.toNat_ofNat]
  omega

theorem qwait_mask_ok {m : Word} (h0 : m ≠ 0) (h : m.toNat < 64) : (m == 0#32 || m.extractLsb' 6 26 != 0#26) = false := by
  rw [(extractLsb'_eq_zero_iff m).2 h]
  simpa using h0

theorem qwait_mask_bad {m : Word} (h : m = 0 ∨ 64 ≤ m.toNat) : (m == 0#32 || m.extractLsb' 6 26 != 0#26) = true := by
  rcases h with rfl | h
  · rfl
  · have := (extractLsb'_eq_zero_iff m).not.2 (by omega)
    simp [this]

end

theorem thread?_wakeQwait {s : State} {th : Thread} {m : Word} (h : s.thread? th.id = some th) (hh : th.hold = .qwait m) :
    s.wakeQwait.thread? th.id = some (if (findEvent (s.queueOf th.tid).events m).isSome then { th with hold := .none } else th) := by
  refine (find?_map_key Thread.id th.id _ (fun x => ?_) s.threads).trans ?_
  · split
    · split <;> rfl
    · rfl
  · rw [show s.threads.find? (fun x => x.id == th.id) = some th from h]
    simp [hh]

/-- An event that is found is the first of the list that the mask selects. -/
theorem findEvent_spec {es : List Event} {m : Word} {n : Nat} (h : findEvent es m = some n) :
    ∃ e, es[n]? = some e ∧ n < 4096 ∧ 1 ≤ e.kind ∧ m.getLsbD (e.kind - 1) = true
      ∧ ∀ k, k < n → ∀ y, es[k]? = some y → ¬ (1 ≤ y.kind ∧ m.getLsbD (y.kind - 1) = true) := by
  obtain ⟨hn, hsel, hbefore⟩ := List.findIdx?_eq_some_iff_getElem.1 h
  have hlt : n < 4096 ∧ n < es.length := by simpa using hn
  rw [List.getElem_take] at hsel
  refine ⟨es[n], List.getElem?_eq_getElem hlt.2, hlt.1, ?_⟩
  simp only [Bool.and_eq_true, decide_eq_true_eq] at hsel
  refine ⟨hsel.1, hsel.2, fun k hk y hy hsel => ?_⟩
  have hk' := hbefore k hk
  rw [List.getElem_take, (List.getElem?_eq_some_iff.1 hy).2] at hk'
  simp only [Bool.and_eq_true, decide_eq_true_eq] at hk'
  exact hk' hsel

/-! ### LAUNCH.start (21 R424) -/

section
variable {x : Desc} {s s1 : State} {th : Thread} {a : Dword} {q : Word}

theorem launchStartOne_bad (h : 63 < q.toNat) : launchStartOne x a q s th = .done (s.result th.id x.d 32 1) := if_pos h

theorem afterRelease_of_released (hr : s.released th 6 0 = true) (r : Res) : s.afterRelease th 6 r = r := by
  refine (if_pos hr).trans ?_
  cases r <;> rfl

variable (hq : q.toNat ≤ 63) (hr : s.released th 6 0 = true)
include hq hr

theorem launchStartOne_ok {id : Nat} (h : s.startLaunch (.thread th.id) q.toNat a = (s1, .ok id)) :
    launchStartOne x a q s th = .done (s1.result th.id x.d 32 (BitVec.ofNat 128 (2 ^ 16 * id))) := by
  have : (2 ^ 16 * id == 3) = false := by simp; omega
  rw [launchStartOne, if_neg (by omega), afterRelease_of_released hr, h]
  simp only [startWord, this, Bool.false_eq_true, if_false]

theorem launchStartOne_code {n : Nat} (h : s.startLaunch (.thread th.id) q.toNat a = (s1, .code n)) :
    launchStartOne x a q s th
      = .done ((if n = 3 then s1.modQueueOf th.tid fun y => { y with room := true } else s1).result th.id x.d 32 (BitVec.ofNat 128 n)) := by
  rw [launchStartOne, if_neg (by omega), afterRelease_of_released hr, h]
  simp only [startWord, beq_iff_eq]

theorem launchStartOne_wait {t : Nat} {va : Dword} (h : s.startLaunch (.thread th.id) q.toNat a = (s1, .wait t va)) :
    launchStartOne x a q s th = .stall (if t == 0 then s1 else s1.parkAt th.id (.launchStart x) t va) := by
  rw [launchStartOne, if_neg (by omega), afterRelease_of_released hr, h]

end

theorem freeLaunchId_spec {s : State} {id : Nat} (h : s.freeLaunchId = some id) : 1 ≤ id ∧ id ≤ 1023 ∧ ∀ l ∈ s.launches, l.id ≠ id := by
  have hfree := List.find?_some h
  have hmem := List.mem_of_find?_eq_some h
  simp at hfree hmem
  exact ⟨by omega, by omega, hfree⟩

section
variable {s : State} {o : Owner} {q : Nat} {a : Dword}

theorem startLaunch_busy (h : s.freeLaunchId = none) : s.startLaunch o q a = (s, .code 3) := by
  unfold State.startLaunch
  dsimp only
  split
  next => rfl
  next heq => exact nomatch h.symm.trans heq

theorem startLaunch_lost {id : Nat} (h : s.freeLaunchId = some id) (hl : s.qdescLost q = true) : s.startLaunch o q a = (s, .code 2) := by
  unfold State.startLaunch
  dsimp only
  split
  next heq => exact nomatch h.symm.trans heq
  next => exact if_pos hl

end

/-- A launch that starts is new, live and last of its state, whose gangs are in the dispatcher. -/
theorem startLaunch_ok {s s1 : State} {o : Owner} {q id : Nat} {a : Dword} (h : s.startLaunch o q a = (s1, .ok id)) :
    s.freeLaunchId = some id ∧ ∃ (l : Launch) (n : Nat), s1.launches = s.launches ++ [l] ∧ l.id = id ∧ l.queue = q ∧ l.state = .live ∧ l.lr.addr = a
      ∧ s1.gangs = s.gangs ++ (List.range (l.lr.lx * l.lr.ly * l.lr.lz)).map fun i =>
          { id := n + i, launch := id, index := i, size := l.lr.gx * l.lr.gy * l.lr.gz } := by
  unfold State.startLaunch at h
  dsimp only at h
  split at h
  · cases h
  next id' hid =>
    split at h
    · cases h
    have h1 := sansAgent_svcRead s o (queueSpace (s.qdescBytes q)) a 128
    split at h
    · cases h
    · cases h
    next s1 r heq =>
      replace h1 := sansAgent_fst h1 heq
      split at h
      · cases h
      have h2 := (sansAgent_svcRead s1 o (queueSpace (s.qdescBytes q)) (parseRecord a r).entry 64).trans h1
      split at h
      · cases h
      · cases h
      next s2 hb heq =>
        replace h2 := sansAgent_fst h2 heq
        split at h
        · cases h
        have h3 : State.sansAgent (if dword r 0x38 == 0#64 || (parseHeader hb).uniforms == 0 then (s2, Got.ok [])
            else s2.svcRead o (queueSpace (s.qdescBytes q)) (dword r 0x38) (8 * (parseHeader hb).uniforms)).1 = s.sansAgent := by
          split
          · exact h2
          · exact (sansAgent_svcRead ..).trans h2
        generalize (if dword r 0x38 == 0#64 || (parseHeader hb).uniforms == 0 then (s2, Got.ok [])
            else s2.svcRead o (queueSpace (s.qdescBytes q)) (dword r 0x38) (8 * (parseHeader hb).uniforms)) = q3 at h h3
        split at h
        · cases h
        · cases h
        next s3 ub =>
          have hl := eq_of_sansAgent_eq State.launches h3
          have hg := eq_of_sansAgent_eq State.gangs h3
          obtain ⟨rfl, hid'⟩ := Prod.mk.inj h
          cases hid'
          exact ⟨hid, _, s3.nextId + 1, congrArg (· ++ _) hl, rfl, rfl, rfl, rfl, congrArg (· ++ _) hg⟩

/-! ### Replies and halts (21 R424) -/

theorem replyTo_unknown {s : State} {v : Dword} {tag : Word} (h : ∀ r ∈ s.svcs, BitVec.ofNat 32 r.tag ≠ tag) : s.replyTo v tag = (s, 4) := by
  have : s.svcs.find? (fun r => BitVec.ofNat 32 r.tag == tag) = none := List.find?_eq_none.2 fun r hr => by simpa using h r hr
  rw [State.replyTo, this]

section
variable {s : State} {v : Dword} {tag b : Word} {r : SvcReq} {th : Thread} {g : Group}

theorem replyTo_known (hr : s.svcs.find? (fun r => BitVec.ofNat 32 r.tag == tag) = some r) (ht : s.thread? r.thread = some th)
    (hg : s.group? th.group = some g) : s.replyTo v tag
      = (if g.res == .saved || g.res == .evicted || g.res == .restoring then
          State.modGroup { s with svcs := s.svcs.filter fun x => x.tag != r.tag } g.id fun x => { x with mail := x.mail ++ [(r.tag, v)] }
        else State.deliverReply { s with svcs := s.svcs.filter fun x => x.tag != r.tag } r.tag v, 0) := by
  have hgroup : ((State.thread? { s with svcs := s.svcs.filter fun x => x.tag != r.tag } r.thread).bind fun th =>
      State.group? { s with svcs := s.svcs.filter fun x => x.tag != r.tag } th.group) = some g :=
    (congrArg (fun y : Option Thread => y.bind fun th => s.group? th.group) ht).trans hg
  simp only [State.replyTo, hr, hgroup]

section
variable (hr : s.svcs.find? (fun r => BitVec.ofNat 32 r.tag == tag) = some r) (ht : s.thread? r.thread = some th)
  (hg : s.group? th.group = some g)
include hr ht hg

theorem bindWindow_bad (h : g.hdr.slots ≤ (b.extractLsb' 16 6).toNat) : s.bindWindow tag b = (s, 1) := by
  simp only [State.bindWindow, hr, ht, hg, Option.bind_some, decide_eq_true h, Bool.or_true, if_true]

variable (h : (b.extractLsb' 16 6).toNat < g.hdr.slots) (hb : b &&& 0x7FC0F000#32 = 0#32)
include h hb

theorem bindWindow_free (hw : s.bindings.find? (fun y => y.window == (b.extractLsb' 0 12).toNat) = none) (hc : b.getLsbD 31 = false) :
    s.bindWindow tag b = ({ s with bindings := s.bindings ++ [{ window := (b.extractLsb' 0 12).toNat, launch := g.launch, group := g.id
                                                                slot := (b.extractLsb' 16 6).toNat }] }, 0) := by
  simp only [State.bindWindow, hr, ht, hg, Option.bind_some, hb, decide_eq_false (Nat.not_le_of_lt h), hw, hc, bne_self_eq_false,
    Bool.or_self, Bool.false_eq_true, if_false]

theorem bindWindow_release {y : Binding} (hw : s.bindings.find? (fun y => y.window == (b.extractLsb' 0 12).toNat) = some y)
    (hy : y.group = g.id) (hs : y.slot = (b.extractLsb' 16 6).toNat) (hc : b.getLsbD 31 = true) :
    s.bindWindow tag b = ({ s with bindings := s.bindings.filter fun z => z.window != (b.extractLsb' 0 12).toNat }, 0) := by
  simp only [State.bindWindow, hr, ht, hg, Option.bind_some, hb, decide_eq_false (Nat.not_le_of_lt h), hw, hc, hy, hs, bne_self_eq_false,
    beq_self_eq_true, Bool.and_self, Bool.not_true, Bool.or_self, Bool.false_eq_true, if_false, if_true]

end

end

section
variable {s : State} {a : Dword} {l : Launch}

theorem liveLaunch_spec (h : s.liveLaunch a = some l) : l ∈ s.launches ∧ (l.state = .live ∨ l.state = .saving ∨ l.state = .saved) := by
  have hs := List.find?_some h
  simp only [Bool.and_eq_true, Bool.or_eq_true, beq_iff_eq] at hs
  exact ⟨List.mem_of_find?_eq_some h, by tauto⟩

theorem preemptLaunch_of_saved (h : s.liveLaunch a = some l) (hs : l.state = .saved) :
    s.preemptLaunch a = (s.queueEvent l.queue { kind := 5, eid := l.id }, 0) := by
  simp only [State.preemptLaunch, h, hs]

theorem preemptLaunch_of_running (h : s.liveLaunch a = some l) (hs : l.state ≠ .saved) :
    s.preemptLaunch a = (s.modLaunch l.id fun x => { x with state := .saving, notify := x.notify + 1 }, 0) := by
  rw [State.preemptLaunch, h]
  dsimp only
  split
  next he => exact absurd he hs
  next => rfl

theorem resumeLaunch_of_running (h : s.liveLaunch a = some l) (hs : l.state ≠ .saved) : s.resumeLaunch a = (s, 5) := by
  rw [State.resumeLaunch, h]
  exact if_pos (by simpa using hs)

end

/-- A group's gang joins those noted. -/
def noteGang (ids : List Nat) (g : Group) : List Nat := if ids.contains g.gang then ids else ids ++ [g.gang]

theorem mem_foldl_noteGang {i : Nat} (gs : List Group) (ids : List Nat) : i ∈ gs.foldl noteGang ids ↔ i ∈ ids ∨ ∃ g ∈ gs, g.gang = i := by
  induction gs generalizing ids with
  | nil => simp
  | cons g gs ih =>
    have hstep : i ∈ noteGang ids g ↔ i ∈ ids ∨ g.gang = i := by
      unfold noteGang
      split
      next h =>
        refine ⟨.inl, fun hi => hi.elim id ?_⟩
        rintro rfl
        simpa using h
      next => rw [List.mem_append, List.mem_singleton, eq_comm]
    rw [List.foldl_cons, ih, hstep, or_assoc, List.exists_mem_cons_iff]

/-- The groups of a saved launch that a resumption gives back to the dispatcher. -/
def State.toResume (s : State) (l : Launch) : List Group :=
  s.groups.filter fun g => g.launch == l.id && g.res == .saved && !(s.gangs.any fun x => x.saved.contains g.id)
    && !((s.live g.id).isEmpty && g.cmds.isEmpty)

/-- A resumption makes the launch live and gives back each gang with its saved groups. -/
theorem resumeLaunch_of_saved {s : State} {a : Dword} {l : Launch} (h : s.liveLaunch a = some l) (hs : l.state = .saved) :
    (s.resumeLaunch a).2 = 0
    ∧ (s.resumeLaunch a).1.gangs = s.gangs ++ ((s.toResume l).foldl noteGang []).map (fun i =>
        { id := i, launch := l.id, index := (((s.toResume l).filter fun g => g.gang == i).head?.map Group.gangIdx).getD 0
          saved := ((s.toResume l).filter fun g => g.gang == i).map (·.id) })
    ∧ (s.resumeLaunch a).1.launches = s.launches.map fun x => if x.id == l.id then
        { x with state := .live, pausedAt := none
                 bins := x.bins.map fun b => { b with timer := b.timer + (s.cycle - l.pausedAt.getD s.cycle) } } else x := by
  have hstate : (l.state != .saved) = false := by rw [hs]; rfl
  unfold State.resumeLaunch
  rw [h]
  dsimp only
  rw [hstate]
  exact ⟨rfl, rfl, rfl⟩

theorem resumed_group_is_due {s : State} {a : Dword} {l : Launch} {g : Group} (h : s.liveLaunch a = some l) (hs : l.state = .saved)
    (hg : g ∈ s.toResume l) : ∃ x ∈ (s.resumeLaunch a).1.gangs, x.launch = l.id ∧ g.id ∈ x.saved := by
  rw [(resumeLaunch_of_saved h hs).2.1]
  refine ⟨_, List.mem_append_right _ (List.mem_map_of_mem ((mem_foldl_noteGang _ _).2 (.inr ⟨g, hg, rfl⟩))), rfl, ?_⟩
  exact List.mem_map_of_mem (List.mem_filter.2 ⟨hg, beq_self_eq_true _⟩)

theorem mem_toResume {s : State} {l : Launch} {g : Group} (hg : g ∈ s.groups) (hl : g.launch = l.id) (hr : g.res = .saved)
    (hx : ∀ x ∈ s.gangs, g.id ∉ x.saved) (hlive : s.live g.id ≠ [] ∨ g.cmds ≠ []) : g ∈ s.toResume l := by
  refine List.mem_filter.2 ⟨hg, ?_⟩
  have : (s.gangs.any fun x => x.saved.contains g.id) = false := by simpa using hx
  simp only [hl, hr, this, beq_self_eq_true, Bool.not_false, Bool.and_self, Bool.true_and, Bool.not_and, Bool.or_eq_true, Bool.not_eq_true',
    List.isEmpty_eq_false_iff]
  exact hlive

/-! ### The end of a launch (21 R425) -/

/-- A state without its threads, its bindings, what is on its way, and the caches' bookkeeping. -/
def State.sansTraffic (s : State) : State :=
  { s with threads := [], far := [], unacked := [], bindings := [], caches := {}, poison := [], oracle := [] }

theorem sansTraffic_choose (s : State) (n : Nat) : (s.choose n).2.sansTraffic = s.sansTraffic := by
  obtain ⟨_, _, _, h⟩ := eq_of_sansCaches (sansCaches_choose s n)
  rw [h]
  rfl

theorem sansTraffic_forget (s : State) (t : Nat) (a : Access) (o : Owner) : (s.forget t a o).sansTraffic = s.sansTraffic := by
  obtain ⟨_, _, _, h⟩ := forget_eq s t a o
  rw [h]
  rfl

theorem sansTraffic_forgetThread (s : State) (th : Thread) (o : Owner) : (s.forgetThread th o).sansTraffic = s.sansTraffic := by
  obtain ⟨_, _, _, h⟩ := forgetThread_eq s th o
  rw [h]
  rfl

theorem sansTraffic_farDrop (s : State) (o to_ : Owner) : (s.farDrop o to_).sansTraffic = s.sansTraffic := by
  rw [farDrop_eq]
  rfl

theorem sansTraffic_ite {s t u : State} {p : Prop} [Decidable p] (h : t.sansTraffic = s.sansTraffic)
    (k : u.sansTraffic = s.sansTraffic) : (if p then t else u).sansTraffic = s.sansTraffic := by
  split
  · exact h
  · exact k

/-- Which of a thread's accesses are dropped is a choice of the device. -/
theorem sansTraffic_dropSome (l : List Access) (lid t : Nat) (s : State) : (s.dropSome lid t l).sansTraffic = s.sansTraffic := by
  induction l generalizing s with
  | nil => rfl
  | cons a l ih =>
    unfold State.dropSome
    have hkeep : ∀ (c : Prop) [Decidable c], (if c then (1, s) else s.choose 2 : Nat × State).2.sansTraffic = s.sansTraffic := by
      intro c _
      split
      · rfl
      · exact sansTraffic_choose s 2
    exact (ih _).trans (sansTraffic_ite ((sansTraffic_forget ..).trans (hkeep _)) (hkeep _))

theorem eq_of_sansTraffic_eq {α : Type} {s t : State} (p : State → α) (h : t.sansTraffic = s.sansTraffic)
    (hp : ∀ r : State, p r.sansTraffic = p r := by intro _; rfl) : p t = p s := by
  rw [← hp t, h, hp s]

/-- The state in which a launch's requests, and the accesses of its threads, have been dropped. -/
def State.dropTraffic (s : State) (lid : Nat) : State :=
  (s.threads.filter fun x => x.unit == .intersection && ((s.rays.filter fun r => r.launch == lid).map (·.id)).contains x.group).foldl
    (fun s x => s.forgetThread x (.gone lid))
    ((s.threads.filter fun x => x.unit == .device && s.groups.any fun g => g.launch == lid && g.id == x.group).foldl
      (fun s x => s.dropSome lid x.id x.ops) ((s.ownersOf lid).foldl (fun s o => s.farDrop o (.gone lid)) (s.unbindLaunch lid)))

theorem sansTraffic_dropTraffic (s : State) (lid : Nat) : (s.dropTraffic lid).sansTraffic = s.sansTraffic :=
  (foldl_keeps (p := State.sansTraffic) (fun s x => sansTraffic_forgetThread s x _) _ _).trans
    ((foldl_keeps (p := State.sansTraffic) (fun s _ => sansTraffic_dropSome _ _ _ s) _ _).trans
      (foldl_keeps (p := State.sansTraffic) (fun s o => sansTraffic_farDrop s o _) _ _))

section
variable (s : State) (lid : Nat)

theorem endLaunch_groups : (s.endLaunch lid).groups = s.groups.map fun g => if g.launch == lid then
    { g with res := .ended, cmds := [], hitched := none, frames := [], mail := [], slots := g.slots.map fun x => { x with cont := none } }
    else g :=
  congrArg (List.map _) (eq_of_sansTraffic_eq (t := s.dropTraffic lid) State.groups (sansTraffic_dropTraffic s lid))

theorem endLaunch_gangs : (s.endLaunch lid).gangs = s.gangs.filter fun x => x.launch != lid :=
  congrArg (List.filter _) (eq_of_sansTraffic_eq (t := s.dropTraffic lid) State.gangs (sansTraffic_dropTraffic s lid))

theorem endLaunch_launches : (s.endLaunch lid).launches = s.launches.map fun l => if l.id == lid then
    { l with state := .ending, bins := [], waiting := [], flagOrs := [], flagTag := none, tag := none, poolTag := none, notify := 0 }
    else l :=
  congrArg (List.map _) (eq_of_sansTraffic_eq (t := s.dropTraffic lid) State.launches (sansTraffic_dropTraffic s lid))

theorem endLaunch_mem : (s.endLaunch lid).mem = s.mem :=
  eq_of_sansTraffic_eq (t := s.dropTraffic lid) State.mem (sansTraffic_dropTraffic s lid)

end

theorem endLaunchAt_of_live {s : State} {a : Dword} {l : Launch} (h : s.liveLaunch a = some l) : s.endLaunchAt a = (s.endLaunch l.id, 0) := by
  rw [State.endLaunchAt, h]

/-! ### The completion ring (21 R426) -/

theorem flushDone_of_idle {s : State} {q : Nat} (h : (s.queueOf q).done = [] ∨ (badField (s.qdescBytes q)).isSome = true) :
    s.flushDone q = s := by
  unfold State.flushDone
  dsimp only
  split
  · rfl
  next r rest heq =>
    rcases h with h | h
    · rw [h] at heq
      cases heq
    · exact if_pos h

/-- The oldest waiting record leaves its list; one of a launch that never started lets HEAD pass its entry. -/
def State.recordTaken (s : State) (q : Nat) (d r : List Byte) (rest : List (List Byte)) : State :=
  if field r 0 2 = 0 then
    ((s.farDrop (.queue q)).modQueueOf q fun y => { y with done := rest, failed := false }).putDesc q 0x2C (toBytes 4 (word d 0x2C + 1).toNat)
  else (s.farDrop (.queue q)).modQueueOf q fun y => { y with done := rest, failed := false }

/-- The address of the record that a completion ring takes next. -/
def doneSlot (d : List Byte) : Dword := dword d 0x50 + BitVec.ofNat 64 (16 * ((word d 0x48).toNat % field d 0x4C 4))

section
variable {s s1 : State} {q : Nat} {r : List Byte} {rest : List (List Byte)}
  (hd : (s.queueOf q).done = r :: rest) (hb : badField (s.qdescBytes q) = none)
include hd hb

theorem flushDone_full (hf : (s.queueOf q).failed = false)
    (hr : field (s.qdescBytes q) 0x4C 4 ≤ (word (s.qdescBytes q) 0x48 - word (s.qdescBytes q) 0x44).toNat) : s.flushDone q = s := by
  simp only [State.flushDone, hd, hb, hf, hr, Option.isSome_none, Bool.false_eq_true, if_false, if_true]

theorem flushDone_written (hf : (s.queueOf q).failed = false)
    (hr : (word (s.qdescBytes q) 0x48 - word (s.qdescBytes q) 0x44).toNat < field (s.qdescBytes q) 0x4C 4)
    (hw : s.agentWrite (.queue q) (queueSpace (s.qdescBytes q)) true 0 true 3 (doneSlot (s.qdescBytes q)) r = (s1, .ok ())) :
    s.flushDone q = (s1.recordTaken q (s.qdescBytes q) r rest).putDesc q 0x48 (toBytes 4 (word (s.qdescBytes q) 0x48 + 1).toNat) := by
  rw [doneSlot] at hw
  simp only [State.flushDone, hd, hb, hf, hw, Nat.not_le_of_lt hr, Option.isSome_none, Bool.false_eq_true, if_false, beq_iff_eq]
  rfl

theorem flushDone_refused (hf : (s.queueOf q).failed = true) :
    s.flushDone q = (s.recordTaken q (s.qdescBytes q) r rest).queueEvent q
      { kind := 4, code := Cause.prot.code, eid := field r 0 2, datum := doneSlot (s.qdescBytes q) } := by
  simp only [State.flushDone, hd, hb, hf, Option.isSome_none, Bool.false_eq_true, if_false, if_true, beq_iff_eq]
  rfl

end

theorem exec_doneRingRecheck_free {s : State} (hf : s.firmwareFree s.arg.q = true) (hl : s.qdescLost s.arg.q = false) :
    exec .doneRingRecheck s = .next (s.flushDone s.arg.q) := by
  rw [exec_doneRingRecheck, execDoneRingRecheck, hf, hl]
  rfl

/-! ### The operations of LAUNCH that answer at once (21 R424) -/

section
variable {x : Desc} {i : Instr} {f : Dword → Word → State → State × Nat} {pre : State → Thread → Prop} {g : State → Thread → State × Nat}

theorem does_of_launchTeam (he : ∀ s, exec i s = launchTeam i x f s) (hf : ∀ s th, pre s th → f (s.a64 th x) (s.b32 th x) s = g s th) :
    Does i pre fun s th => (g s th).1.result th.id x.d 32 (BitVec.ofNat 128 (g s th).2) :=
  does_of_exec_runTeam he fun s th hp => by rw [hf s th hp]

end

/-- Settles O59: what QWAIT and each LAUNCH operation answer and leave, and what firmware does with a completion record. -/
theorem queuesAndLaunchOperations : Obligations.QueuesAndLaunchOperations := by
  refine ⟨fun x n => does_of_exec_runTeam (exec_qwait · x) ?found, fun x => holds_of_exec_runTeam (exec_qwait · x) ?empty,
    fun x s th h hm => trapsTo_of_exec_runTeam h (exec_qwait s x) ?refused,
    fun s th m h hh => thread?_wakeQwait h hh, fun es m n h => findEvent_spec h,
    fun x => does_of_exec_runTeam (exec_launchStart · x) fun s th h => launchStartOne_bad h,
    fun x s s1 th h hq hr => ?start, fun s o q a h => startLaunch_busy h, fun s s1 o q id a h => ?started,
    fun x => does_of_launchTeam (exec_launchReply · x) fun _ _ _ => rfl, fun s v tag h => replyTo_unknown h,
    fun s v tag r th g hr ht hg => ?reply,
    fun x => does_of_launchTeam (exec_launchPreempt · x) fun s th h => if_neg (by omega),
    fun s a h => ⟨by rw [State.preemptLaunch, h], by rw [State.resumeLaunch, h], by rw [State.endLaunchAt, h]⟩,
    fun s a l h => ⟨fun hs => ⟨preemptLaunch_of_running h hs, resumeLaunch_of_running h hs⟩, fun hs => ?saved⟩,
    fun x => does_of_launchTeam (exec_launchResume · x) fun s th h => if_neg (by simpa using h),
    fun x => does_of_launchTeam (exec_launchEnd · x) fun s th h => if_neg (by simpa using h),
    fun x => does_of_launchTeam (exec_launchPreempt · x) (g := fun s _ => (s, 1)) fun s th h => if_pos h,
    fun x => does_of_launchTeam (exec_launchResume · x) (g := fun s _ => (s, 1)) fun s th h => if_pos (by simpa using h),
    fun x => does_of_launchTeam (exec_launchEnd · x) (g := fun s _ => (s, 1)) fun s th h => if_pos (by simpa using h),
    fun s a l h => ?ended, fun x => does_of_launchTeam (exec_launchBind · x) fun _ _ _ => rfl,
    fun s tag b r th g hr ht hg => ?bind, ?ring,
    fun s hl h => ?idle, fun s h => by rw [exec_doneRingRecheck, execDoneRingRecheck, h]; rfl,
    fun s h hl => ?lost,
    fun s o q id a hid hl => startLaunch_lost hid hl⟩
  case found =>
    rintro s th ⟨h0, hm, hf⟩
    simp only [qwait_mask_ok h0 hm, hf, Bool.false_eq_true, if_false]
  case empty =>
    rintro s th ⟨h0, hm, hf⟩
    simp only [qwait_mask_ok h0 hm, hf, Bool.false_eq_true, if_false]
  case refused => simp only [qwait_mask_bad hm, if_true]
  case start =>
    have hexec := exec_launchStart s x
    refine ⟨fun id hs => ?_, fun n hn hs => ?_, fun hs => ?_, fun t va hs => ?_⟩
    · exact hexec.trans (runTeam_alone_of_done h (launchStartOne_ok hq hr hs))
    · refine hexec.trans (runTeam_alone_of_done h ((launchStartOne_code hq hr hs).trans ?_))
      rw [if_neg hn]
    · exact hexec.trans (runTeam_alone_of_done h (launchStartOne_code hq hr hs))
    · exact hexec.trans (runTeam_alone_of_stall h (launchStartOne_wait hq hr hs))
  case started =>
    obtain ⟨hid, l, n, hl, hlid, hq, hs, ha, hg⟩ := startLaunch_ok h
    obtain ⟨h1, h2, hnew⟩ := freeLaunchId_spec hid
    refine ⟨h1, h2, hnew, l, hl, hlid, hq, hs, ha, by rw [hg]; simp, fun g hgs => ?_⟩
    rw [hg, List.mem_append, List.mem_map] at hgs
    refine hgs.imp_right ?_
    rintro ⟨i, -, rfl⟩
    exact ⟨rfl, rfl⟩
  case reply =>
    refine ⟨fun hs => ?_, fun hs => ?_⟩
    · rw [replyTo_known hr ht hg, hs]
      rfl
    · rw [replyTo_known hr ht hg, hs]
      exact ⟨_, _, rfl, group?_modGroup_self _ (fun _ => rfl) (group?_id hg ▸ hg), rfl⟩
  case saved =>
    obtain ⟨hcode, -, hlaunches⟩ := resumeLaunch_of_saved h hs
    refine ⟨preemptLaunch_of_saved h hs, hcode, ?_, fun g hg hl hr hx hlive => resumed_group_is_due h hs (mem_toResume hg hl hr hx hlive)⟩
    rw [hlaunches]
    exact ⟨_, List.mem_map_of_mem (liveLaunch_spec h).1, by simp⟩
  case ended =>
    rw [endLaunchAt_of_live h]
    refine ⟨rfl, ?_, fun g hg hl => ?_, fun g hg => ?_, endLaunch_mem s l.id⟩
    · rw [endLaunch_launches]
      exact ⟨_, List.mem_map_of_mem (liveLaunch_spec h).1, by simp⟩
    · rw [endLaunch_groups] at hg
      obtain ⟨g0, -, rfl⟩ := List.mem_map.1 hg
      have hl0 : g0.launch = l.id := by
        split at hl
        · assumption
        · exact hl
      rw [if_pos (beq_iff_eq.2 hl0)]
      exact ⟨rfl, by simp⟩
    · rw [endLaunch_gangs] at hg
      simpa using (List.mem_filter.1 hg).2
  case bind =>
    intro slot w
    refine ⟨fun hs => ?_, fun hs hb hw hc => ?_, fun y hs hb hy hg' hslot hc => ?_⟩
    · exact bindWindow_bad hr ht hg hs
    · exact bindWindow_free hr ht hg hs hb (List.find?_eq_none.2 fun y hy => mt beq_iff_eq.1 (hw y hy)) hc
    · exact bindWindow_release hr ht hg hs hb hy hg' hslot hc
  case ring =>
    intro s s1 r rest hf hl hd hb q d tail at_ gone taken
    rw [exec_doneRingRecheck_free hf hl]
    refine ⟨fun hn hfull => ?_, fun hn hroom hw => ?_, fun hn => ?_⟩
    · rw [flushDone_full hd hb hn hfull]
    · rw [flushDone_written hd hb hn hroom hw]
      rfl
    · rw [flushDone_refused hd hb hn]
      rfl
  case idle => 
    by_cases hf : s.firmwareFree s.arg.q = true
    · rw [exec_doneRingRecheck_free hf hl, flushDone_of_idle h]
    · rw [exec_doneRingRecheck, execDoneRingRecheck, Bool.eq_false_of_not_eq_true hf]
      rfl
  case lost =>
    rw [exec_doneRingRecheck, execDoneRingRecheck, h, hl]
    rfl

end Sys2Proof.Machine
end

section
/-! SUPPORT. Answers to accesses outside the module, and what a failure or a sweep leaves as it was (20 R413 to R417). -/

namespace Sys2Proof.Machine

/-! ### What the bookkeeping of accesses leaves -/

/-- A thread without its accesses and what it keeps of them. -/
def Thread.sansOps (x : Thread) : Thread :=
  { x with ops := [], fences := [], acqs := [], relAt := none, saw := [], heard := [], relDeps := [], pend := [], park := false }

theorem eq_of_thread_sansOps_eq {α : Type} {x y : Thread} (p : Thread → α) (h : y.sansOps = x.sansOps)
    (hp : ∀ z : Thread, p z.sansOps = p z := by intro _; rfl) : p y = p x := by
  rw [← hp y, h, hp x]

/-- A state without outstanding accesses and requests. -/
def State.sansOps (s : State) : State :=
  { s with
    threads := s.threads.map Thread.sansOps, groups := s.groups.map fun g => { g with kdeps := [] }
    rels := [], replies := [], far := [], unacked := [] }

theorem eq_of_sansOps_eq {α : Type} {s t : State} (p : State → α) (h : t.sansOps = s.sansOps)
    (hp : ∀ r : State, p r.sansOps = p r := by intro _; rfl) : p t = p s := by
  rw [← hp t, h, hp s]

theorem thread?_sansOps (s : State) (u : Nat) : s.sansOps.thread? u = (s.thread? u).map Thread.sansOps :=
  find?_map_key Thread.id u Thread.sansOps (fun _ => rfl) s.threads

theorem thread?_of_sansOps_eq {s t : State} (h : t.sansOps = s.sansOps) (u : Nat) :
    (t.thread? u).map Thread.sansOps = (s.thread? u).map Thread.sansOps := by
  rw [← thread?_sansOps, h, thread?_sansOps]

/-- Threads and groups that have changed only so, with other requests. -/
theorem sansOps_of_map {s : State} {f : Thread → Thread} {g : Group → Group} (hf : ∀ x, (f x).sansOps = x.sansOps)
    (hg : ∀ y, { g y with kdeps := [] } = { y with kdeps := [] }) (rels : List RelTag) (un : List (Nat × Nat × Nat)) :
    State.sansOps { s with threads := s.threads.map f, groups := s.groups.map g, rels := rels, unacked := un } = s.sansOps := by
  simp only [State.sansOps, List.map_map]
  congr 1
  · exact List.map_congr_left fun x _ => hf x
  · exact List.map_congr_left fun y _ => hg y

theorem sansOps_mapThreads (s : State) {f : Thread → Thread} (hf : ∀ x, (f x).sansOps = x.sansOps) :
    State.sansOps { s with threads := s.threads.map f } = s.sansOps := by
  have h := sansOps_of_map (s := s) hf (g := id) (fun _ => rfl) s.rels s.unacked
  rwa [List.map_id] at h

theorem sansOps_modThread {f : Thread → Thread} (hf : ∀ x, (f x).sansOps = x.sansOps) (s : State) (t : Nat) :
    (s.modThread t f).sansOps = s.sansOps := by
  refine sansOps_mapThreads s fun x => ?_
  split
  · exact hf x
  · rfl

theorem sansOps_modGroup {f : Group → Group} (hf : ∀ y, { f y with kdeps := [] } = { y with kdeps := [] }) (s : State) (k : Nat) :
    (s.modGroup k f).sansOps = s.sansOps := by
  have h := sansOps_of_map (s := s) (f := id) (g := fun y => if y.id == k then f y else y) (fun _ => rfl) (fun y => ?_) s.rels s.unacked
  · rwa [List.map_id] at h
  · split
    · exact hf y
    · rfl

theorem sansOps_modAccess (s : State) (t id : Nat) (f : Access → Access) : (s.modAccess t id f).sansOps = s.sansOps := by
  refine sansOps_modThread (fun x => ?_) s t
  rfl

theorem sansOps_ite {s t u : State} {p : Prop} [Decidable p] (h : t.sansOps = s.sansOps) (k : u.sansOps = s.sansOps) :
    (if p then t else u).sansOps = s.sansOps := by
  split
  · exact h
  · exact k

theorem sansOps_pumpFar (s : State) : s.pumpFar.sansOps = s.sansOps := by
  refine foldl_keeps (p := State.sansOps) (fun s x => ?_) _ _
  exact sansOps_ite rfl rfl

theorem countOut_eq (s : State) (a : Access) : s.countOut a = { s with unacked := (s.countOut a).unacked } := by
  unfold State.countOut
  split <;> rfl

theorem sansOps_sendAccess (s : State) (th : Thread) (a : Access) : (s.sendAccess th a).sansOps = s.sansOps := by
  unfold State.sendAccess
  rw [countOut_eq]
  refine sansOps_mapThreads s fun x => ?_
  split <;> rfl

theorem sansOps_pump (s : State) : s.pump.sansOps = s.sansOps := by
  refine (sansOps_pumpFar _).trans (foldl_keeps (p := State.sansOps) (fun s x => foldl_keeps (p := State.sansOps) (fun s a0 => ?_) _ _) _ _)
  split
  · rfl
  · exact sansOps_ite (sansOps_sendAccess ..) rfl

theorem sansOps_leave (s : State) (th : Thread) (key : Nat) : (s.leave th key).sansOps = s.sansOps := by
  unfold State.leave
  split
  · rfl
  · refine sansOps_modGroup (fun g => ?_) s th.group
    rfl

theorem sansOps_see (s : State) (t : Nat) (ids : List Nat) : (s.see t ids).sansOps = s.sansOps := by
  unfold State.see
  split
  · rfl
  · refine sansOps_modThread (fun x => ?_) s t
    rfl

theorem sansOps_fenceDone (s : State) (t : Nat) (q : Acq) : (s.fenceDone t q).sansOps = s.sansOps := by
  unfold State.fenceDone
  split
  · rfl
  · dsimp only
    refine sansOps_ite ((sansOps_leave ..).trans ?_) ?_
    all_goals
      refine (sansOps_modThread (fun x => ?_) _ t).trans (sansOps_see ..)
      rfl

theorem sansOps_fencesDone (s : State) : s.fencesDone.sansOps = s.sansOps :=
  foldl_keeps (p := State.sansOps) (fun _ _ => foldl_keeps (p := State.sansOps)
    (fun s _ => sansOps_ite (sansOps_fenceDone s _ _) rfl) _ _) _ _

theorem sansOps_queueUp (s : State) : s.queueUp.sansOps = s.sansOps := by
  refine sansOps_mapThreads s fun x => ?_
  rfl

theorem sansOps_sweep (s : State) : s.sweep.sansOps = s.sansOps := by
  unfold State.sweep
  refine (sansOps_pump _).trans (((sansOps_of_map (s := s.fencesDone.queueUp.mapThreads fun x => _) (fun x => ?_) (fun g => ?_) _ _).trans (sansOps_mapThreads _ fun x => ?_)).trans
    ((sansOps_queueUp _).trans (sansOps_fencesDone s)))
  · rfl
  · split <;> rfl
  · rfl

theorem sansOps_failReleases (fuel : Nat) (s : State) (id : Nat) (f : Fail) : (s.failReleases fuel id f).sansOps = s.sansOps := by
  induction fuel generalizing s id with
  | zero => rfl
  | succ fuel ih =>
    unfold State.failReleases
    refine (foldl_keeps (p := State.sansOps) (fun s (b : Access) => ih s b.id) _ _).trans ?_
    refine sansOps_mapThreads { s with unacked := _ } fun x => ?_
    rfl

theorem sansOps_accessFailed (s : State) (a : Access) (f : Fail) : (s.accessFailed a f).sansOps = s.sansOps :=
  sansOps_ite (sansOps_failReleases ..) rfl

theorem sansOps_failAt (s : State) (th : Thread) (a : Access) (f : Fail) : (s.failAt th a f).sansOps = s.sansOps :=
  (sansOps_sweep _).trans ((sansOps_accessFailed ..).trans (sansOps_modAccess ..))

theorem sansOps_answerFar (s : State) (id : Nat) (x : Answer) : (s.answerFar id x).sansOps = s.sansOps := sansOps_pump _

theorem sansOps_loseFar (s : State) (lost : Nat → Bool) : (s.loseFar lost).sansOps = s.sansOps := by
  refine (foldl_keeps (p := State.sansOps) (fun s x => sansOps_ite (sansOps_answerFar ..) rfl) _ _).trans
    (foldl_keeps (p := State.sansOps) (fun s x => foldl_keeps (p := State.sansOps) (fun s a => ?_) _ _) _ _)
  split
  · exact sansOps_failAt ..
  · rfl

/-! ### A load stays with its thread until it completes -/

/-- Thread u has a load with this identifier and operation at this place. -/
def State.hasLoad (s : State) (u id : Nat) (op : MemOp) (p : Place) : Prop :=
  ∃ th, s.thread? u = some th ∧ ∃ b ∈ th.ops, b.id = id ∧ b.op = op ∧ b.place = p

section
variable {u id : Nat} {op : MemOp} {p : Place}

theorem hasLoad_of_map {s t : State} {f : Thread → Thread} (ht : t.threads = s.threads.map f) (hid : ∀ x, (f x).id = x.id)
    (hf : ∀ x, ∀ b ∈ x.ops, b.op = op → ∃ c ∈ (f x).ops, c.id = b.id ∧ c.op = b.op ∧ c.place = b.place) (h : s.hasLoad u id op p) :
    t.hasLoad u id op p := by
  obtain ⟨th, hth, b, hb, hbid, hop, hp⟩ := h
  obtain ⟨c, hc, hcid, hcop, hcp⟩ := hf th b hb hop
  refine ⟨f th, ?_, c, hc, hcid.trans hbid, hcop.trans hop, hcp.trans hp⟩
  rw [State.thread?, ht]
  exact (find?_map_key Thread.id u f hid _).trans (congrArg (Option.map f) hth)

/-- Each access of a thread changes in nothing that counts here. -/
theorem hasLoad_of_mapOps {s t : State} {f : Thread → Thread} {g : Thread → Access → Access} (ht : t.threads = s.threads.map f)
    (hid : ∀ x, (f x).id = x.id) (hf : ∀ x, (f x).ops = x.ops.map (g x))
    (hg : ∀ x b, (g x b).id = b.id ∧ (g x b).op = b.op ∧ (g x b).place = b.place) (h : s.hasLoad u id op p) : t.hasLoad u id op p :=
  hasLoad_of_map ht hid (fun x b hb _ => ⟨g x b, by rw [hf]; exact List.mem_map_of_mem hb, hg x b⟩) h

theorem hasLoad_of_threads {s t : State} (ht : t.threads = s.threads) (h : s.hasLoad u id op p) : t.hasLoad u id op p :=
  hasLoad_of_mapOps (f := fun x => x) (g := fun _ b => b) (by rw [ht, List.map_id']) (fun _ => rfl) (fun x => (List.map_id' _).symm)
    (fun _ _ => ⟨rfl, rfl, rfl⟩) h

theorem foldl_of_step {α β : Type} {P : β → Prop} {f : β → α → β} (hf : ∀ s x, P s → P (f s x)) (l : List α) {s : β} (h : P s) :
    P (l.foldl f s) :=
  List.foldlRecOn (motive := P) l f h fun s hs x _ => hf s x hs

theorem hasLoad_modThread {s : State} {t : Nat} {f : Thread → Thread} (hid : ∀ x, (f x).id = x.id) (hf : ∀ x, (f x).ops = x.ops)
    (h : s.hasLoad u id op p) : (s.modThread t f).hasLoad u id op p :=
  hasLoad_of_mapOps (f := fun x => if x.id == t then f x else x) (g := fun _ b => b) rfl
    (fun x => by split; exacts [hid x, rfl]) (fun x => by split <;> simp [hf]) (fun _ _ => ⟨rfl, rfl, rfl⟩) h

theorem hasLoad_see {s : State} {t : Nat} {ids : List Nat} (h : s.hasLoad u id op p) : (s.see t ids).hasLoad u id op p := by
  unfold State.see
  split
  · exact h
  · exact hasLoad_modThread (fun _ => rfl) (fun _ => rfl) h

theorem leave_threads (s : State) (th : Thread) (key : Nat) : (s.leave th key).threads = s.threads := by
  unfold State.leave
  split <;> rfl

theorem hasLoad_fencesDone {s : State} (h : s.hasLoad u id op p) : s.fencesDone.hasLoad u id op p := by
  refine foldl_of_step (P := (State.hasLoad · u id op p)) (fun s x h =>
    foldl_of_step (P := (State.hasLoad · u id op p)) (fun s q h => ?_) _ h) _ h
  split
  · unfold State.fenceDone
    split
    · exact h
    · dsimp only
      split
      · exact hasLoad_of_threads (leave_threads ..) (hasLoad_modThread (fun _ => rfl) (fun _ => rfl) (hasLoad_see h))
      · exact hasLoad_modThread (fun _ => rfl) (fun _ => rfl) (hasLoad_see h)
  · exact h

theorem hasLoad_queueUp {s : State} (h : s.hasLoad u id op p) : s.queueUp.hasLoad u id op p := by
  refine hasLoad_of_mapOps rfl (fun _ => rfl) (fun _ => rfl) (fun x b => ?_) h
  split
  · split <;> exact ⟨rfl, rfl, rfl⟩
  · exact ⟨rfl, rfl, rfl⟩

theorem pumpFar_threads (s : State) : s.pumpFar.threads = s.threads := by
  refine foldl_keeps (p := State.threads) (fun s x => ?_) _ _
  exact (apply_ite State.threads ..).trans (ite_self _)

theorem hasLoad_sendAccess {s : State} {th : Thread} {a : Access} (h : s.hasLoad u id op p) : (s.sendAccess th a).hasLoad u id op p := by
  refine hasLoad_of_mapOps (s := s.countOut a)
    (g := fun y b => if y.id == th.id then if b.id == a.id then { b with sent := true, bufs := bufferedFor th a } else b else b)
    rfl (fun x => ?_) (fun x => ?_) (fun x b => ?_) (hasLoad_of_threads (by rw [countOut_eq]) h)
  · split <;> rfl
  · split
    · rfl
    · exact (List.map_id' _).symm
  · split
    · split <;> exact ⟨rfl, rfl, rfl⟩
    · exact ⟨rfl, rfl, rfl⟩

theorem hasLoad_pump {s : State} (h : s.hasLoad u id op p) : s.pump.hasLoad u id op p := by
  refine hasLoad_of_threads (pumpFar_threads _) (foldl_of_step (P := (State.hasLoad · u id op p)) (fun s x h =>
    foldl_of_step (P := (State.hasLoad · u id op p)) (fun s a0 h => ?_) _ h) _ h)
  split
  · exact h
  · split
    · exact hasLoad_sendAccess h
    · exact h

theorem hasLoad_sweep {s : State} (hl : op.isLoad = true) (h : s.hasLoad u id op p) : s.sweep.hasLoad u id op p := by
  have hkept : (s.fencesDone.queueUp.mapThreads fun x =>
      { x with ops := x.ops.filter fun a => !(a.fixed && !a.counted) || a.op.isLoad }).hasLoad u id op p :=
    hasLoad_of_map rfl (fun _ => rfl) (fun x b hb hop => ⟨b, List.mem_filter.2 ⟨hb, by rw [hop, hl, Bool.or_true]⟩, rfl, rfl, rfl⟩)
      (hasLoad_queueUp (hasLoad_fencesDone h))
  exact hasLoad_pump (hasLoad_of_mapOps rfl (fun _ => rfl) (fun _ => (List.map_id' _).symm) (fun _ _ => ⟨rfl, rfl, rfl⟩) hkept)

end

/-! ### The part of an access that an answer concerns -/

section
variable {s : State} {th : Thread} {a : Access}

/-- Without a second page, what is left of an access that has no part yet is all of it. -/
theorem halfOf_whole (ht : a.tail = none) (hh : a.half = 0) (far : Bool) : halfOf a 0 far = (3, 0, a.size) := by
  unfold halfOf
  dsimp only
  rw [hh]
  by_cases hs : a.split = true
  · simp [hs]
  · have : a.apart = false := by simp [Access.apart, hs, ht]
    simp [this]

theorem part_whole (a : Access) (o : Nat) : a.part o a.size = a := if_pos (beq_self_eq_true _)

theorem putBytes_whole {n : Nat} {bs : List Byte} (old : List Byte) (h : bs.length = n) : putBytes n old 0 bs = bs := by
  simp [putBytes, patch, h]

section
variable (hf : a.place.far = true) (ht : a.tail = none) (hs : a.sent = true) (hx : a.fixed = false) (hh : a.half = 0) (hn : s.arg.n = 0)
include hf ht hs hx hh hn

/-- An answer in time is a report of a failure, or what the access waited for. -/
theorem answerAccess_late (hb : a.born + 14000000 ≤ s.cycle) : s.answerAccess th a = s.failAt th a (farFail a.place 3) := by
  simp [State.answerAccess, hn, halfOf_whole ht hh, part_whole, hf, hs, hx, hh, State.timedOut, hb]

variable (hb : s.cycle < a.born + 14000000)
include hb

theorem answerAccess_report {c : BitVec 8} (hd : s.arg.detail = some c) :
    s.answerAccess th a = if c = 2 ∨ c = 4 then s.failAt th a (farFail a.place c.toNat) else s := by
  simp [State.answerAccess, hn, halfOf_whole ht hh, part_whole, hf, hs, hx, hh, State.timedOut, hb, hd, reportable]

/-- The state in which a whole access no longer counts in a send window. -/
def State.uncounted (s : State) (a : Access) : State := { s with unacked := s.unacked.filter fun u => u.2.1 != a.id }

variable (hd : s.arg.detail = none)
include hd

theorem answerAccess_load {ty : Ty} (ho : a.op = .ld ty) (hbuf : a.bufs = []) : s.answerAccess th a
    = (s.uncounted a).finishLoad th a (loadVal ty ((s.arg.data ++ List.replicate a.size 0).take a.size)) 0 := by
  simp [State.answerAccess, hn, halfOf_whole ht hh, part_whole, hf, hs, hx, hh, State.timedOut, hb, hd, ho, hbuf, State.gotPart,
    State.finishRead, putBytes_whole, State.uncount, State.uncounted]

theorem answerAccess_atomic {ty : Ty} {op : Nat} {b c : Dword} (ho : a.op = .atom ty op b c) : s.answerAccess th a
    = ((s.uncounted a).stickyFlags th s.arg.flags).finishLoad th a (ofBytes ((s.arg.data ++ List.replicate a.size 0).take a.size))
        (if a.dst == .zero then 0 else s.arg.flags) := by
  simp [State.answerAccess, hn, halfOf_whole ht hh, part_whole, hf, hs, hx, hh, State.timedOut, hb, hd, ho, State.uncount, State.uncounted]

theorem answerAccess_store {d : List Byte} (ho : a.op = .st d) : s.answerAccess th a
    = ((s.uncounted a).modAccess th.id a.id fun x => { x with half := 3, fixed := true }).sweep := by
  simp [State.answerAccess, hn, halfOf_whole ht hh, part_whole, hf, hs, hx, hh, State.timedOut, hb, hd, ho, State.uncount, State.uncounted,
    MemOp.isSt]

theorem answerAccess_reduction {ty : Ty} {op : Nat} {b : Dword} {slot : Option Nat} (ho : a.op = .red ty op b slot) : s.answerAccess th a
    = (((s.uncounted a).stickyFlags th s.arg.flags).modAccess th.id a.id fun x => { x with half := 3, fixed := true }).sweep := by
  simp [State.answerAccess, hn, halfOf_whole ht hh, part_whole, hf, hs, hx, hh, State.timedOut, hb, hd, ho, State.uncount, State.uncounted,
    MemOp.isSt]

end

/-! ### What an access awaits -/

theorem awaited_far (hf : a.place.far = true) (ht : a.tail = none) (hs : a.sent = true) (hx : a.fixed = false) (hh : a.half = 0) :
    s.awaited th a = some a.place := by
  simp [State.awaited, halfOf_whole ht hh, part_whole, hf, hs, hx, hh]

/-- No part of an access within the module, or to a host, lies further outside. -/
theorem part_near (ht : a.tail = none) (hf : a.place.far = false) (o n : Nat) : (a.part o n).place.far = false := by
  unfold Access.part
  split
  · exact hf
  · dsimp only
    rw [ht]
    generalize a.place = p at hf
    cases p with
    | remote | pcie => cases hf
    | _ => rfl

theorem awaited_host {ty : Ty} {site pa c : Nat} (ho : a.op = .ld ty) (hp : a.place = .host site pa c) (ht : a.tail = none)
    (hx : a.fixed = false) (hm : s.mayRead th a = true) : s.awaited th a = some (.host site 0 0) := by
  have hpieces : a.hostSite = some site := by
    by_cases h : a.split = true
    · simp [Access.hostSite, Access.pieces, MemOp.touches, ho, h, hp]
    · simp [Access.hostSite, Access.pieces, MemOp.touches, ho, h, ht, hp]
  have hnear := fun o n => part_near ht (hp ▸ rfl) o n
  simp [State.awaited, hnear, hx, ho, MemOp.writes, hm, hpieces]

end

/-! ### Requests of other agents -/

section
variable {s : State} {x : FarReq} (ha : s.access? s.arg.a = none) (hx : s.far.find? (fun x => x.id == s.arg.a) = some x)
  (hs : x.sent = true) (hn : x.answer = .none)
include ha hx hs hn

theorem exec_fabricTimeout_request : exec .fabricTimeout s
    = .next (if x.born + 14000000 ≤ s.cycle then s.answerFar x.id (.fail (farFail x.place 3)) else s) := by
  simp [exec_fabricTimeout, execFabricTimeout, ha, hx, hs, hn, State.timedOut]

variable (hf : x.place.far = true)
include hf

theorem exec_fabricResponse_request_late (hb : x.born + 14000000 ≤ s.cycle) :
    exec .fabricResponse s = .next (s.answerFar x.id (.fail (farFail x.place 3))) := by
  simp [exec_fabricResponse, execFabricResponse, ha, hx, hs, hn, hf, State.timedOut, hb]

variable (hb : s.cycle < x.born + 14000000)
include hb

theorem exec_fabricResponse_request_data (hd : s.arg.detail = none) :
    exec .fabricResponse s = .next (s.answerFar x.id (.data s.arg.data s.arg.flags)) := by
  simp [exec_fabricResponse, execFabricResponse, ha, hx, hs, hn, hf, State.timedOut, hb, hd]

theorem exec_fabricResponse_request_report {c : BitVec 8} (hd : s.arg.detail = some c) : exec .fabricResponse s
    = .next (if c = 2 ∨ c = 4 then s.answerFar x.id (.fail (farFail x.place c.toNat)) else s) := by
  simp [exec_fabricResponse, execFabricResponse, ha, hx, hs, hn, hf, State.timedOut, hb, hd, reportable]

end

section
variable {s : State} {th : Thread} {a : Access} (ha : s.access? s.arg.a = some (th, a))
include ha

theorem exec_fabricResponse_access : exec .fabricResponse s = .next (s.answerAccess th a) := by
  simp [exec_fabricResponse, execFabricResponse, ha]

theorem exec_fabricTimeout_access {p : Place} (hp : s.awaited th a = some p) :
    exec .fabricTimeout s = .next (if a.born + 14000000 ≤ s.cycle then s.failAt th a (farFail p 3) else s) := by
  simp [exec_fabricTimeout, execFabricTimeout, ha, hp, State.timedOut]

end

/-! ### Lost paths (20 R417) -/

/-- Nothing of the module is on its way to a device that is lost. -/
theorem loseFar_of_none {s : State} {lost : Nat → Bool} (hops : ∀ x ∈ s.threads, ∀ a ∈ x.ops, ∀ p ∈ a.pieces, ∀ d, remoteDev p.1 = some d → lost d = false)
    (hfar : ∀ x ∈ s.far, ∀ d, remoteDev x.place = some d → lost d = false) : s.loseFar lost = s := by
  unfold State.loseFar
  dsimp only
  rw [foldl_of_fixed (b := s) (l := s.threads)]
  · refine foldl_of_fixed fun x hx => if_neg fun hc => ?_
    have hlost := (Bool.and_eq_true_iff.1 hc).1
    split at hlost
    next d hd => exact Bool.false_ne_true ((hfar x hx d hd).symm.trans hlost)
    next => cases hlost
  · refine fun x hx => foldl_of_fixed fun a ha => ?_
    split
    next p hp _ =>
      have hlost := List.find?_some hp
      split at hlost
      next d hd => exact absurd ((hops x hx a ha p (List.mem_of_find?_eq_some hp) d hd).symm.trans hlost) Bool.false_ne_true
      next => cases hlost
    next => rfl

theorem physPlace_of_lost_path {s : State} {leaf : Dword} {pa n : Nat} {wr svc : Bool} (h62 : leaf.getLsbD 62 = true)
    (hdev : (leaf.extractLsb' 54 8).toNat ≠ s.img.devId) (hm : s.img.members.contains (leaf.extractLsb' 54 8).toNat = true)
    (hl : s.lostPaths.contains (leaf.extractLsb' 54 8).toNat = true) : s.physPlace leaf pa n wr svc
      = .failed { cause := .fabric, detail := fabricDetail 0 4 (leaf.extractLsb' 54 8).toNat } 0 := by
  have hclass : s.physClass leaf pa n wr svc = .remote (leaf.extractLsb' 54 8).toNat pa (leaf.extractLsb' 8 2).toNat :=
    if_pos (by rw [h62]; simpa using hdev)
  rw [State.physPlace, hclass]
  simp only [State.linkFail, hm, hl, Bool.not_true, Bool.or_true, Bool.false_eq_true, if_false, if_true]
  rfl

/-- What a load's failure leaves: memory, the registers of its thread, and the load at its failure. -/
theorem failAt_load {s : State} {th : Thread} {a : Access} {f : Fail} {ty : Ty} (h : s.thread? th.id = some th) (ha : a ∈ th.ops)
    (ho : a.op = .ld ty) : ∃ th2, (s.failAt th a f).thread? th.id = some th2 ∧ th2.sansOps = th.sansOps
      ∧ ∃ b ∈ th2.ops, b.id = a.id ∧ b.place = .failed f a.va := by
  have hfailed : (s.modAccess th.id a.id fun x => { x with place := .failed f a.va }).hasLoad th.id a.id (.ld ty) (.failed f a.va) := by
    refine ⟨_, thread?_modThread_self _ (fun _ => rfl) h, _, List.mem_map_of_mem ha, ?_⟩
    rw [if_pos (beq_self_eq_true _)]
    exact ⟨rfl, ho, rfl⟩
  have hplain : ((s.modAccess th.id a.id fun x => { x with place := .failed f a.va }).accessFailed a f).hasLoad th.id a.id (.ld ty)
      (.failed f a.va) := by
    rw [State.accessFailed, ho]
    exact hasLoad_of_threads rfl hfailed
  obtain ⟨th2, h2, b, hb, hid, -, hp⟩ := hasLoad_sweep rfl hplain
  have hsame := thread?_of_sansOps_eq (sansOps_failAt s th a f) th.id
  rw [State.failAt, h2, h] at hsame
  exact ⟨th2, h2, Option.some.inj hsame, b, hb, hid, hp⟩

theorem mapThreads_mem (s : State) (f : Thread → Thread) : (s.mapThreads f).mem = s.mem := by
  unfold State.mapThreads
  rfl

/-- SEND_WINDOW_ROOM releases just the threads whose send window has room. -/
theorem execSendWindowRoom_eq (s : State) : ∃ f : Thread → Thread, execSendWindowRoom s = .next (s.mapThreads f).pump
    ∧ (∀ x, (f x).id = x.id)
    ∧ ∀ x d, x.hold = .window d → (f x).hold = if s.outTo d < s.sendLimit d then .none else .window d := by
  refine ⟨_, rfl, fun x => ?_, fun x d hx => ?_⟩
  · split
    · split <;> rfl
    · rfl
  · rw [hx]
    dsimp only
    split
    · rfl
    · exact hx

/-- Settles O44: an answer, a report or a time-out changes just its access or request, and a lost path those to its device. -/
theorem fabricAnswersAndLosses : Obligations.FabricAnswersAndLosses := by
  refine ⟨fun s th a ha hf ht hs hx hh hn => ?access, fun s x ha hx hf hs hn => ?request, fun s hops hfar hn => ?lossNone,
    fun s leaf pa n wr svc h62 hdev hm hl => ?path, fun s => ?room, fun s => ?loss,
    fun s th a ty site pa c ha ho hp ht hx hm => ?hostLoad,
    fun s th a f ty h ha ho => ?failed⟩
  case access =>
    intro s1 bs
    have hresponse := exec_fabricResponse_access ha
    have htimeout := exec_fabricTimeout_access ha (awaited_far hf ht hs hx hh)
    refine ⟨fun hb => ⟨fun ty hd ho hbuf => ?_, fun d hd ho => ?_, fun ty op b c hd ho => ?_, fun ty op b slot hd ho => ?_,
      fun c hd => ?_, ?_⟩, fun hb => ⟨?_, ?_⟩⟩
    · rw [hresponse, answerAccess_load hf ht hs hx hh hn hb hd ho hbuf]
      rfl
    · rw [hresponse, answerAccess_store hf ht hs hx hh hn hb hd ho]
      rfl
    · rw [hresponse, answerAccess_atomic hf ht hs hx hh hn hb hd ho]
      rfl
    · rw [hresponse, answerAccess_reduction hf ht hs hx hh hn hb hd ho]
      rfl
    · rw [hresponse, answerAccess_report hf ht hs hx hh hn hb hd]
    · rw [htimeout, if_neg (Nat.not_le_of_lt hb)]
    · rw [htimeout, if_pos hb]
    · rw [hresponse, answerAccess_late hf ht hs hx hh hn hb]
  case request =>
    have htimeout := exec_fabricTimeout_request ha hx hs hn
    refine ⟨fun hb => ⟨fun hd => exec_fabricResponse_request_data ha hx hs hn hf hb hd,
      fun c hd => exec_fabricResponse_request_report ha hx hs hn hf hb hd, ?_⟩,
      fun hb => ⟨?_, exec_fabricResponse_request_late ha hx hs hn hf hb⟩⟩
    · rw [htimeout, if_neg (Nat.not_le_of_lt hb)]
    · rw [htimeout, if_pos hb]
  case lossNone =>
    have hne : ∀ p : Place, remoteDev p ≠ some s.arg.n → ∀ d, remoteDev p = some d → (d == s.arg.n) = false := by
      intro p hp d hd
      simp only [beq_eq_false_iff_ne]
      rintro rfl
      exact hp hd
    rw [exec_fabricPathLoss, execFabricPathLoss, if_neg (by simpa using hn)]
    rw [loseFar_of_none]
    · exact fun x hx a ha p hp => hne _ (hops x hx a ha p hp)
    · exact fun x hx => hne _ (hfar x hx)
  case hostLoad =>
    rw [exec_fabricTimeout_access ha (awaited_host ho hp ht hx hm), show farFail (.host site 0 0) 3 = fabricFail 1 3 site from rfl]
  case path => exact physPlace_of_lost_path h62 hdev hm hl
  case room =>
    obtain ⟨f, hexec, hid, hhold⟩ := execSendWindowRoom_eq s
    have hkeep := sansOps_pump (s.mapThreads f)
    refine ⟨_, (exec_sendWindowRoom s).trans hexec, (eq_of_sansOps_eq State.mem hkeep).trans (mapThreads_mem s f), fun u th d h hh => ?_⟩
    have hthread : ((s.mapThreads f).pump.thread? u).map Thread.sansOps = some (f th).sansOps := by
      rw [thread?_of_sansOps_eq hkeep, State.thread?, State.mapThreads, find?_map_key Thread.id u f hid,
        show s.threads.find? (fun x => x.id == u) = some th from h]
      rfl
    obtain ⟨th2, h2, hsame⟩ := Option.map_eq_some_iff.1 hthread
    rw [h2, Option.map_some, eq_of_thread_sansOps_eq Thread.hold hsame, hhold th d hh]
  case loss =>
    have hkeep := sansOps_loseFar { s with lostPaths := if s.lostPaths.contains s.arg.n then s.lostPaths else s.lostPaths ++ [s.arg.n] }
      (· == s.arg.n)
    have hmem := eq_of_sansOps_eq State.mem hkeep
    refine ⟨_, exec_fabricPathLoss s, ?_, hmem⟩
    rw [eq_of_sansOps_eq State.lostPaths hkeep]
    split
    next hc => simpa using hc
    next => simp
  case failed =>
    obtain ⟨th2, h2, hsame, hb⟩ := failAt_load (f := f) h ha ho
    exact ⟨eq_of_sansOps_eq State.mem (sansOps_failAt s th a f), th2, h2, eq_of_thread_sansOps_eq Thread.v hsame, eq_of_thread_sansOps_eq Thread.o hsame,
      eq_of_thread_sansOps_eq Thread.p hsame, hb⟩

end Sys2Proof.Machine
end

section
/-! SUPPORT. Page requests and replies, shoot-downs and page-home moves (18 R391 to R396, 20 R407). -/

namespace Sys2Proof.Machine

/-! ### Requests (18 R392, 20 R407) -/

theorem length_pageReq_bytes (r : PageReq) : r.bytes.length = 32 := by simp [PageReq.bytes, length_toBytes]

theorem hostPa_clear {site : Nat} (h : site < 2) (a n : Nat) : ¬(tableBase ≤ hostPa site a + n ∧ hostPa site a + n < tableBase + 8192) ∨ 4096 ≤ n := by
  unfold hostPa tableBase
  omega

theorem readPhys_of_memory {s : State} {pa : Nat} (h : ¬(tableBase ≤ pa ∧ pa < tableBase + 8192)) (n : Nat) : s.readPhys pa n = s.mem.load pa n :=
  if_neg (by simpa using h)

/-- A request that finds room is written at the tail of its ring, which moves on. -/
theorem sendReq_of_room {s : State} {r : PageReq} (hm : s.mem.wf = true) (hr : r ∈ s.preqs) (hs : r.sent = false)
    (hu : s.hostUp.getD r.site false = true) (h2 : r.site < 2) (hc : s.control.length = 2)
    (hroom : ((s.control.getD r.site {}).prqTail - (s.control.getD r.site {}).prqHead).toNat < (s.control.getD r.site {}).prqCap) :
    (s.sendReq r).readPhys (hostPa r.site ((s.control.getD r.site {}).prqBase
        + 32 * ((s.control.getD r.site {}).prqTail.toNat % (s.control.getD r.site {}).prqCap))) 32 = r.bytes
    ∧ ((s.sendReq r).control.getD r.site {}).prqTail = (s.control.getD r.site {}).prqTail + 1
    ∧ (∃ x ∈ (s.sendReq r).preqs, x.tag = r.tag ∧ x.sent = true) ∧ (s.sendReq r).threads = s.threads := by
  have hclear := (hostPa_clear h2 ((s.control.getD r.site {}).prqBase
    + 32 * ((s.control.getD r.site {}).prqTail.toNat % (s.control.getD r.site {}).prqCap)) 0).resolve_right (by omega)
  rw [Nat.add_zero] at hclear
  have hsend : s.sendReq r = _ := if_pos (by rw [hs, hu, decide_eq_true hroom]; rfl)
  rw [hsend]
  generalize s.control.getD r.site {} = k at hclear ⊢
  generalize hostPa r.site (k.prqBase + 32 * (k.prqTail.toNat % k.prqCap)) = pa at hclear ⊢
  obtain ⟨c, p, o, code, qs, hw⟩ := writePhys_eq (s := s) hclear none r.bytes false
  rw [hw]
  refine ⟨?_, ?_, ⟨{ r with sent := true }, ?_, rfl, rfl⟩, rfl⟩
  · have hload := Memory.load_store hm pa r.bytes
    rw [length_pageReq_bytes] at hload
    rw [readPhys_of_memory hclear]
    dsimp only
    exact hload
  · simp [List.getD_eq_getElem?_getD, hc, h2]
  · exact List.mem_map.2 ⟨r, hr, if_pos (beq_self_eq_true _)⟩

theorem sendReq_of_full {s : State} {r : PageReq}
    (h : (s.control.getD r.site {}).prqCap ≤ ((s.control.getD r.site {}).prqTail - (s.control.getD r.site {}).prqHead).toNat) : s.sendReq r = s :=
  if_neg (by rw [decide_eq_false (Nat.not_lt_of_le h), Bool.and_false]; exact Bool.false_ne_true)

/-! ### Replies (18 R393) -/

theorem pageReply_discarded {s : State} {bs : List Byte} (h : bs.length ≠ 16 ∨ zeros bs 9 7 = false ∨ 1 < field bs 8 1
      ∨ ∀ r ∈ s.preqs, r.sent = true → r.table = none → r.tag ≠ field bs 0 8) : s.pageReply bs = s := by
  unfold State.pageReply
  split
  · rfl
  next hok =>
    split
    · rfl
    next r hr =>
      have hsel := List.find?_some hr
      simp only [Bool.and_eq_true, Option.isNone_iff_eq_none, beq_iff_eq] at hsel
      obtain ⟨⟨hs, ht⟩, htag⟩ := hsel
      simp only [Bool.or_eq_true, bne_iff_ne, decide_eq_true_eq, not_or, ne_eq, not_not, Bool.not_eq_true', Bool.not_eq_false] at hok
      obtain ⟨⟨hlen, hz⟩, hst⟩ := hok
      rcases h with h | h | h | h
      · exact absurd hlen h
      · exact absurd (hz.symm.trans h) nofun
      · exact absurd h hst
      · exact absurd htag (h r (List.mem_of_find?_eq_some hr) hs ht)

theorem pageReply_known {s : State} {bs : List Byte} {r : PageReq} (hl : bs.length = 16) (hz : zeros bs 9 7 = true)
    (hr : s.preqs.find? (fun r => r.sent && r.table.isNone && r.tag == field bs 0 8) = some r) (hst : field bs 8 1 ≤ 1) : s.pageReply bs
      = if field bs 8 1 = 0 then State.serviced { s with preqs := s.preqs.filter fun x => x.tag != r.tag } r
        else State.refusedPage { s with preqs := s.preqs.filter fun x => x.tag != r.tag } r := by
  simp [State.pageReply, hl, hz, hr, Nat.not_lt_of_le hst]

/-- Where no access is outstanding, a serviced request just releases what waited for it. -/
theorem serviced_threads {s : State} {r : PageReq} (hops : ∀ x ∈ s.threads, x.ops = []) (hl : ∀ l ∈ s.launches, l.tag ≠ some r.tag) :
    (s.serviced r).threads = s.threads.map fun x =>
      { x with hold := if (parkedOn r.tag x).isSome then .none else x.hold
               fetchTag := if x.fetchTag == some r.tag then none else x.fetchTag } := by
  have hretry : (s.uncache r.asid r.va).retryPages = s.uncache r.asid r.va := by
    refine if_neg ?_
    simp only [List.any_eq_true, not_exists, not_and]
    intro x hx
    rw [hops x hx]
    simp
  have hnone : ∀ l ∈ s.launches, (l.tag == some r.tag) = false := fun l h => by simpa using hl l h
  unfold State.serviced
  dsimp only
  rw [hretry, List.filter_eq_nil_iff.2]
  · rfl
  · intro l h
    obtain ⟨l0, h0, rfl⟩ := List.mem_map.1 h
    simpa using hl l0 h0

/-! ### Shoot-downs (18 R394, R395) -/

/-- Where no access is outstanding, a shoot-down removes what is cached, marks the descriptors near it, and sweeps. -/
theorem invalidate_of_idle {s : State} (h : ∀ x ∈ s.threads, x.ops = []) (x : Shoot) : (s.invalidate x).sansOps = State.sansOps { s with
    tlb := s.tlb.filter fun t => !x.hitsTlb t
    walkc := s.walkc.filter fun w => !x.hitsWalk w
    timers := s.timers.map fun e => if (s.launch? e.launch).any (fun l => l.space.asid == x.asid) && x.near e.va then { e with stale := true } else e
    threads := s.threads.map fun th => if (s.spaceOf th).asid == x.asid then refork x th else th } := by
  have hops : ∀ th : Thread, (refork x th).ops = th.ops := fun th => by
    unfold refork
    split
    · split <;> rfl
    · rfl
  have hidle : ∀ th ∈ s.threads.map fun th => if (s.spaceOf th).asid == x.asid then refork x th else th, th.ops = [] := by
    intro th hth
    obtain ⟨y, hy, rfl⟩ := List.mem_map.1 hth
    split
    · rw [hops, h y hy]
    · exact h y hy
  unfold State.invalidate
  dsimp only
  rw [List.filter_eq_nil_iff.2 fun (th : Thread) hth => by rw [hidle th hth]; exact Bool.false_ne_true]
  unfold State.rewalkAll
  rw [sansOps_sweep, foldl_of_fixed fun th hth => by rw [hidle th hth]; rfl]
  rfl

theorem hits_of_all {id site : Nat} {bs : List Byte}
    (h : field bs 4 4 = 0 ∨ 2 ^ 20 < field bs 4 4 ∨ field bs 8 8 % 4096 ≠ 0 ∨ field bs 2 1 = 1) (page n : Nat) :
    (parseShoot id site bs).hits page n = true := by
  have hall : (parseShoot id site bs).all = true := by
    unfold parseShoot
    rcases h with h | h | h | h
    all_goals simp [h] <;> omega
  rw [Shoot.hits, hall, Bool.true_or]

/-! ### The leaf of a moved page (18 R396) -/

theorem keptMask_bit : ∀ i < 64, (0x8030000000000FFF#64).getLsbD i = decide (i < 12 ∨ i = 52 ∨ i = 53 ∨ i = 63) := by decide

theorem frameMask_bit : ∀ i < 64, (0xFFFFFFFFFF#64).getLsbD i = decide (i < 40) := by decide

/-- A moved leaf, bit by bit. -/
theorem movedLeaf_bit (e : Dword) {pa dev : Nat} (rmt : Bool) (hdev : dev < 256) {i : Nat} (hi : i < 64) :
    (movedLeaf e pa rmt dev).getLsbD i = if i < 12 ∨ i = 52 ∨ i = 53 ∨ i = 63 then e.getLsbD i
      else if i < 52 then (pa / 4096).testBit (i - 12) else if i = 62 then rmt else dev.testBit (i - 54) := by
  have hrmt : (if rmt then 1#64 <<< 62 else 0#64 : Dword).getLsbD i = (rmt && decide (i = 62)) := by
    cases rmt
    · simp
    · simp only [if_true, BitVec.getLsbD_shiftLeft, BitVec.getLsbD_one, Bool.true_and]
      by_cases h : i = 62
      · simp [h]
      · simp [h]
        omega
  have hd : ∀ j, 8 ≤ j → dev.testBit j = false := fun j hj => Nat.testBit_lt_two_pow (hdev.trans_le (Nat.pow_le_pow_right (n := 2) (by omega) hj))
  simp only [movedLeaf, BitVec.getLsbD_or, BitVec.getLsbD_and, keptMask_bit i hi, hrmt, BitVec.getLsbD_shiftLeft, frameMask_bit (i - 12) (by omega),
    BitVec.getLsbD_ofNat, Nat.mod_eq_of_lt hdev]
  have hcase : i < 12 ∨ (12 ≤ i ∧ i < 52) ∨ i = 52 ∨ i = 53 ∨ (54 ≤ i ∧ i < 62) ∨ i = 62 ∨ i = 63 := by omega
  rcases hcase with h | ⟨h, h'⟩ | rfl | rfl | ⟨h, h'⟩ | rfl | rfl
  · simp [h, hi, show i < 54 by omega, show i ≠ 62 by omega, -BitVec.getLsbD_eq_getElem]
  · simp [h', hi, show ¬i < 12 by omega, show i < 54 by omega, show i ≠ 52 by omega, show i ≠ 53 by omega, show i ≠ 62 by omega,
      show i ≠ 63 by omega, show i - 12 < 40 by omega, show i - 12 < 64 by omega]
  · simp [-BitVec.getLsbD_eq_getElem]
  · simp [-BitVec.getLsbD_eq_getElem]
  · simp [hi, show ¬i < 12 by omega, show ¬i < 54 by omega, show ¬i < 52 by omega, show i ≠ 52 by omega, show i ≠ 53 by omega, show i ≠ 62 by omega,
      show i ≠ 63 by omega, show ¬ i - 12 < 40 by omega, show i - 54 < 64 by omega]
  · simp [hd 8]
  · simp [hd 9, -BitVec.getLsbD_eq_getElem]

theorem movedLeaf_keeps (e : Dword) {pa dev : Nat} (rmt : Bool) (hdev : dev < 256) :
    (movedLeaf e pa rmt dev).extractLsb' 0 12 = e.extractLsb' 0 12
    ∧ (movedLeaf e pa rmt dev).extractLsb' 12 40 = BitVec.ofNat 40 (pa / 4096)
    ∧ (movedLeaf e pa rmt dev).extractLsb' 52 2 = e.extractLsb' 52 2
    ∧ (movedLeaf e pa rmt dev).extractLsb' 54 8 = BitVec.ofNat 8 dev ∧ (movedLeaf e pa rmt dev).getLsbD 62 = rmt
    ∧ (movedLeaf e pa rmt dev).getLsbD 63 = e.getLsbD 63 := by
  have hbit := fun i (hi : i < 64) => movedLeaf_bit e (pa := pa) rmt hdev hi
  refine ⟨BitVec.eq_of_getLsbD_eq fun i hi => ?_, BitVec.eq_of_getLsbD_eq fun i hi => ?_, BitVec.eq_of_getLsbD_eq fun i hi => ?_,
    BitVec.eq_of_getLsbD_eq fun i hi => ?_, hbit 62 (by omega), hbit 63 (by omega)⟩
  all_goals rw [BitVec.getLsbD_extractLsb', hbit _ (by omega)]
  · rw [if_pos (by omega), BitVec.getLsbD_extractLsb']
  · rw [if_neg (by omega), if_pos (by omega), BitVec.getLsbD_ofNat, Nat.add_sub_cancel_left]
  · rw [if_pos (by omega), BitVec.getLsbD_extractLsb']
  · rw [if_neg (by omega), if_neg (by omega), if_neg (by omega), BitVec.getLsbD_ofNat, Nat.add_sub_cancel_left]

/-! ### The acknowledgement of a shoot-down (18 R394, R395) -/

/-- Nothing that came before the shoot-down can still take effect through a covered translation. -/
theorem shootWaits_eq_false_iff (s : State) (x : Shoot) : s.shootWaits x = false
    ↔ (∀ th ∈ s.threads, ∀ a ∈ th.ops, a.id < x.id → s.shootHits x th a = true → s.squashed a = true)
      ∧ ∀ y ∈ s.far, y.id < x.id → y.sent = true → y.place.far = true → y.answer ≠ .none := by
  simp [State.shootWaits]

section
variable {s : State} {x : Shoot} (hx : s.shoots.find? (fun x => x.site == s.arg.n) = some x)
include hx

theorem exec_shootdownAck_waits (h : s.shootWaits x = true) : exec .shootdownAck s = .next s := by
  simp only [exec_shootdownAck, execShootdownAck, hx, h, if_true]

variable (h : s.shootWaits x = false)
include h

theorem exec_shootdownAck_site (hn : x.site < 2) : exec .shootdownAck s = .next { s with
    shoots := s.shoots.filter fun y => y.id != x.id
    control := s.control.set x.site { s.control.getD x.site {} with sdDone := (s.control.getD x.site {}).sdDone + 1 } } := by
  simp only [exec_shootdownAck, execShootdownAck, hx, h, Bool.false_eq_true, if_false, if_neg (Nat.not_le_of_lt hn)]

theorem exec_shootdownAck_device (hn : 2 ≤ x.site) : exec .shootdownAck s = .next { s with
    shoots := s.shoots.filter fun y => y.id != x.id
    replies := s.replies ++ [.ack (x.site - 2)] } := by
  simp only [exec_shootdownAck, execShootdownAck, hx, h, Bool.false_eq_true, if_false, if_pos hn]

end

theorem not_mem_filter_id (x : Shoot) (l : List Shoot) : x ∉ l.filter fun y => y.id != x.id := by simp

/-! ### Page-home moves (18 R396) -/

section
variable {s : State}

theorem finishMove_of_waiting {s1 : State} {m : HomeMove} (h : s.askShoots (.side 0 m.queue) m.shoot s.otherDevices = (s1, false)
      ∨ s.askShoots (.side 0 m.queue) m.shoot s.otherDevices = (s1, true) ∧ s1.shootWaits m.shoot = true) : s.finishMove m = s1 := by
  rcases h with h | ⟨h, hw⟩
  · simp only [State.finishMove, h, Bool.not_false, Bool.true_or, if_true]
  · simp only [State.finishMove, h, hw, Bool.or_true, if_true]

theorem finishMove_of_answered {s1 : State} {m : HomeMove} (h : s.askShoots (.side 0 m.queue) m.shoot s.otherDevices = (s1, true))
    (hw : s1.shootWaits m.shoot = false) : s.finishMove m = { s1.farDrop (.side 0 m.queue) with
      moves := (s1.farDrop (.side 0 m.queue)).moves.filter fun y => y != m
      replies := (s1.farDrop (.side 0 m.queue)).replies ++ [.frame m.site m.frame] } := by
  simp only [State.finishMove, h, hw, Bool.not_true, Bool.or_self, Bool.false_eq_true, if_false]

variable (hm : s.moves.find? (fun m => m.queue == s.arg.q) = none)
include hm

theorem exec_pageHomeMove_lost (hl : s.qdescLost s.arg.q = true) :
    exec .pageHomeMove s = .next (if s.firmwareFree s.arg.q then s.firmwareTrap s.arg.q else s) := by
  simp only [exec_pageHomeMove, execPageHomeMove, hm, hl, if_true]

variable (hl : s.qdescLost s.arg.q = false)
include hl

theorem exec_pageHomeMove_barred (h : s.arg.va.toNat % 4096 ≠ 0
      ∨ s.movable s.arg.q (queueSpace (s.qdescBytes s.arg.q)).asid s.arg.va = false
      ∨ s.quiesced (pageShoot (queueSpace (s.qdescBytes s.arg.q)).asid s.arg.va) = false) : exec .pageHomeMove s = .next s := by
  have hbar : ∀ b : Bool, (s.arg.va.toNat % 4096 != 0 || s.arg.a % 4096 != 0 || b
      || !s.movable s.arg.q (queueSpace (s.qdescBytes s.arg.q)).asid s.arg.va
      || !s.quiesced (pageShoot (queueSpace (s.qdescBytes s.arg.q)).asid s.arg.va)) = true := by
    intro b
    rcases h with h | h | h
    all_goals simp [h]
  simp only [exec_pageHomeMove, execPageHomeMove, hm, hl, hbar, Bool.false_eq_true, if_false, if_true]

/-- At a quiesce point the page is copied, its leaf changed, and the page shot down. -/
theorem exec_pageHomeMove_moves {s1 s2 : State} {e : Dword} {ea : Nat} {bs : List Byte} (hva : s.arg.va.toNat % 4096 = 0) (ha : s.arg.a % 4096 = 0)
    (hlo : (dword (s.qdescBytes s.arg.q) 0x70).toNat ≤ s.arg.va.toNat) (hhi : s.arg.va.toNat + 4095 ≤ (dword (s.qdescBytes s.arg.q) 0x78).toNat)
    (hmov : s.movable s.arg.q (queueSpace (s.qdescBytes s.arg.q)).asid s.arg.va = true)
    (hq : s.quiesced (pageShoot (queueSpace (s.qdescBytes s.arg.q)).asid s.arg.va) = true)
    (hwalk : s.walkFrom s.arg.va .read true (if (queueSpace (s.qdescBytes s.arg.q)).five then 5 else 4) (queueSpace (s.qdescBytes s.arg.q)).root
      = (.ok e 1, ea))
    (hread : s.readPlace (.side 0 s.arg.q) s.arg.va (s.physPlace e (leafPa e 1 s.arg.va) 4096 false false) 4096 = (s1, .ok bs))
    (hwrite : s1.writePlace (.side 0 s.arg.q) s.arg.va (s1.physPlace (movedLeaf e s.arg.a (s.arg.l == 1) s.arg.n) s.arg.a 4096 true false) bs
      = (s2, .ok ())) :
    exec .pageHomeMove s = .next (State.invalidate
      { ((s2.farDrop (.side 0 s.arg.q)).newId.2.writePhys none ea (toBytes 8 (movedLeaf e s.arg.a (s.arg.l == 1) s.arg.n).toNat)) with
        moves := (s2.farDrop (.side 0 s.arg.q)).newId.2.moves
          ++ [{ queue := s.arg.q, va := s.arg.va
                shoot := { pageShoot (queueSpace (s.qdescBytes s.arg.q)).asid s.arg.va with id := (s2.farDrop (.side 0 s.arg.q)).nextId }
                site := (queueSpace (s.qdescBytes s.arg.q)).site, frame := s.physPlace e (leafPa e 1 s.arg.va) 4096 false false }] }
      { pageShoot (queueSpace (s.qdescBytes s.arg.q)).asid s.arg.va with id := (s2.farDrop (.side 0 s.arg.q)).nextId }) := by
  simp only [exec_pageHomeMove, execPageHomeMove, hm, hl, hva, ha, hmov, hq, hwalk, hread, hwrite, decide_eq_true hlo, decide_eq_true hhi,
    Bool.false_eq_true, if_false, Bool.and_self, Bool.not_true, Bool.or_self, bne_self_eq_false]
  rfl

end

/-- Settles O58: what a request, a reply, a shoot-down, its acknowledgement and a move of a page each do. -/
theorem pagesAreRequestedAnsweredAndShot : Obligations.PagesAreRequestedAnsweredAndShot := by
  refine ⟨fun s r hr hm => ?room, fun s h => ?noRequest, fun s h => ?discarded, fun s r hl hz hr => ?reply,
    fun s r th va hth hh hops hl => ?serviced, fun s hl hn => ?shootdown, fun s site bs hops => ?shoot, fun id site bs h page n => hits_of_all h page n,
    fun s x hx => ⟨?squash, ?far, ?acked⟩, ?move, fun s hm hl => exec_pageHomeMove_lost hm hl, fun s hm hl h => exec_pageHomeMove_barred hm hl h,
    fun e pa dev rmt _ _ hdev => movedLeaf_keeps e rmt hdev, fun s m hm => ?going, fun s s1 m h hw => ?ended,
    fun s s1 m h => finishMove_of_waiting h, fun s x hx hn hw => ?device, fun s x hops e he l hl ha hnear => ?stale⟩
  case room =>
    intro c
    have hexec : exec .pageRequestRoom s = .next (s.sendReq r) := by simp only [exec_pageRequestRoom, execPageRequestRoom, hr]
    have hsel := List.find?_some hr
    simp only [Bool.and_eq_true, Bool.not_eq_true'] at hsel
    exact ⟨fun hu hroom h2 hc => ⟨_, hexec, sendReq_of_room hm (List.mem_of_find?_eq_some hr) hsel.2 hu h2 hc hroom⟩,
      fun hfull => by rw [hexec, sendReq_of_full hfull]⟩
  case noRequest => simp only [exec_pageRequestRoom, execPageRequestRoom, h]
  case discarded => rw [exec_pageReply, execPageReply, pageReply_discarded h]
  case reply =>
    intro s1
    refine ⟨fun h => ?_, fun h => ?_⟩
    all_goals rw [exec_pageReply, execPageReply, pageReply_known hl hz hr (by omega), h]
    · rfl
    · rfl
  case serviced =>
    rw [serviced_threads hops hl]
    refine ⟨_, List.mem_map_of_mem hth, rfl, ?_, rfl, rfl, rfl⟩
    simp [parkedOn, hh]
  case shootdown => 
    rw [exec_shootdown, execShootdown, hl, decide_eq_true hn]
    rfl
  case shoot =>
    intro x
    have h := invalidate_of_idle (s := { s with nextId := s.nextId + 1, shoots := s.shoots ++ [x] }) hops x
    have htlb := eq_of_sansOps_eq State.tlb h
    have hwalkc := eq_of_sansOps_eq State.walkc h
    have hshoots := eq_of_sansOps_eq State.shoots h
    have hmem := eq_of_sansOps_eq State.mem h
    exact ⟨htlb, hwalkc, hshoots, hmem⟩
  case squash =>
    rintro ⟨th, hth, a, ha, hid, hh, hs⟩
    refine exec_shootdownAck_waits hx (Bool.eq_true_of_not_eq_false fun hw => ?_)
    exact absurd (((shootWaits_eq_false_iff s x).1 hw).1 th hth a ha hid hh) (by simp [hs])
  case far =>
    rintro ⟨y, hy, hid, hs, hf, hn⟩
    refine exec_shootdownAck_waits hx (Bool.eq_true_of_not_eq_false fun hw => ?_)
    exact ((shootWaits_eq_false_iff s x).1 hw).2 y hy hid hs hf hn
  case acked =>
    intro hacc hfar hn hc
    refine ⟨_, exec_shootdownAck_site hx ((shootWaits_eq_false_iff s x).2 ⟨hacc, hfar⟩) hn, not_mem_filter_id x _, ?_, rfl, rfl⟩
    simp [List.getD_eq_getElem?_getD, hc]
  case move =>
    intro s s1 s2 e ea bs d sp va e1 x o old hm hl hva ha hlo hhi hmov hq hwalk hread hwrite s3 x1
    exact exec_pageHomeMove_moves hm hl hva ha hlo hhi hmov hq hwalk hread hwrite
  case going => simp only [exec_pageHomeMove, execPageHomeMove, hm]
  case ended =>
    rw [finishMove_of_answered h hw, farDrop_eq]
    exact ⟨by simp, rfl, rfl⟩
  case device => exact ⟨_, exec_shootdownAck_device hx hw hn, rfl, not_mem_filter_id x _, rfl, rfl⟩
  case stale =>
    rw [eq_of_sansOps_eq State.timers (invalidate_of_idle hops x)]
    refine List.mem_map.2 ⟨e, he, if_pos ?_⟩
    simp [hl, ha, hnear]

end Sys2Proof.Machine
end

section
/-! SUPPORT. Requests of agents outside the module: hosts, PCIe functions and fabric peers (20 R406 to R414). -/

namespace Sys2Proof.Machine

/-! ### Addresses -/

theorem inDram_clear {a n : Nat} (h : inDram a n = true) : ¬(tableBase ≤ a ∧ a < tableBase + 8192) ∧ inWindows a = false
    ∧ inHostRange a = false ∧ inAperture a = none := by
  have ha : a + n ≤ dramEnd := by simpa [inDram] using h
  unfold dramEnd at ha
  unfold tableBase
  refine ⟨by omega, ?_, ?_, ?_⟩
  · simp [inWindows]; omega
  · simp [inHostRange]; omega
  · unfold inAperture
    rw [if_neg (by simp; omega), if_neg (by simp; omega)]

theorem inAperture_clear {a p : Nat} (h : inAperture a = some p) : inHostRange a = false ∧ inWindows a = false := by
  unfold inAperture at h
  unfold inHostRange inWindows
  split at h
  next hc =>
    simp at hc ⊢
    omega
  next =>
    split at h
    next hc =>
      simp at hc ⊢
      omega
    next => cases h

/-! ### Answers and writes at a home -/

/-- A write at a home in LPDDR, and what it leaves. -/
theorem writePhys_dram {s : State} {a : Nat} {bs : List Byte} (hd : inDram a bs.length = true) (hm : s.mem.wf = true) :
    s.mem.Put (s.writePhys none a bs).mem a bs ∧ (s.writePhys none a bs).replies = s.replies ∧ (s.writePhys none a bs).threads = s.threads := by
  obtain ⟨_, _, _, _, _, h⟩ := writePhys_eq (s := s) (inDram_clear hd).1 none bs false
  rw [h]
  exact ⟨Memory.put_store hm a bs, rfl, rfl⟩

theorem answer_writePhys {s : State} {a : Nat} {bs : List Byte} (hd : inDram a bs.length = true) (hm : s.mem.wf = true) (r : Reply) :
    s.mem.Put ((s.writePhys none a bs).answer r).mem a bs ∧ ((s.writePhys none a bs).answer r).replies = s.replies ++ [r]
    ∧ ((s.writePhys none a bs).answer r).threads = s.threads := by
  obtain ⟨hmem, hreplies, hthreads⟩ := writePhys_dram hd hm
  exact ⟨hmem, congrArg (· ++ [r]) hreplies, hthreads⟩

/-! ### Host sites (08 R215, 20 R406, R407) -/

section
variable {s : State} (hu : s.hostUp.getD s.arg.q false = true)
include hu

theorem exec_hostWrite_up (hd : s.arg.data ≠ []) : exec .hostWrite s = .next (s.hostWrite s.arg.q s.arg.a s.arg.data) := by
  have : s.arg.data.isEmpty = false := by simpa using hd
  rw [exec_hostWrite, execHostWrite, hu, this]
  rfl

end

section
variable {s : State} {site a : Nat} {bs : List Byte}

theorem hostWrite_control (h : inControl site a = true) :
    s.hostWrite site a bs = (s.controlWrite site (a - controlBase site) bs).answer (.ack site) := if_pos h

theorem hostWrite_reply : s.hostWrite site (controlBase site + 0x30) bs = (s.pageReply bs).answer (.ack site) := by
  rw [hostWrite_control (by simp [inControl]), Nat.add_sub_cancel_left]
  rfl

theorem hostWrite_shoot (hl : bs.length = 16) : s.hostWrite site (controlBase site + 0x40) bs = (s.shoot site bs).answer (.ack site) := by
  rw [hostWrite_control (by simp [inControl]), Nat.add_sub_cancel_left]
  refine congrArg (State.answer · _) ?_
  simp [State.controlWrite, hl]

variable (hc : inControl site a = false) (hw : inWindows a = false)
include hc hw

theorem hostWrite_denied (h : s.admitted (hostMaster site) a bs.length 2 = false) :
    s.hostWrite site a bs = (s.deny (hostMaster site)).answer (.refused site) := by
  simp only [State.hostWrite, hc, hw, h, Bool.and_false, Bool.false_eq_true, if_false]

variable (hd : inDram a bs.length = true) (h : s.admitted (hostMaster site) a bs.length 2 = true)
include hd h

theorem hostWrite_dead (hx : s.deadAt a bs.length = true) : s.hostWrite site a bs = s.answer (.refused site) := by
  simp only [State.hostWrite, hc, hw, hd, h, hx, Bool.and_self, Bool.false_eq_true, if_false, if_true]

theorem hostWrite_performed (hx : s.deadAt a bs.length = false) : s.hostWrite site a bs = (s.writePhys none a bs).answer (.ack site) := by
  simp only [State.hostWrite, hc, hw, hd, h, hx, Bool.and_self, Bool.false_eq_true, if_false, if_true]

end

theorem sansCaches_hostHolds (s : State) (site a n : Nat) : (s.hostHolds site a n).sansCaches = s.sansCaches := by
  refine sansCaches_foldl (fun s l => ?_) s _
  exact sansCaches_fillSlc s l

section
variable {s : State} (hu : s.hostUp.getD s.arg.q false = true) (hn : 0 < s.arg.n) (hc : inControl s.arg.q s.arg.a = false)
include hu hn hc

theorem exec_hostRead_denied (h : s.admitted (hostMaster s.arg.q) s.arg.a s.arg.n 1 = false) :
    exec .hostRead s = .next ((s.deny (hostMaster s.arg.q)).answer (.refused s.arg.q)) := by
  have hn0 : (s.arg.n == 0) = false := by simpa using Nat.pos_iff_ne_zero.1 hn
  simp only [exec_hostRead, execHostRead, hu, hn0, hc, h, Bool.not_true, Bool.not_false, Bool.or_self, Bool.false_and, Bool.false_eq_true,
    if_false, if_true]

theorem exec_hostRead_dram (hd : inDram s.arg.a s.arg.n = true) (hx : s.brokenAt s.arg.a s.arg.n = false)
    (h : s.admitted (hostMaster s.arg.q) s.arg.a s.arg.n 1 = true) : exec .hostRead s
      = .next ((s.hostHolds s.arg.q s.arg.a s.arg.n).answer (.data s.arg.q (s.readPhys s.arg.a s.arg.n))) := by
  have hn0 : (s.arg.n == 0) = false := by simpa using Nat.pos_iff_ne_zero.1 hn
  simp only [exec_hostRead, execHostRead, hu, hn0, hc, h, hd, hx, (inDram_clear hd).2.1, Bool.not_true, Bool.or_self, Bool.false_and,
    Bool.false_eq_true, if_false, if_true]

end

/-! ### What a host's snoop leaves of a line (20 R406) -/

/-- Entries of the L0s and L1s are only removed. -/
def State.fewerLines (s t : State) : Prop := (∀ e ∈ t.caches.l0, e ∈ s.caches.l0) ∧ ∀ e ∈ t.caches.l1, e ∈ s.caches.l1

theorem fewerLines_trans {s t u : State} (h1 : s.fewerLines t) (h2 : t.fewerLines u) : s.fewerLines u :=
  ⟨fun e h => h1.1 e (h2.1 e h), fun e h => h1.2 e (h2.2 e h)⟩

theorem fewerLines_ite {s t u : State} {p : Prop} [Decidable p] (h : s.fewerLines t) (k : s.fewerLines u) :
    s.fewerLines (if p then t else u) := by
  split
  · exact h
  · exact k

theorem fewerLines_of_eq {s t : State} (h0 : t.caches.l0 = s.caches.l0) (h1 : t.caches.l1 = s.caches.l1) : s.fewerLines t :=
  ⟨fun _ h => h0 ▸ h, fun _ h => h1 ▸ h⟩

theorem fillSlc_lines (s : State) (l : Nat) : (s.fillSlc l).caches.l0 = s.caches.l0 ∧ (s.fillSlc l).caches.l1 = s.caches.l1 := by
  unfold State.fillSlc
  split
  · exact ⟨rfl, rfl⟩
  · dsimp only
    split <;> exact ⟨rfl, rfl⟩

theorem l1WriteBack_lines (s : State) (l : Nat) : (s.l1WriteBack l).caches.l0 = s.caches.l0 ∧ (s.l1WriteBack l).caches.l1 = s.caches.l1 := by
  unfold State.l1WriteBack
  split
  · dsimp only
    split
    · exact fillSlc_lines _ l
    · exact fillSlc_lines _ l
  · exact ⟨rfl, rfl⟩

theorem dropL1_lines (s : State) (c l : Nat) : s.fewerLines (s.dropL1 c l) ∧ (c, l) ∉ (s.dropL1 c l).caches.l1 := by
  have hback : (if s.caches.l1mod.contains (c, l) then s.l1WriteBack l else s).caches.l0 = s.caches.l0
      ∧ (if s.caches.l1mod.contains (c, l) then s.l1WriteBack l else s).caches.l1 = s.caches.l1 := by
    split
    · exact l1WriteBack_lines s l
    · exact ⟨rfl, rfl⟩
  refine ⟨⟨fun e he => ?_, fun e he => ?_⟩, fun he => ?_⟩
  · exact hback.1 ▸ (List.mem_filter.1 he).1
  · exact hback.2 ▸ (List.mem_filter.1 he).1
  · simpa using (List.mem_filter.1 he).2

theorem foldl_dropL1_lines (cs : List Nat) (l : Nat) (s : State) : s.fewerLines (cs.foldl (fun s c => s.dropL1 c l) s)
    ∧ ∀ c ∈ cs, (c, l) ∉ (cs.foldl (fun s c => s.dropL1 c l) s).caches.l1 := by
  induction cs generalizing s with
  | nil => exact ⟨fewerLines_of_eq rfl rfl, fun _ h => nomatch h⟩
  | cons c cs ih =>
    obtain ⟨hkeep, hgone⟩ := ih (s.dropL1 c l)
    obtain ⟨hdrop, hc⟩ := dropL1_lines s c l
    refine ⟨fewerLines_trans hdrop hkeep, fun d hd => ?_⟩
    rcases List.mem_cons.1 hd with rfl | hd
    · exact fun h => hc (hkeep.2 _ h)
    · exact hgone d hd

theorem touchLine_lines (s : State) (pa n l : Nat) : s.fewerLines (s.touchLine none false pa n l) := by
  have hback : ∀ (c : Prop) [Decidable c], s.fewerLines (if c then s.l1WriteBack l else s) := by
    intro c _
    split
    · exact fewerLines_of_eq (l1WriteBack_lines s l).1 (l1WriteBack_lines s l).2
    · exact fewerLines_of_eq rfl rfl
  have hmark : ∀ (t : State) (c : Prop) [Decidable c] (d : List DirtyLine),
      t.fewerLines (if c then t else { t with caches := { t.caches with dirty := d } }) := by
    intro t c _ d
    split <;> exact fewerLines_of_eq rfl rfl
  have hcut : ∀ (t : State) (p q : Nat × Nat → Bool) (h : List (Nat × Nat)) (b : List (Nat × List Nat)), t.fewerLines { t with
      caches := Caches.trim { t.caches with l0 := t.caches.l0.filter p, l1 := t.caches.l1.filter q, host := h }, poison := b } :=
    fun t p q h b => ⟨fun _ he => (List.mem_filter.1 he).1, fun _ he => (List.mem_filter.1 he).1⟩
  unfold State.touchLine
  dsimp only
  rw [if_neg Bool.false_ne_true]
  refine fewerLines_ite ?_ ?_
  · refine fewerLines_trans ?_ (@hmark _ _ _ _)
    refine fewerLines_trans ?_ (fewerLines_of_eq (fillSlc_lines _ l).1 (fillSlc_lines _ l).2)
    refine fewerLines_trans ?_ (hcut _ _ _ _ _)
    exact @hback _ _
  · refine fewerLines_trans ?_ (hcut _ _ _ _ _)
    exact @hback _ _

theorem touchLines_lines (s : State) (pa n : Nat) : s.fewerLines (s.touchLines none false pa n) :=
  List.foldlRecOn (motive := s.fewerLines) _ _ (fewerLines_of_eq rfl rfl) fun t h l _ => fewerLines_trans h (touchLine_lines t pa n l)

theorem notify_caches (s : State) (pa n : Nat) : (s.notify pa n).caches = s.caches := by
  obtain ⟨qs, h⟩ := notify_eq s pa n
  rw [h]

theorem writePhys_lines (s : State) (pa : Nat) (bs : List Byte) : s.fewerLines (s.writePhys none pa bs) := by
  unfold State.writePhys
  split
  · exact fewerLines_of_eq rfl rfl
  · dsimp only
    exact fewerLines_trans (touchLines_lines s pa bs.length)
      (fewerLines_of_eq (congrArg Caches.l0 (notify_caches _ _ _)) (congrArg Caches.l1 (notify_caches _ _ _)))

/-- The state in which a line has left every L0 and L1. -/
def State.dropLine (s : State) (l : Nat) : State :=
  let s1 := (List.range 16).foldl (fun s c => s.dropL1 c l) s
  { s1 with caches := { s1.caches with l0 := s1.caches.l0.filter fun e => e.2 != l } }

theorem sansCaches_dropLine (s : State) (l : Nat) : (s.dropLine l).sansCaches = s.sansCaches := by
  unfold State.dropLine
  generalize List.range 16 = cs
  have h : (cs.foldl (fun s c => s.dropL1 c l) s).sansCaches = s.sansCaches := by
    refine sansCaches_foldl (fun s c => ?_) s cs
    exact sansCaches_dropL1 s c l
  exact h

theorem dropLine_lines (s : State) (l : Nat) :
    (∀ e ∈ (s.dropLine l).caches.l0, e.2 ≠ l) ∧ ∀ e ∈ (s.dropLine l).caches.l1, e.1 < 16 → e.2 ≠ l := by
  have hall : ∀ c, c < 16 → c ∈ List.range 16 := fun c => List.mem_range.2
  unfold State.dropLine
  generalize List.range 16 = cs at hall
  refine ⟨fun e he => by simpa using (List.mem_filter.1 he).2, fun e he hlt heq => ?_⟩
  obtain ⟨c, m⟩ := e
  subst heq
  exact (foldl_dropL1_lines cs m s).2 c (hall c hlt) he

/-- A host's line leaves every L0 and L1, and its bytes change at home. -/
theorem exec_hostSnoop_effect {s : State} (hq : s.arg.q < 2) (hr : inSiteRange s.arg.q s.arg.a = true)
    (hu : s.hostUp.getD s.arg.q false = true) (hm : s.mem.wf = true) :
    ∃ t, exec .hostSnoop s = .next t ∧ s.mem.Put t.mem s.arg.a (s.arg.data.take (128 - s.arg.a % 128))
      ∧ (∀ e ∈ t.caches.l0, e.2 ≠ lineOf s.arg.a) ∧ (∀ e ∈ t.caches.l1, e.1 < 16 → e.2 ≠ lineOf s.arg.a)
      ∧ t.replies = s.replies ++ [.ack s.arg.q] ∧ t.threads = s.threads := by
  have hclear : ¬(tableBase ≤ s.arg.a ∧ s.arg.a < tableBase + 8192) := by
    simp [inSiteRange, hostPa] at hr
    unfold tableBase
    omega
  have hexec : exec .hostSnoop s = .next (((s.dropLine (lineOf s.arg.a)).writePhys none s.arg.a
      (s.arg.data.take (128 - s.arg.a % 128))).answer (.ack s.arg.q)) := by
    simp only [exec_hostSnoop, execHostSnoop, decide_eq_true hq, hr, hu, Bool.and_self, if_true]
    rfl
  obtain ⟨h0, h1⟩ := dropLine_lines s (lineOf s.arg.a)
  obtain ⟨hfewer0, hfewer1⟩ := writePhys_lines (s.dropLine (lineOf s.arg.a)) s.arg.a (s.arg.data.take (128 - s.arg.a % 128))
  obtain ⟨c, p, o, hs⟩ := eq_of_sansCaches (sansCaches_dropLine s (lineOf s.arg.a))
  obtain ⟨_, _, _, _, _, hw⟩ := writePhys_eq (s := s.dropLine (lineOf s.arg.a)) hclear none (s.arg.data.take (128 - s.arg.a % 128)) false
  refine ⟨_, hexec, ?_, fun e he => h0 e (hfewer0 e he), fun e he => h1 e (hfewer1 e he), ?_⟩
  · rw [hw, hs]
    exact Memory.put_store hm s.arg.a (s.arg.data.take (128 - s.arg.a % 128))
  · rw [hw, hs]
    exact ⟨rfl, rfl⟩

/-! ### PCIe functions (20 R408, 08 R216) -/

section
variable {s : State} {port : Nat} {m : Word} {a : Nat}

theorem pcieRequest_write {bs : List Byte} {ro : Bool} (hd : inDram a bs.length = true) (h : s.admitted m a bs.length 2 = true)
    (hx : s.deadAt a bs.length = false) : s.pcieRequest port m (.write a bs ro) = s.writePhys none a bs := by
  obtain ⟨-, hw, hh, ha⟩ := inDram_clear hd
  simp [State.pcieRequest, Request.range, hh, ha, hw, hd, h, hx]

theorem pcieRequest_write_denied {bs : List Byte} {ro : Bool} (hd : inDram a bs.length = true) (h : s.admitted m a bs.length 2 = false) :
    s.pcieRequest port m (.write a bs ro) = s.deny m := by
  obtain ⟨-, hw, hh, ha⟩ := inDram_clear hd
  simp [State.pcieRequest, Request.range, hh, ha, hw, h]

theorem pcieRequest_read {n : Nat} (hd : inDram a n = true) (h : s.admitted m a n 1 = true) (hx : s.brokenAt a n = false) :
    s.pcieRequest port m (.read a n) = s.answer (.data port (s.readPhys a n)) := by
  obtain ⟨-, hw, hh, ha⟩ := inDram_clear hd
  simp [State.pcieRequest, Request.range, hh, ha, hw, hd, h, hx]

theorem pcieRequest_read_denied {n : Nat} (hd : inDram a n = true) (h : s.admitted m a n 1 = false) :
    s.pcieRequest port m (.read a n) = (s.deny m).answer (.refused port) := by
  obtain ⟨-, -, hh, ha⟩ := inDram_clear hd
  simp [State.pcieRequest, Request.range, hh, ha, h]

/-- A request for the port's own aperture. -/
theorem pcieRequest_own {r : Request} (hr : ∀ asid p n, r ≠ .shoot asid p n) (h : inAperture (Request.range r).1 = some port) :
    s.pcieRequest port m r = s.answer (.unsupported port) := by
  cases r with
  | shoot asid p n => exact absurd rfl (hr asid p n)
  | _ => simp_all [State.pcieRequest, Request.range]

variable {p : Nat} (hp : inAperture a = some p) (hne : p ≠ port)
include hp hne

theorem pcieRequest_forwarded {r : Request} (hr : (∃ bs ro, r = .write a bs ro) ∨ ∃ n, r = .read a n)
    (h : s.admitted m a (Request.range r).2 (Request.need r) = true) (hu : s.pcieUp.getD p false = true) :
    s.pcieRequest port m r = s.answer (.request (fabricDetail 2 0 p) a r) := by
  rw [List.getD_eq_getElem?_getD] at hu
  rcases hr with ⟨bs, ro, rfl⟩ | ⟨n, rfl⟩
  all_goals
    simp only [Request.range, Request.need] at h
    simp [State.pcieRequest, Request.range, Request.need, (inAperture_clear hp).1, hp, hne, h, hu]

theorem pcieRequest_forward_denied {r : Request} (hr : (∃ bs ro, r = .write a bs ro) ∨ ∃ n, r = .read a n)
    (h : s.admitted m a (Request.range r).2 (Request.need r) = false) :
    s.pcieRequest port m r = if Request.need r = 2 then s.deny m else (s.deny m).answer (.refused port) := by
  rcases hr with ⟨bs, ro, rfl⟩ | ⟨n, rfl⟩
  all_goals
    simp only [Request.range, Request.need] at h
    simp [State.pcieRequest, Request.range, Request.need, (inAperture_clear hp).1, hp, hne, h]

end

/-- The master word of a PCIe function of a step. -/
def State.pcieMaster (s : State) : Word := 0x20000000#32 ||| BitVec.ofNat 32 (s.arg.q % 256 * 65536) ||| (s.arg.master &&& 0xFFFF#32)

theorem exec_pcieInbound_up {s : State} (hu : s.pcieUp.getD s.arg.q false = true)
    (hn : 0 < (Request.range s.arg.req).2 ∨ s.arg.req = .other) : exec .pcieInbound s = .next (s.pcieRequest s.arg.q s.pcieMaster s.arg.req) := by
  have : (decide (0 < (Request.range s.arg.req).2) || s.arg.req == .other) = true := by simpa using hn
  rw [exec_pcieInbound, execPcieInbound, hu, this]
  rfl

/-! ### Fabric peers (20 R414 to R418) -/

/-- The master word of the device of a step. -/
def State.deviceMaster (s : State) : Word := 0x30000000#32 ||| BitVec.ofNat 32 (s.arg.n % 256)

section
variable {s : State} {a : Nat} {bs : List Byte} (hf : s.fabricUp = true) (hbs : bs ≠ []) (hd : inDram a bs.length = true)
include hf hbs hd

theorem exec_fabricRequest_write {ro : Bool} (hr : s.arg.req = .write a bs ro) (h : s.admitted s.deviceMaster a bs.length 2 = true)
    (hx : s.deadAt a bs.length = false) : exec .fabricRequest s = .next ((s.writePhys none a bs).answer (.ack (s.arg.n % 256))) := by
  rw [State.deviceMaster] at h
  simp [exec_fabricRequest, execFabricRequest, hf, hr, Request.range, hbs, (inDram_clear hd).2.1, hd, hx, h]

theorem exec_fabricRequest_write_denied {ro : Bool} (hr : s.arg.req = .write a bs ro) (h : s.admitted s.deviceMaster a bs.length 2 = false) :
    exec .fabricRequest s = .next ((s.deny s.deviceMaster).answer (.refused (s.arg.n % 256))) := by
  rw [State.deviceMaster] at h ⊢
  simp [exec_fabricRequest, execFabricRequest, hf, hr, Request.range, hbs, (inDram_clear hd).2.1, h]

theorem exec_fabricRequest_read (hr : s.arg.req = .read a bs.length) (h : s.admitted s.deviceMaster a bs.length 1 = true) :
    exec .fabricRequest s = .next (s.answer (if s.brokenAt a bs.length then .refused (s.arg.n % 256)
      else .data (s.arg.n % 256) (s.readPhys a bs.length))) := by
  rw [State.deviceMaster] at h
  rw [apply_ite s.answer]
  simp [exec_fabricRequest, execFabricRequest, hf, hr, Request.range, hbs, (inDram_clear hd).2.1, hd, h]

omit hd in
theorem exec_fabricRequest_read_denied (hr : s.arg.req = .read a bs.length) (h : s.admitted s.deviceMaster a bs.length 1 = false) :
    exec .fabricRequest s = .next ((s.deny s.deviceMaster).answer (.refused (s.arg.n % 256))) := by
  rw [State.deviceMaster] at h ⊢
  simp [exec_fabricRequest, execFabricRequest, hf, hr, Request.range, hbs, h]

section
variable {ty : Ty} {op : BitVec 5} {b c : Dword} {ret : Bool} (hr : s.arg.req = .atomic a ty op b c ret) (hw : ty.width / 8 = bs.length)
include hr hw

omit hd in
theorem exec_fabricRequest_atomic_denied (h : s.admitted s.deviceMaster a bs.length 3 = false) :
    exec .fabricRequest s = .next ((s.deny s.deviceMaster).answer (.refused (s.arg.n % 256))) := by
  rw [State.deviceMaster] at h ⊢
  simp [exec_fabricRequest, execFabricRequest, hf, hr, Request.range, hw, hbs, h]

variable (h : s.admitted s.deviceMaster a bs.length 3 = true) (hx : s.brokenAt a bs.length = false)
include h hx

theorem exec_fabricRequest_atomic : exec .fabricRequest s = .next ((s.homeAtomic a ty op b c).1.answer
    (.atomic (s.arg.n % 256) (if ret then (s.homeAtomic a ty op b c).2.1 else []) (s.homeAtomic a ty op b c).2.2)) := by
  rw [State.deviceMaster] at h
  simp [exec_fabricRequest, execFabricRequest, hf, hr, Request.range, hw, hbs, hd, h, hx]

theorem exec_fabricRequest_atomic_writes {new : Nat} {f : FFlags}
    (hn : atomNew ty op.toNat (ofBytes (s.readPhys a bs.length)) b.toNat c.toNat = some (new, f)) :
    exec .fabricRequest s = .next ((s.writePhys none a (toBytes bs.length new)).answer
      (.atomic (s.arg.n % 256) (if ret then s.readPhys a bs.length else []) f)) := by
  rw [exec_fabricRequest_atomic hf hbs hd hr hw h hx]
  simp only [State.homeAtomic, hw, hn]

theorem exec_fabricRequest_atomic_reads (hn : atomNew ty op.toNat (ofBytes (s.readPhys a bs.length)) b.toNat c.toNat = none) :
    exec .fabricRequest s = .next (s.answer (.atomic (s.arg.n % 256) (if ret then s.readPhys a bs.length else []) 0)) := by
  rw [exec_fabricRequest_atomic hf hbs hd hr hw h hx]
  simp only [State.homeAtomic, hw, hn]

end

end

/-! ### Arrival windows and NOTIFY (20 R411, R412, 21 R421) -/

section
variable {s : State} (ha : inWindows s.arg.a = true)
include ha

theorem exec_arrivalWindowWrite_in : exec .arrivalWindowWrite s = .next (s.windowWrite s.arg.master s.arg.a s.arg.data) := by
  rw [exec_arrivalWindowWrite, execArrivalWindowWrite, if_pos ha]

end

section
variable {s : State} {m : Word} {a : Nat} {bs : List Byte}

theorem windowWrite_denied (hl : bs.length = 16) (h : s.admitted m a 16 4 = false) : s.windowWrite m a bs = s.deny m := by
  simp [State.windowWrite, State.windowTakes, hl, h]

variable (hl : bs.length = 16) (ha : a % 64 = 0) (h : s.admitted m a 16 4 = true)
include hl ha h

theorem windowWrite_unbound (hb : ∀ b ∈ s.bindings, b.window ≠ (a - 0xF800000000000) / 64) : s.windowWrite m a bs = s.deny m := by
  have : s.bindings.find? (fun b => b.window == (a - 0xF800000000000) / 64) = none :=
    List.find?_eq_none.2 fun b hm => mt beq_iff_eq.1 (hb b hm)
  simp only [State.windowWrite, State.windowTakes, hl, ha, h, this]
  rfl

theorem windowWrite_bound {b : Binding} (hb : s.bindings.find? (fun b => b.window == (a - 0xF800000000000) / 64) = some b)
    (hz : zeros bs 3 5 = true) (h2 : field bs 2 1 ≤ 1) (hx : field bs 8 4 < 2 ^ 27) (hd : field bs 12 4 < 2 ^ 27) :
    s.windowWrite m a bs
      = s.externalEvent b.group b.slot m (BitVec.ofNat 16 (field bs 0 2)) (field bs 2 1) (field bs 8 4) (field bs 12 4) false := by
  simp only [State.windowWrite, State.windowTakes, hl, ha, h, hb, hz, decide_eq_false (Nat.not_lt_of_le h2),
    decide_eq_false (Nat.not_le_of_lt hx), decide_eq_false (Nat.not_le_of_lt hd)]
  rfl

end

theorem exec_notifyWrite_full {s : State} (hl : s.arg.data.length = 8) : exec .notifyWrite s = .next
    (if s.admitted s.arg.master (s.qdesc s.arg.q + 0x68) 8 2 then
      if s.deadAt (s.qdesc s.arg.q + 0x68) 8 then s else s.writePhys none (s.qdesc s.arg.q + 0x68) s.arg.data
    else s.deny s.arg.master) := by
  have htake : s.arg.data.take 8 = s.arg.data := List.take_of_length_le hl.le
  have hne : s.arg.data.isEmpty = false := by
    cases hd : s.arg.data with
    | nil => rw [hd] at hl; cases hl
    | cons => rfl
  simp only [exec_notifyWrite, execNotifyWrite, htake, hne, hl, Bool.false_eq_true, if_false]
  cases s.admitted s.arg.master (s.qdesc s.arg.q + 0x68) 8 2 <;> rfl

/-- The NOTIFY event of queue q as its register stands. -/
def State.notifyEvent (s : State) (q : Nat) : Event := { kind := 1, datum := BitVec.ofNat 64 (ofBytes (s.mem.load (s.qdesc q + 0x68) 8)) }

/-- What a write does for one queue's NOTIFY register. -/
def State.notifyOne (s : State) (pa n q : Nat) : State :=
  if meets pa n (s.qdesc q + 0x68) 8 then
    { s with queues := s.queues.modify q fun x =>
        if x.events.any (fun y => y.kind == 1) then
          { x with events := x.events.map fun y => if y.kind == 1 then s.notifyEvent q else y }
        else { x with events := x.events ++ [s.notifyEvent q] } }
  else s

theorem notify_of_booted {s : State} (h : s.booted = true) (pa n : Nat) :
    s.notify pa n = (List.range 64).foldl (fun s q => s.notifyOne pa n q) s := by
  rw [State.notify, h]
  rfl

theorem notifyOne_keeps (s : State) (pa n k : Nat) : (s.notifyOne pa n k).img = s.img ∧ (s.notifyOne pa n k).mem = s.mem
    ∧ (s.notifyOne pa n k).queues.length = s.queues.length := by
  unfold State.notifyOne
  split
  · exact ⟨rfl, rfl, List.length_modify ..⟩
  · exact ⟨rfl, rfl, rfl⟩

/-- Queue q's list holds a NOTIFY event with the register's value. -/
def State.notified (s : State) (q : Nat) (v : Dword) : Prop := ∃ e ∈ (s.queueOf q).events, e.kind = 1 ∧ e.datum = v

theorem notifyOne_ne {s : State} {pa n k q : Nat} (h : q ≠ k) : (s.notifyOne pa n k).queueOf q = s.queueOf q := by
  unfold State.notifyOne
  split
  · rw [State.queueOf, List.getD_eq_getElem?_getD, List.getElem?_modify_ne _ _ h.symm, ← List.getD_eq_getElem?_getD, ← State.queueOf]
  · rfl

section
variable {s : State} {q pa n : Nat} (hq : q < s.queues.length) (hm : meets pa n (s.qdesc q + 0x68) 8 = true)
include hq hm

theorem notifyOne_self : (s.notifyOne pa n q).notified q (s.notifyEvent q).datum := by
  have hqueue : (s.notifyOne pa n q).queueOf q = if (s.queueOf q).events.any (fun y => y.kind == 1) then
      { s.queueOf q with events := (s.queueOf q).events.map fun y => if y.kind == 1 then s.notifyEvent q else y }
      else { s.queueOf q with events := (s.queueOf q).events ++ [s.notifyEvent q] } := by
    simp only [State.notifyOne, hm, if_true, State.queueOf, List.getD_eq_getElem?_getD, List.getElem?_modify_eq, List.getElem?_eq_getElem hq]
    rfl
  rw [State.notified, hqueue]
  split
  next h =>
    obtain ⟨y, hy, hk⟩ := List.any_eq_true.1 h
    exact ⟨s.notifyEvent q, List.mem_map.2 ⟨y, hy, if_pos hk⟩, rfl, rfl⟩
  next => exact ⟨s.notifyEvent q, List.mem_append_right _ (List.mem_singleton_self _), rfl, rfl⟩

theorem notified_foldl (l : List Nat) (h : q ∈ l ∨ s.notified q (s.notifyEvent q).datum) :
    (l.foldl (fun s k => s.notifyOne pa n k) s).notified q (s.notifyEvent q).datum := by
  induction l generalizing s with
  | nil => exact h.resolve_left (List.not_mem_nil)
  | cons k l ih =>
    obtain ⟨himg, hmem, hlen⟩ := notifyOne_keeps s pa n k
    have hdesc : (s.notifyOne pa n k).qdesc q = s.qdesc q := by rw [State.qdesc, himg, State.qdesc]
    have hevent : (s.notifyOne pa n k).notifyEvent q = s.notifyEvent q := by rw [State.notifyEvent, hdesc, hmem, State.notifyEvent]
    have hnext := ih (s := s.notifyOne pa n k) (hlen ▸ hq) (hdesc ▸ hm)
    rw [hevent] at hnext
    refine hnext ?_
    by_cases hk : k = q
    · subst hk
      exact .inr (notifyOne_self hq hm)
    · rcases h with h | h
      · exact .inl ((List.mem_cons.1 h).resolve_left (Ne.symm hk))
      · refine .inr ?_
        rwa [State.notified, notifyOne_ne (Ne.symm hk)]

end

/-! ### Lost links (20 R406) -/

theorem pump_of_idle {s : State} (h : ∀ x ∈ s.threads, x.ops = []) : s.pump.threads = s.threads := by
  unfold State.pump
  rw [pumpFar_threads, foldl_of_fixed fun x hx => by rw [h x hx]; rfl]

theorem answerFar_threads {s : State} (h : ∀ x ∈ s.threads, x.ops = []) (id : Nat) (a : Answer) : (s.answerFar id a).threads = s.threads :=
  pump_of_idle (s := { s with unacked := _, far := _ }) h

/-- Without outstanding accesses and reads of tables a lost link takes nothing else with it than its requests. -/
theorem execLostHostLink_idle {s : State} (hops : ∀ x ∈ s.threads, x.ops = [])
    (hp : ∀ r ∈ s.preqs, r.table.isSome = true → r.site ≠ s.arg.q) : ∃ t, exec .lostHostLink s = .next t ∧ t.threads = s.threads
      ∧ t.sansOps = State.sansOps { s with
          hostUp := if s.arg.q < 2 then s.hostUp.set s.arg.q false else s.hostUp
          pcieUp := if 2 ≤ s.arg.q then s.pcieUp.set (s.arg.q - 2) false else s.pcieUp
          caches := if s.arg.q < 2 then Caches.trim { s.caches with host := s.caches.host.filter fun e => e.1 != s.arg.q } else s.caches } := by
  refine ⟨_, exec_lostHostLink s, ?_⟩
  dsimp only
  generalize hs1 : ({ s with hostUp := _, pcieUp := _, caches := _ } : State) = s1
  have hthreads : s1.threads = s.threads := by rw [← hs1]
  have hpreqs : s1.preqs = s.preqs := by rw [← hs1]
  have hidle : ∀ x ∈ s1.threads, x.ops = [] := hthreads ▸ hops
  rw [foldl_of_fixed (b := s1) (l := s.threads) fun x hx => by rw [hops x hx]; rfl]
  have hfar : ∀ (l : List FarReq) (f : Fail), (l.foldl (fun s2 x =>
      if throughLink s.arg.q x.place && x.answer == .none then s2.answerFar x.id (.fail f) else s2) s1).threads = s1.threads
      ∧ (l.foldl (fun s2 x => if throughLink s.arg.q x.place && x.answer == .none then s2.answerFar x.id (.fail f) else s2) s1).sansOps
        = s1.sansOps := by
    intro l f
    refine List.foldlRecOn (motive := fun t : State => t.threads = s1.threads ∧ t.sansOps = s1.sansOps) l _ ⟨rfl, rfl⟩ fun t ⟨ht, hs⟩ x _ => ?_
    split
    · exact ⟨(answerFar_threads (ht ▸ hidle) ..).trans ht, (sansOps_answerFar ..).trans hs⟩
    · exact ⟨ht, hs⟩
  generalize (if s.arg.q < 2 then fabricFail 1 4 s.arg.q else fabricFail 2 4 (s.arg.q - 2)) = f
  obtain ⟨ht, hs⟩ := hfar s1.far f
  generalize List.foldl _ s1 s1.far = s3 at ht hs ⊢
  have hp3 : s3.preqs = s.preqs := (eq_of_sansOps_eq State.preqs hs).trans hpreqs
  rw [List.filter_eq_nil_iff.2 fun r hr => by
    rw [hp3] at hr
    simpa using hp r hr]
  exact ⟨ht.trans hthreads, hs⟩

/-! ### Attestation and power (23 R437, R438) -/

theorem Memory.read_filter {keep : Nat → Bool} {x : Nat} (h : keep x = true) (m : Memory) :
    Memory.read (m.filter fun c => keep c.1) x = m.read x := by
  induction m with
  | nil => rfl
  | cons c m ih =>
    obtain ⟨y, b⟩ := c
    by_cases hy : keep y = true
    · rw [List.filter_cons_of_pos (by exact hy), Memory.read, Memory.read, ih]
    · have hne : (y == x) = false := by simpa using fun e : y = x => hy (e ▸ h)
      rw [List.filter_cons_of_neg (by exact hy), ih, Memory.read, hne]
      rfl

theorem exec_attestationRequest_of_nonce {s : State} (hl : s.arg.data.length = 32) (hb : s.bootImage ≠ []) : exec .attestationRequest s
    = .next (if s.arg.n == 1 || 2 ^ 20 ≤ s.flash.leaf then { s with replies := s.replies ++ [.attest (s.attestation s.arg.data) none] }
      else { s with
        flash := { s.flash with leaf := s.flash.leaf + 1 }
        replies := s.replies ++ [.attest (s.attestation s.arg.data)
          (some (Config.xmssSign Config.identityKey s.flash.leaf (s.attestation s.arg.data)))] }) := by
  have : (s.arg.data.length != 32 || s.bootImage.isEmpty) = false := by simpa [hl] using hb
  simp only [exec_attestationRequest, execAttestationRequest, this, Bool.false_eq_true, if_false]

section
variable {s : State} (h : s.power ≠ .off)
include h

theorem exec_powerStateRequest_awake (ha : s.arg.power = .run ∨ s.arg.power = .idle) :
    exec .powerStateRequest s = .next { s with power := s.arg.power, replies := s.replies ++ [.power s.arg.power] } := by
  rcases ha with ha | ha
  all_goals
    cases hp : s.power with
    | off => exact absurd hp h
    | _ => simp only [exec_powerStateRequest, execPowerStateRequest, hp, ha]

theorem exec_powerStateRequest_busy (ha : s.arg.power = .standby ∨ s.arg.power = .off) (hw : s.workLeft = true) :
    exec .powerStateRequest s = .next { s with replies := s.replies ++ [.busy] } := by
  rcases ha with ha | ha
  all_goals
    cases hp : s.power with
    | off => exact absurd hp h
    | _ => simp only [exec_powerStateRequest, execPowerStateRequest, hp, ha, hw, if_true]

theorem exec_powerStateRequest_standby (ha : s.arg.power = .standby) (hw : s.workLeft = false) :
    exec .powerStateRequest s = .next { s.standby with replies := s.replies ++ [.power .standby] } := by
  cases hp : s.power with
  | off => exact absurd hp h
  | _ =>
    simp only [exec_powerStateRequest, execPowerStateRequest, hp, ha, hw, Bool.false_eq_true, if_false]
    rfl

theorem exec_powerStateRequest_off (ha : s.arg.power = .off) (hw : s.workLeft = false) :
    exec .powerStateRequest s = .next (s.unpowered fun a => dramEnd ≤ a) := by
  cases hp : s.power with
  | off => exact absurd hp h
  | _ => simp only [exec_powerStateRequest, execPowerStateRequest, hp, ha, hw, Bool.false_eq_true, if_false]

end

/-- Settles O60: what each agent outside the module may do, and what each power state keeps. -/
theorem outsideAgentsAndPower : Obligations.OutsideAgentsAndPower := by
  refine ⟨fun s hu hd hc hw => ?hostWrite, fun s hu => ?hostDown, fun s hu hd ha => ?pageReply, fun s hu hl ha => ?shoot,
    fun s hu hn hc => ?hostRead, fun s hq hr hu hm => exec_hostSnoop_effect hq hr hu hm, fun s a bs hu hq hbs hd => ?pcie,
    fun s a bs hf hbs hd hm => ?fabric, fun s ha hl hal => ?window, fun s hl => exec_notifyWrite_full hl,
    fun s q pa n hb hq hlt hm => ?notify, fun s hops hp => ?link, fun s hl hb => ?attest, fun s hp => ?power,
    fun s hp ha => exec_powerStateRequest_awake (by rw [hp]; nofun) ha, fun s hp ha => ?powerOn, fun s hm => ?loss,
    fun s a p bs hu hq hbs hp => ?pcieWrite, fun s a p n hu hq hn hp hr => ?pcieRead, fun s asid page pages hf hr => ?peerShoot⟩
  case hostWrite =>
    intro m
    rw [exec_hostWrite_up hu hd]
    refine ⟨fun hin hx hm ha => ⟨_, rfl, ?_⟩, fun hin hx ha => ?_, fun ha => ?_⟩
    · rw [hostWrite_performed hc hw hin ha hx]
      exact answer_writePhys hin hm _
    · rw [hostWrite_dead hc hw hin ha hx]
    · rw [hostWrite_denied hc hw ha]
  case hostDown =>
    refine ⟨?_, ?_⟩
    · rw [exec_hostWrite, execHostWrite, hu]
      rfl
    · rw [exec_hostRead, execHostRead, hu]
      rfl
  case pageReply => rw [exec_hostWrite_up hu hd, ha, hostWrite_reply]
  case shoot =>
    have hd : s.arg.data ≠ [] := fun e => by rw [e] at hl; cases hl
    rw [exec_hostWrite_up hu hd, ha, hostWrite_shoot hl]
  case hostRead =>
    have hsame := sansCaches_hostHolds s s.arg.q s.arg.a s.arg.n
    have hmem := eq_of_sansCaches_eq State.mem hsame
    have hreplies := eq_of_sansCaches_eq State.replies hsame
    exact ⟨fun hd hx ha => ⟨_, exec_hostRead_dram hu hn hc hd hx ha, hmem, congrArg (· ++ _) hreplies⟩,
      fun ha => exec_hostRead_denied hu hn hc ha⟩
  case pcie =>
    intro m
    have hmaster : s.pcieMaster = m := rfl
    have hpos : 0 < bs.length := List.length_pos_of_ne_nil hbs
    refine ⟨fun ro hr hm hx => ⟨fun ha => ?_, fun ha => ?_⟩, fun hr hx => ⟨fun ha => ?_, fun ha => ?_⟩, fun hr => ?_,
      fun ty op b c ret hr hw => ?_⟩
    · refine ⟨_, (exec_pcieInbound_up hu (.inl (hr ▸ hpos))).trans ?_, writePhys_dram hd hm⟩
      rw [hr, hmaster, pcieRequest_write hd ha hx]
    · rw [exec_pcieInbound_up hu (.inl (hr ▸ hpos)), hr, hmaster, pcieRequest_write_denied hd ha]
    · rw [exec_pcieInbound_up hu (.inl (hr ▸ hpos)), hr, hmaster, pcieRequest_read hd ha hx]
    · rw [exec_pcieInbound_up hu (.inl (hr ▸ hpos)), hr, hmaster, pcieRequest_read_denied hd ha]
    · rw [exec_pcieInbound_up hu (.inr hr), hr]
      rfl
    · rw [exec_pcieInbound_up hu (.inl (hr ▸ hw)), hr]
      rfl
  case fabric =>
    intro dev m
    refine ⟨fun ro hr => ⟨fun ha hx => ⟨_, exec_fabricRequest_write hf hbs hd hr ha hx, answer_writePhys hd hm _⟩,
      fun ha => exec_fabricRequest_write_denied hf hbs hd hr ha⟩, fun hr => ⟨fun ha hx => ?_, fun ha hx => ?_,
      fun ha => exec_fabricRequest_read_denied hf hbs hr ha⟩, fun ty op b c ret hr hw => ⟨fun ha hx => ⟨fun new f hn => ?_,
      fun hn => exec_fabricRequest_atomic_reads hf hbs hd hr hw ha hx hn⟩, fun ha => exec_fabricRequest_atomic_denied hf hbs hr hw ha⟩⟩
    · rw [exec_fabricRequest_read hf hbs hd hr ha, hx]
      rfl
    · rw [exec_fabricRequest_read hf hbs hd hr ha, hx]
      rfl
    · have hlen : (toBytes bs.length new).length = bs.length := length_toBytes _ _
      obtain ⟨hmem, hreplies, -⟩ := answer_writePhys (bs := toBytes bs.length new) (a := a) (by rw [hlen]; exact hd) hm
        (.atomic dev (if ret then s.readPhys a bs.length else []) f)
      exact ⟨_, exec_fabricRequest_atomic_writes hf hbs hd hr hw ha hx hn, hmem, hreplies⟩
  case window =>
    intro w bs
    rw [exec_arrivalWindowWrite_in ha]
    refine ⟨fun hn => ?_, fun hy hb => ?_, fun b hy hb hz h2 hx hd => ?_⟩
    · rw [windowWrite_denied hl hn]
    · rw [windowWrite_unbound hl hal hy hb]
    · rw [windowWrite_bound hl hal hy hb hz h2 hx hd]
  case notify =>
    rw [notify_of_booted hb]
    exact notified_foldl hlt hm _ (.inl (List.mem_range.2 hq))
  case link =>
    obtain ⟨t, hexec, hthreads, hsame⟩ := execLostHostLink_idle hops hp
    have hmem := eq_of_sansOps_eq State.mem hsame
    have hhost := eq_of_sansOps_eq State.hostUp hsame
    have hpcie := eq_of_sansOps_eq State.pcieUp hsame
    refine ⟨t, hexec, hmem, hthreads, fun hq => ⟨hhost.trans (if_pos hq), hpcie.trans (if_neg (by omega))⟩,
      fun hq => ⟨hpcie.trans (if_pos hq), hhost.trans (if_neg (by omega))⟩⟩
  case attest =>
    rw [exec_attestationRequest_of_nonce hl hb]
    refine ⟨fun hn hlt => ⟨_, rfl, ?_⟩, fun hn => ?_⟩
    · rw [if_neg (by simp; omega)]
      exact ⟨rfl, rfl⟩
    · rw [if_pos (by simpa using hn)]
  case power =>
    have hon : s.power ≠ .off := by rcases hp with hp | hp <;> rw [hp] <;> nofun
    refine ⟨fun ha => exec_powerStateRequest_awake hon ha, fun ha hw => exec_powerStateRequest_busy hon (.inl ha) hw,
      fun ha hw => ⟨_, exec_powerStateRequest_standby hon ha hw, rfl, rfl, fun th => ?_, rfl, rfl⟩,
      fun ha hw => exec_powerStateRequest_busy hon (.inr ha) hw,
      fun ha hw hm => ⟨_, exec_powerStateRequest_off hon ha hw, rfl, rfl, fun x hx => Memory.read_filter (keep := fun a => dramEnd ≤ a) (decide_eq_true hx) s.mem⟩⟩
    exact List.mem_filter.trans (and_congr_right fun _ => beq_iff_eq)
  case powerOn => simp only [exec_powerStateRequest, execPowerStateRequest, hp, ha]
  case loss =>
    refine ⟨_, exec_powerLoss s, rfl, rfl, rfl, fun x hx => ?_, fun hn x => ?_, fun hd => ?_⟩
    · exact Memory.read_filter (keep := fun a => s.arg.n == 1 || dramEnd ≤ a) (by rw [decide_eq_true hx, Bool.or_true]) s.lpddr
    · exact Memory.read_filter (keep := fun a => s.arg.n == 1 || dramEnd ≤ a) (by rw [hn]; rfl) s.lpddr
    · rw [State.lpddr, hd]
      rfl
  case pcieWrite =>
    intro m ro hr
    have hmaster : s.pcieMaster = m := rfl
    have hpos : 0 < bs.length := List.length_pos_of_ne_nil hbs
    rw [exec_pcieInbound_up hu (.inl (hr ▸ hpos)), hr, hmaster]
    refine ⟨fun he => ?_, fun hne ha hup => ?_, fun hne ha => ?_⟩
    · rw [pcieRequest_own (fun _ _ _ => Request.noConfusion) (he ▸ hp)]
    · rw [pcieRequest_forwarded hp hne (.inl ⟨bs, ro, rfl⟩) ha hup]
    · rw [pcieRequest_forward_denied hp hne (.inl ⟨bs, ro, rfl⟩) ha]
      rfl
  case pcieRead =>
    intro m
    have hmaster : s.pcieMaster = m := rfl
    rw [exec_pcieInbound_up hu (.inl (hr ▸ hn)), hr, hmaster]
    refine ⟨fun he => ?_, fun hne ha hup => ?_, fun hne ha => ?_⟩
    · rw [pcieRequest_own (fun _ _ _ => Request.noConfusion) (he ▸ hp)]
    · rw [pcieRequest_forwarded hp hne (.inr ⟨n, rfl⟩) ha hup]
    · rw [pcieRequest_forward_denied hp hne (.inr ⟨n, rfl⟩) ha]
      rfl
  case peerShoot =>
    intro x
    simp only [exec_fabricRequest, execFabricRequest, hf, hr, Bool.not_true, Bool.false_eq_true, if_false]
    rfl

end Sys2Proof.Machine
end

section
/-! SUPPORT. An identifier that is already in use: a descriptor's access can fall in with an older one of its thread (15 R347). -/

namespace Sys2Proof.Machine

/-! ### The thread and its state -/

/-- An older load of the thread, which a failed write has uncovered, under the identifier that the next access will get. -/
def olderLoad : Access :=
  { id := 21, issue := 1, pc := 0, words := [], va := 0x8000, size := 4, sup := false, place := .dram 0x8000 0, op := .ld .b32
    uncovered := some { cause := .fabric } }

/-- A device thread that names the descriptor at 0xB000 in v8 and v9 and still has that load. -/
def postingThread : Thread :=
  let x : Thread := { id := 3, unit := .device, group := 2, pc := 0x3040, alloc := 32 }
  { x with v := x.v.setIfInBounds 8 0xB000, ops := [olderLoad] }

/-- Page tables that map the first GiB of virtual addresses to itself, and the thread, which issues alone. -/
def postingState : State :=
  { nextId := 20, team := [3], booted := true, img := { spBase := 0x00007F0000000000, stkBase := 0x00007E0000000000 }, threads := [postingThread]
    mem := [(0x1000, 0x01), (0x1001, 0x20), (0x2000, 0x7F)]
    groups := [{ id := 2, launch := 1, gang := 9, hdr := {}, entry := 0x3000 }]
    launches := [{ id := 1, queue := 0, lr := { entry := 0x3000 }, hdr := {}, space := { root := 0x1000 } }] }

def postOperands : Desc := { g := 7, d := .v 16, a := .v 8, b := .v 12, c := .zero, mod8 := 0, lit := none, w2 := 0 }

/-! ### What it does -/

theorem postingThread_runs : Runs (.sgpost postOperands) postingState postingThread where
  here := rfl
  issues := by decide +kernel
  calm := rfl
  decodes := by decide +kernel
  guard := by decide +kernel
  ready := by decide +kernel
  noRegion := fun _ _ h => nomatch h

theorem postingState_homely : postingState.Homely := ⟨rfl, rfl, by decide +kernel⟩

/-- The descriptor lies in local memory. -/
theorem postingState_sgPlace : ∃ s1,
    postingState.newId.2.sgPlace postingThread (postingState.a64 postingThread postOperands &&& ~~~0x1FF#64) .write
      = (s1, .home 0xB000 0) := by
  have hplace : (postingState.newId.2.sgPlace postingThread (postingState.a64 postingThread postOperands &&& ~~~0x1FF#64) .write).2
      = .home 0xB000 0 := by decide +kernel
  rw [← hplace]
  exact ⟨_, Prod.mk.eta.symm⟩

/-- No thread has an event at a descriptor outstanding. -/
def State.noEvents (s : State) : Bool := s.threads.all fun x => x.ops.all fun a => match a.op with
  | .sg .. => false
  | _ => true

/-- The step ends without one: the issue finds the older load under its identifier, and that load's failure takes its place. -/
def endsWithoutEvents (r : Host.Outcome State Fault Refusal) : Bool := match r with
  | .next t => t.noEvents
  | _ => false

theorem sgpost_leaves_no_event : endsWithoutEvents (exec (.sgpost postOperands) postingState) = true := by decide +kernel

theorem not_noEvents_of_mem {s : State} {th : Thread} {a : Access} {k i : Nat} {w : Word} {t : Nat} (hth : s.thread? t = some th)
    (ha : a ∈ th.ops) (ho : a.op = .sg k i w) : s.noEvents = false := by
  refine List.all_eq_false.2 ⟨th, List.mem_of_find?_eq_some hth, ?_⟩
  rw [Bool.not_eq_true, List.all_eq_false]
  exact ⟨a, ha, by rw [ho]; exact Bool.false_ne_true⟩

/-- Refutes O55: its clause on SGPOST fails for a thread that already has an access under the identifier that the issue gives out, since
what settles the new access finds the old one first. Here the old one, a load that a failed write has uncovered, fails, and the failed
load stands in the place of the event. Identifiers are given out once, so no run is known to lead to such a state; the statement asks
it of every state. -/
theorem not_sampleGroupsOpenPostAndClose : ¬ Obligations.SampleGroupsOpenPostAndClose := by
  unfold Obligations.SampleGroupsOpenPostAndClose
  rintro ⟨-, -, -, hpost, -⟩
  obtain ⟨s1, hplace⟩ := postingState_sgPlace
  obtain ⟨t, hexec, th2, hth, -, -, -, -, -, -, -, -, -, a, ha, hop, -⟩ := hpost postOperands postingState s1 postingThread 0xB000 0
    ⟨rfl, postingThread_runs⟩ postingState_homely (fun _ _ h => nomatch h) (by decide +kernel) (by decide +kernel) (by decide +kernel)
    hplace
  have hends := sgpost_leaves_no_event
  rw [hexec] at hends
  have hnone : t.noEvents = true := hends
  exact Bool.false_ne_true ((not_noEvents_of_mem hth ha hop).symm.trans hnone)

end Sys2Proof.Machine
end
